-- ==== Sys2Proof/Word.lean ====
section
/-! DEFINITION. The words of the machine and the plainest containers: bytes, lanes, and sparse tables. -/

namespace Sys2Proof

/-- A byte. -/
abbrev Byte := BitVec 8

/-- A 64-bit scalar word (02 R25). -/
abbrev W64 := BitVec 64

/-- A 32-bit lane or instruction word (02 R26, 03 R49). -/
abbrev W32 := BitVec 32

/-- A sparse table: the entries that differ from what an absent key means.  The keys stand in rising order. -/
abbrev SMap (α : Type) := List (Nat × α)

/-- A list of (address, byte) pairs: the memories of the machine. -/
abbrev Mem := List (Nat × BitVec 8)

end Sys2Proof
end

