-- ==== Sys2Proof/Syntax.lean ====
section
/-! DEFINITION. The instructions and events of the Kelvas HK-1: one constructor per row of the opcode table.

An instruction's constructor holds the raw fields of its encoding (03 R49, R50), the stall count `st` first; reserved
field values are judged where the instruction issues (03 R67).  An event's constructor names the agents it acts on and
whatever the outside world brings to it (a sensor's reading, a flit, the bytes of an image). -/

namespace Sys2Proof

/-- A core of the panel: the worker and the feeder of a virtual tile (01 R14), the two system cores of a compute
chiplet (01 R11) and the four management cores of an I/O chiplet (01 R10).  Virtual tiles are numbered
128 x ay + ax, compute chiplets 8 x cy + cx. -/
inductive CoreRef where
  | worker (t : Nat)
  | feeder (t : Nat)
  | sys (chip k : Nat)
  | mgmt (io k : Nat)
deriving DecidableEq, Repr

/-- One row of the opcode table each. -/
inductive Instr where
  /-- NOP (R303). -/
  | nop (st : BitVec 3)
  /-- BR (R304). -/
  | br (st : BitVec 3) (o : BitVec 16)
  /-- BRV (R304). -/
  | brv (st : BitVec 3) (c : BitVec 6) (o : BitVec 16)
  /-- BRN (R304). -/
  | brn (st : BitVec 3) (c : BitVec 6) (o : BitVec 16)
  /-- CALL (R304). -/
  | call (st : BitVec 3) (o : BitVec 16)
  /-- BRX (R305). -/
  | brx (st : BitVec 3) (a : BitVec 6)
  /-- CALL_THROUGH_REGISTER (R305). -/
  | callThroughRegister (st : BitVec 3) (a : BitVec 6)
  /-- RET (R305). -/
  | ret (st : BitVec 3) (a : BitVec 6)
  /-- LOOP (R306). -/
  | loop (st : BitVec 3) (a : BitVec 6) (d : BitVec 5) (imm : BitVec 32)
  /-- EXIT (R184). -/
  | exit (st : BitVec 3)
  /-- WAIT_ALL (R308). -/
  | waitAll (st : BitVec 3)
  /-- WAIT_TIME (R308). -/
  | waitTime (st : BitVec 3) (a : BitVec 6)
  /-- TRAP (R309). -/
  | trap (st : BitVec 3) (i : BitVec 11)
  /-- ADD (R310). -/
  | add (st : BitVec 3) (a b : BitVec 6) (d : BitVec 5)
  /-- SUB (R310). -/
  | sub (st : BitVec 3) (a b : BitVec 6) (d : BitVec 5)
  /-- MUL (R310). -/
  | mul (st : BitVec 3) (a b : BitVec 6) (d : BitVec 5)
  /-- MULH (R310). -/
  | mulh (st : BitVec 3) (a b : BitVec 6) (d : BitVec 5)
  /-- MULHU (R310). -/
  | mulhu (st : BitVec 3) (a b : BitVec 6) (d : BitVec 5)
  /-- DIV (R311). -/
  | div (st : BitVec 3) (a b : BitVec 6) (d : BitVec 5)
  /-- DIVU (R311). -/
  | divu (st : BitVec 3) (a b : BitVec 6) (d : BitVec 5)
  /-- REM (R311). -/
  | rem (st : BitVec 3) (a b : BitVec 6) (d : BitVec 5)
  /-- REMU (R311). -/
  | remu (st : BitVec 3) (a b : BitVec 6) (d : BitVec 5)
  /-- AND (R310). -/
  | and (st : BitVec 3) (a b : BitVec 6) (d : BitVec 5)
  /-- OR (R310). -/
  | or (st : BitVec 3) (a b : BitVec 6) (d : BitVec 5)
  /-- XOR (R310). -/
  | xor (st : BitVec 3) (a b : BitVec 6) (d : BitVec 5)
  /-- ANDN (R310). -/
  | andn (st : BitVec 3) (a b : BitVec 6) (d : BitVec 5)
  /-- SHL (R310). -/
  | shl (st : BitVec 3) (a b : BitVec 6) (d : BitVec 5)
  /-- SHR (R310). -/
  | shr (st : BitVec 3) (a b : BitVec 6) (d : BitVec 5)
  /-- SRA (R310). -/
  | sra (st : BitVec 3) (a b : BitVec 6) (d : BitVec 5)
  /-- ROL (R310). -/
  | rol (st : BitVec 3) (a b : BitVec 6) (d : BitVec 5)
  /-- ROR (R310). -/
  | ror (st : BitVec 3) (a b : BitVec 6) (d : BitVec 5)
  /-- MIN (R310). -/
  | min (st : BitVec 3) (a b : BitVec 6) (d : BitVec 5)
  /-- MAX (R310). -/
  | max (st : BitVec 3) (a b : BitVec 6) (d : BitVec 5)
  /-- MINU (R310). -/
  | minu (st : BitVec 3) (a b : BitVec 6) (d : BitVec 5)
  /-- MAXU (R310). -/
  | maxu (st : BitVec 3) (a b : BitVec 6) (d : BitVec 5)
  /-- CLZ (R310). -/
  | clz (st : BitVec 3) (a : BitVec 6) (d : BitVec 5)
  /-- CTZ (R310). -/
  | ctz (st : BitVec 3) (a : BitVec 6) (d : BitVec 5)
  /-- POP (R310). -/
  | pop (st : BitVec 3) (a : BitVec 6) (d : BitVec 5)
  /-- MOV (R310). -/
  | mov (st : BitVec 3) (a : BitVec 6) (d : BitVec 5)
  /-- ADDI (R312). -/
  | addi (st : BitVec 3) (a : BitVec 6) (d : BitVec 5) (i : BitVec 11)
  /-- MULI (R312). -/
  | muli (st : BitVec 3) (a : BitVec 6) (d : BitVec 5) (i : BitVec 11)
  /-- ANDI (R312). -/
  | andi (st : BitVec 3) (a : BitVec 6) (d : BitVec 5) (i : BitVec 11)
  /-- ORI (R312). -/
  | ori (st : BitVec 3) (a : BitVec 6) (d : BitVec 5) (i : BitVec 11)
  /-- XORI (R312). -/
  | xori (st : BitVec 3) (a : BitVec 6) (d : BitVec 5) (i : BitVec 11)
  /-- SHLI (R312). -/
  | shli (st : BitVec 3) (a : BitVec 6) (d : BitVec 5) (i : BitVec 6)
  /-- SHRI (R312). -/
  | shri (st : BitVec 3) (a : BitVec 6) (d : BitVec 5) (i : BitVec 6)
  /-- SRAI (R312). -/
  | srai (st : BitVec 3) (a : BitVec 6) (d : BitVec 5) (i : BitVec 6)
  /-- LI (R313). -/
  | li (st : BitVec 3) (d : BitVec 5) (imm : BitVec 32)
  /-- LIH (R313). -/
  | lih (st : BitVec 3) (a : BitVec 6) (d : BitVec 5) (imm : BitVec 32)
  /-- TEST (R314). -/
  | test (st : BitVec 3) (a b : BitVec 6) (d f : BitVec 5)
  /-- FILL (R315). -/
  | fill (st : BitVec 3) (a b : BitVec 6) (d : BitVec 5)
  /-- KEEP (R315). -/
  | keep (st : BitVec 3) (a b : BitVec 6) (d : BitVec 5)
  /-- VALID (R315). -/
  | valid (st : BitVec 3) (a : BitVec 6) (d : BitVec 5)
  /-- KILL (R315). -/
  | kill (st : BitVec 3) (a : BitVec 6) (d : BitVec 5)
  /-- FADD (R322). -/
  | fadd (st : BitVec 3) (a b : BitVec 6) (d : BitVec 5) (r : BitVec 2)
  /-- FSUB (R322). -/
  | fsub (st : BitVec 3) (a b : BitVec 6) (d : BitVec 5) (r : BitVec 2)
  /-- FMUL (R322). -/
  | fmul (st : BitVec 3) (a b : BitVec 6) (d : BitVec 5) (r : BitVec 2)
  /-- FMIN (R323). -/
  | fmin (st : BitVec 3) (a b : BitVec 6) (d : BitVec 5)
  /-- FMAX (R323). -/
  | fmax (st : BitVec 3) (a b : BitVec 6) (d : BitVec 5)
  /-- FDIV (R322). -/
  | fdiv (st : BitVec 3) (a b : BitVec 6) (d : BitVec 5) (r : BitVec 2)
  /-- FSQRT (R322). -/
  | fsqrt (st : BitVec 3) (a : BitVec 6) (d : BitVec 5) (r : BitVec 2)
  /-- FFMA (R324). -/
  | ffma (st : BitVec 3) (a : BitVec 6) (d : BitVec 5) (b : BitVec 6) (r : BitVec 2) (c : BitVec 6)
  /-- FABS (R325). -/
  | fabs (st : BitVec 3) (a : BitVec 6) (d : BitVec 5)
  /-- FNEG (R325). -/
  | fneg (st : BitVec 3) (a : BitVec 6) (d : BitVec 5)
  /-- FCLASS (R325). -/
  | fclass (st : BitVec 3) (a : BitVec 6) (d : BitVec 5)
  /-- FTEST (R326). -/
  | ftest (st : BitVec 3) (a b : BitVec 6) (d f : BitVec 5)
  /-- FCVT (R327). -/
  | fcvt (st : BitVec 3) (a : BitVec 6) (x y : BitVec 3) (d : BitVec 5) (r : BitVec 2)
  /-- PSET (R316). -/
  | pset (st : BitVec 3) (a : BitVec 6) (d : BitVec 5)
  /-- PINC (R317). -/
  | pinc (st : BitVec 3) (a : BitVec 6) (d : BitVec 5) (i : BitVec 11)
  /-- PHND (R318). -/
  | phnd (st : BitVec 3) (a b : BitVec 6) (d : BitVec 5)
  /-- PXY (R318). -/
  | pxy (st : BitVec 3) (a b : BitVec 6) (d : BitVec 5)
  /-- POFF (R318). -/
  | poff (st : BitVec 3) (a b : BitVec 6) (d : BitVec 5)
  /-- PGET (R319). -/
  | pget (st : BitVec 3) (a : BitVec 6) (d f : BitVec 5)
  /-- LD (R347). -/
  | ld (st : BitVec 3) (b : BitVec 6) (c : BitVec 1) (p : BitVec 3) (d : BitVec 5) (w : BitVec 3)
  /-- ST (R347). -/
  | st (st : BitVec 3) (b x : BitVec 6) (r : BitVec 1) (p w : BitVec 3)
  /-- LDL (R348). -/
  | ldl (st : BitVec 3) (b : BitVec 6) (c : BitVec 1) (p : BitVec 3) (d : BitVec 5) (w : BitVec 3) (q : BitVec 2)
  /-- LDFE (R348). -/
  | ldfe (st : BitVec 3) (b : BitVec 6) (c : BitVec 1) (p : BitVec 3) (d : BitVec 5) (w : BitVec 3) (q : BitVec 2)
  /-- LDFE_FEC (R348). -/
  | ldfeFec (st : BitVec 3) (b : BitVec 6) (c : BitVec 1) (p : BitVec 3) (d : BitVec 5) (w : BitVec 3) (q : BitVec 2)
  /-- STL (R348). -/
  | stl (st : BitVec 3) (b x : BitVec 6) (r : BitVec 1) (p : BitVec 3) (e : BitVec 1) (w : BitVec 3) (q : BitVec 2)
  /-- LDA (R353). -/
  | lda (st : BitVec 3) (b : BitVec 6) (c : BitVec 1) (p : BitVec 3) (d : BitVec 5) (w : BitVec 3)
  /-- CHKA (R354). -/
  | chka (st : BitVec 3) (b : BitVec 6) (c : BitVec 1) (p : BitVec 3) (d : BitVec 5) (w : BitVec 3)
  /-- AMO (R357). -/
  | amo (st : BitVec 3) (a : BitVec 6) (d op : BitVec 5) (p : BitVec 3) (o : BitVec 2) (w : BitVec 1) (x : BitVec 6)
  /-- AMOCAS (R357). -/
  | amocas (st : BitVec 3) (a : BitVec 6) (d : BitVec 5) (p : BitVec 3) (o : BitVec 2) (w : BitVec 1) (x y : BitVec 6)
  /-- AMOL (R358). -/
  | amol (st : BitVec 3) (a : BitVec 6) (d op : BitVec 5) (p : BitVec 3) (o : BitVec 2) (w : BitVec 1) (x y : BitVec 6)
  /-- FENCE (R141). -/
  | fence (st p : BitVec 3) (k : BitVec 2)
  /-- PREF (R355). -/
  | pref (st : BitVec 3) (a : BitVec 6)
  /-- VADD (R330). -/
  | vadd (st : BitVec 3) (a b : BitVec 6) (d : BitVec 5)
  /-- VSUB (R330). -/
  | vsub (st : BitVec 3) (a b : BitVec 6) (d : BitVec 5)
  /-- VMUL (R330). -/
  | vmul (st : BitVec 3) (a b : BitVec 6) (d : BitVec 5)
  /-- VMULH (R330). -/
  | vmulh (st : BitVec 3) (a b : BitVec 6) (d : BitVec 5)
  /-- VMULHU (R330). -/
  | vmulhu (st : BitVec 3) (a b : BitVec 6) (d : BitVec 5)
  /-- VAND (R330). -/
  | vand (st : BitVec 3) (a b : BitVec 6) (d : BitVec 5)
  /-- VOR (R330). -/
  | vor (st : BitVec 3) (a b : BitVec 6) (d : BitVec 5)
  /-- VXOR (R330). -/
  | vxor (st : BitVec 3) (a b : BitVec 6) (d : BitVec 5)
  /-- VANDN (R330). -/
  | vandn (st : BitVec 3) (a b : BitVec 6) (d : BitVec 5)
  /-- VSHL (R330). -/
  | vshl (st : BitVec 3) (a b : BitVec 6) (d : BitVec 5)
  /-- VSHR (R330). -/
  | vshr (st : BitVec 3) (a b : BitVec 6) (d : BitVec 5)
  /-- VSRA (R330). -/
  | vsra (st : BitVec 3) (a b : BitVec 6) (d : BitVec 5)
  /-- VMIN (R330). -/
  | vmin (st : BitVec 3) (a b : BitVec 6) (d : BitVec 5)
  /-- VMAX (R330). -/
  | vmax (st : BitVec 3) (a b : BitVec 6) (d : BitVec 5)
  /-- VMINU (R330). -/
  | vminu (st : BitVec 3) (a b : BitVec 6) (d : BitVec 5)
  /-- VMAXU (R330). -/
  | vmaxu (st : BitVec 3) (a b : BitVec 6) (d : BitVec 5)
  /-- VPOP (R330). -/
  | vpop (st : BitVec 3) (a : BitVec 6) (d : BitVec 5)
  /-- VMOV (R330). -/
  | vmov (st : BitVec 3) (a : BitVec 6) (d : BitVec 5)
  /-- VFADD (R331). -/
  | vfadd (st : BitVec 3) (a b : BitVec 6) (d : BitVec 5) (r : BitVec 2)
  /-- VFSUB (R331). -/
  | vfsub (st : BitVec 3) (a b : BitVec 6) (d : BitVec 5) (r : BitVec 2)
  /-- VFMUL (R331). -/
  | vfmul (st : BitVec 3) (a b : BitVec 6) (d : BitVec 5) (r : BitVec 2)
  /-- VFMIN (R331). -/
  | vfmin (st : BitVec 3) (a b : BitVec 6) (d : BitVec 5)
  /-- VFMAX (R331). -/
  | vfmax (st : BitVec 3) (a b : BitVec 6) (d : BitVec 5)
  /-- VFABS (R331). -/
  | vfabs (st : BitVec 3) (a : BitVec 6) (d : BitVec 5)
  /-- VFNEG (R331). -/
  | vfneg (st : BitVec 3) (a : BitVec 6) (d : BitVec 5)
  /-- VFFMA (R331). -/
  | vffma (st : BitVec 3) (a : BitVec 6) (d : BitVec 5) (b : BitVec 6) (r : BitVec 2) (c : BitVec 6)
  /-- VTEST (R333). -/
  | vtest (st : BitVec 3) (a b : BitVec 6) (d f : BitVec 5)
  /-- VEXP2 (R334). -/
  | vexp2 (st : BitVec 3) (a : BitVec 6) (d : BitVec 5)
  /-- VRCP (R334). -/
  | vrcp (st : BitVec 3) (a : BitVec 6) (d : BitVec 5)
  /-- VRED (R335). -/
  | vred (st : BitVec 3) (a : BitVec 6) (d f : BitVec 5)
  /-- VSCAN (R336). -/
  | vscan (st : BitVec 3) (a : BitVec 6) (d f : BitVec 5)
  /-- VPERM (R337). -/
  | vperm (st : BitVec 3) (a b : BitVec 6) (d : BitVec 5)
  /-- VCNT (R340). -/
  | vcnt (st : BitVec 3) (a : BitVec 6) (d : BitVec 5)
  /-- VFILL (R341). -/
  | vfill (st : BitVec 3) (a b : BitVec 6) (d : BitVec 5)
  /-- VKEEP (R341). -/
  | vkeep (st : BitVec 3) (a b : BitVec 6) (d : BitVec 5)
  /-- VVALID (R341). -/
  | vvalid (st : BitVec 3) (a : BitVec 6) (d : BitVec 5)
  /-- VKILL (R341). -/
  | vkill (st : BitVec 3) (a : BitVec 6) (d : BitVec 5)
  /-- VCVT (R342). -/
  | vcvt (st : BitVec 3) (a : BitVec 6) (x y : BitVec 3) (d : BitVec 5) (r : BitVec 2)
  /-- VPACK_16 (R343). -/
  | vpack16 (st : BitVec 3) (a b : BitVec 6) (d : BitVec 5)
  /-- VPACK_8 (R343). -/
  | vpack8 (st : BitVec 3) (a b : BitVec 6) (d : BitVec 5)
  /-- VUNPK_16 (R343). -/
  | vunpk16 (st : BitVec 3) (a b : BitVec 6) (d : BitVec 5)
  /-- VUNPK_8 (R343). -/
  | vunpk8 (st : BitVec 3) (a b : BitVec 6) (d : BitVec 5)
  /-- VEXT (R339). -/
  | vext (st : BitVec 3) (a b : BitVec 6) (d : BitVec 5)
  /-- VINS (R339). -/
  | vins (st : BitVec 3) (a b : BitVec 6) (d : BitVec 5)
  /-- VIDX (R338). -/
  | vidx (st : BitVec 3) (d : BitVec 5)
  /-- VFDIV (R331). -/
  | vfdiv (st : BitVec 3) (a b : BitVec 6) (d : BitVec 5) (r : BitVec 2)
  /-- VFSQRT (R331). -/
  | vfsqrt (st : BitVec 3) (a : BitVec 6) (d : BitVec 5) (r : BitVec 2)
  /-- VLD (R351). -/
  | vld (st : BitVec 3) (b : BitVec 6) (c : BitVec 1) (p : BitVec 3) (d : BitVec 5) (w : BitVec 3)
  /-- VST (R351). -/
  | vst (st : BitVec 3) (b x : BitVec 6) (r : BitVec 1) (p w : BitVec 3)
  /-- VLDL (R351). -/
  | vldl (st : BitVec 3) (b : BitVec 6) (c : BitVec 1) (p : BitVec 3) (e : BitVec 2) (d : BitVec 5) (w : BitVec 3) (q : BitVec 2)
  /-- VSTL (R351). -/
  | vstl (st : BitVec 3) (b x : BitVec 6) (r : BitVec 1) (p : BitVec 3) (e : BitVec 1) (w : BitVec 3) (q : BitVec 2)
  /-- VLDS (R352). -/
  | vlds (st : BitVec 3) (b x : BitVec 6) (d : BitVec 5) (w : BitVec 3)
  /-- YDRAW (R227). -/
  | ydraw (st : BitVec 3) (a b : BitVec 6) (d : BitVec 5)
  /-- YCMP (R229). -/
  | ycmp (st : BitVec 3) (a b : BitVec 6) (d : BitVec 5) (c k : BitVec 2)
  /-- YCMPY (R231). -/
  | ycmpy (st : BitVec 3) (a b : BitVec 6) (d : BitVec 5) (c : BitVec 2)
  /-- YCOPY (R227). -/
  | ycopy (st : BitVec 3) (a : BitVec 6) (d : BitVec 5)
  /-- YEXT (R227). -/
  | yext (st : BitVec 3) (a b : BitVec 6) (d : BitVec 5)
  /-- YBITS (R227). -/
  | ybits (st : BitVec 3) (a : BitVec 6) (d : BitVec 5)
  /-- YST (R228). -/
  | yst (st : BitVec 3) (b x : BitVec 6) (r : BitVec 1) (p : BitVec 3)
  /-- YLD (R228). -/
  | yld (st : BitVec 3) (b : BitVec 6) (c : BitVec 1) (p : BitVec 3) (d : BitVec 5)
  /-- YSR (R233). -/
  | ysr (st : BitVec 3) (a b : BitVec 6) (d f : BitVec 5)
  /-- HALLOC (R359). -/
  | halloc (st : BitVec 3) (lv : BitVec 2) (ft : BitVec 4) (d : BitVec 5) (h : BitVec 8) (rows cols : BitVec 16)
  /-- HALLOC_D (R359). -/
  | hallocD (st : BitVec 3) (a : BitVec 6) (d : BitVec 5) (h : BitVec 8)
  /-- HWIN (R360). -/
  | hwin (st : BitVec 3) (a : BitVec 6) (d : BitVec 5) (h : BitVec 8) (len : BitVec 32)
  /-- HFREE (R361). -/
  | hfree (st : BitVec 3) (a : BitVec 6)
  /-- HINFO (R361). -/
  | hinfo (st : BitVec 3) (a : BitVec 6) (d : BitVec 5)
  /-- BINIT (R203). -/
  | binit (st : BitVec 3) (a b : BitVec 6) (d : BitVec 5)
  /-- BARV (R203). -/
  | barv (st : BitVec 3) (a : BitVec 6) (d : BitVec 5)
  /-- BWAIT (R204). -/
  | bwait (st : BitVec 3) (a b : BitVec 6) (d : BitVec 5)
  /-- BTEST (R204). -/
  | btest (st : BitVec 3) (a b : BitVec 6) (d : BitVec 5)
  /-- BEXP (R203). -/
  | bexp (st : BitVec 3) (a b : BitVec 6)
  /-- GJOIN (R195). -/
  | gjoin (st : BitVec 3) (a b : BitVec 6) (d : BitVec 5)
  /-- GLEAVE (R195). -/
  | gleave (st : BitVec 3) (a : BitVec 6)
  /-- GINFO (R195). -/
  | ginfo (st : BitVec 3) (a : BitVec 6) (d : BitVec 5)
  /-- GAUGE (R195). -/
  | gauge (st : BitVec 3) (a b : BitVec 6)
  /-- GADV (R195). -/
  | gadv (st : BitVec 3) (a : BitVec 6) (d : BitVec 5)
  /-- CPY (R370). -/
  | cpy (st : BitVec 3) (h1 h2 n : BitVec 6) (ch dir : BitVec 2) (post : BitVec 1) (bar : BitVec 8)
  /-- CPYM (R371). -/
  | cpym (st : BitVec 3) (h1 h2 n : BitVec 6) (ch : BitVec 2) (post : BitVec 1) (bar : BitVec 8)
  /-- TLD (R372). -/
  | tld (st : BitVec 3) (h1 h2 n : BitVec 6) (ch : BitVec 2) (post : BitVec 1) (bar : BitVec 8) (x : BitVec 6)
  /-- TST (R372). -/
  | tst (st : BitVec 3) (h1 h2 n : BitVec 6) (ch : BitVec 2) (post : BitVec 1) (bar : BitVec 8) (x : BitVec 6)
  /-- XWAIT (R373). -/
  | xwait (st : BitVec 3) (a b : BitVec 6) (d : BitVec 5)
  /-- XSTAT (R373). -/
  | xstat (st : BitVec 3) (a : BitVec 6) (d : BitVec 5)
  /-- MFMT (R374). -/
  | mfmt (st : BitVec 3) (a : BitVec 6) (af bf : BitVec 2)
  /-- MMA (R376). -/
  | mma (st : BitVec 3) (h1 h2 n : BitVec 6) (zero post : BitVec 1) (bar : BitVec 8) (acc : BitVec 6)
  /-- MMAG (R376). -/
  | mmag (st : BitVec 3) (h1 h2 n : BitVec 6) (zero post : BitVec 1) (bar : BitVec 8) (acc ix : BitVec 6)
  /-- MDRAIN (R377). -/
  | mdrain (st : BitVec 3) (h1 h2 n : BitVec 6) (r : BitVec 2) (post : BitVec 1) (bar : BitVec 8)
  /-- QNT (R378). -/
  | qnt (st : BitVec 3) (h1 h2 n : BitVec 6) (r : BitVec 2) (post : BitVec 1) (bar : BitVec 8)
  /-- MSEND (R363). -/
  | msend (st : BitVec 3) (a : BitVec 6) (cls : BitVec 3) (imm : BitVec 32)
  /-- LAUNCH (R364). -/
  | launch (st : BitVec 3) (a b : BitVec 6)
  /-- DONE (R365). -/
  | doneI (st : BitVec 3) (a b : BitVec 6)
  /-- CRD (R384). -/
  | crd (st : BitVec 3) (d : BitVec 5) (c : BitVec 16)
  /-- CWR (R384). -/
  | cwr (st : BitVec 3) (a : BitVec 6) (c : BitVec 16)
  /-- ERET (R387). -/
  | eret (st : BitVec 3)
  /-- INTEN (R388). -/
  | inten (st : BitVec 3) (a : BitVec 6)
  /-- INTDIS (R388). -/
  | intdis (st : BitVec 3) (a : BitVec 6)
  /-- SLEEP (R389). -/
  | sleep (st : BitVec 3)
  /-- TLBINV_PAGE (R126). -/
  | tlbinvPage (st : BitVec 3) (a : BitVec 6)
  /-- TLBINV_CTX (R126). -/
  | tlbinvCtx (st : BitVec 3) (a : BitVec 6)
  /-- TLBINV_ALL (R126). -/
  | tlbinvAll (st : BitVec 3)
  /-- HALT (R390). -/
  | halt (st : BitVec 3)
  /-- BLOCK_ENTRY (R301). -/
  | blockEntry (c : CoreRef)
  /-- VARIABLE_LATENCY_COMPLETION (R57). -/
  | variableLatencyCompletion (c : CoreRef) (id : Nat)
  /-- BLOCK_REPLAY (R256). -/
  | blockReplay (c : CoreRef)
  /-- SLEEP_WAKE (R389). -/
  | sleepWake (c : CoreRef)
  /-- TASK_TAKE (R174). -/
  | taskTake (c : CoreRef)
  /-- STEAL_REQUEST (R175). -/
  | stealRequest (c : CoreRef)
  /-- STEAL_ANSWER (R175). -/
  | stealAnswer (c : CoreRef)
  /-- STEAL_BACKOFF_EXPIRY (R175). -/
  | stealBackoffExpiry (c : CoreRef)
  /-- STITCH_MESSAGE_ARRIVAL (R222). -/
  | stitchMessageArrival (i : Nat)
  /-- STITCH_MESSAGE_RUN (R222). -/
  | stitchMessageRun (t : Nat)
  /-- REMOTE_ACCESS_ARRIVAL (R111). -/
  | remoteAccessArrival (i : Nat)
  /-- CONSUMING_LOAD_SERVED (R113). -/
  | consumingLoadServed (c : CoreRef) (id : Nat)
  /-- STORE_BUFFER_DRAIN (R142). -/
  | storeBufferDrain (t i : Nat)
  /-- HOME_SLICE_READ (R137). -/
  | homeSliceRead (c : CoreRef) (id bad : Nat)
  /-- HOME_SLICE_WRITE (R137). -/
  | homeSliceWrite (t i : Nat)
  /-- HOME_SLICE_ATOMIC (R357). -/
  | homeSliceAtomic (c : CoreRef) (id : Nat)
  /-- UNDO_LOG_SPACE_FREED (R269). -/
  | undoLogSpaceFreed (t i : Nat)
  /-- ZERO_PENDING_BACKGROUND (R127). -/
  | zeroPendingBackground (chip frame : Nat)
  /-- ZERO_PENDING_TABLE_FREED (R127). -/
  | zeroPendingTableFreed (t i : Nat)
  /-- CHANNEL_RETIRE_REQUEST (R261). -/
  | channelRetireRequest (stack ch : Nat)
  /-- PAGE_WALK (R124). -/
  | pageWalk (t : Nat) (va : BitVec 64)
  /-- BUSY_REREAD (R123). -/
  | busyReread (c : CoreRef) (id : Nat)
  /-- BUSY_TIMEOUT (R122). -/
  | busyTimeout (c : CoreRef) (id : Nat)
  /-- TLBINV_COMPLETE (R126). -/
  | tlbinvComplete (c : CoreRef)
  /-- FORCE_PAGE (R131). -/
  | forcePage (frame : Nat)
  /-- FRAME_STATUS_READ (R130). -/
  | frameStatusRead (frame : Nat)
  /-- PIN_RETRY (R128). -/
  | pinRetry (t x : Nat)
  /-- HALLOC_COMPLETE (R107). -/
  | hallocComplete (c : CoreRef) (id : Nat)
  /-- HFREE_COMPLETE (R108). -/
  | hfreeComplete (t h : Nat)
  /-- UNIT_SCRUB_DONE (R108). -/
  | unitScrubDone (t level : Nat)
  /-- WINDOW_LINE_FILL (R114). -/
  | windowLineFill (c : CoreRef) (id : Nat)
  /-- TRANSFER_START (R211). -/
  | transferStart (t x : Nat)
  /-- TRANSFER_FINISH (R211). -/
  | transferFinish (t x : Nat)
  /-- TRANSFER_FAULT (R213). -/
  | transferFault (t x cause : Nat)
  /-- SLOW_PATH_RETRY (R213). -/
  | slowPathRetry (t x : Nat)
  /-- SLOW_PAGE_SKIP (R213). -/
  | slowPageSkip (t x : Nat)
  /-- SLOW_PATH_FINISH (R213). -/
  | slowPathFinish (t x : Nat)
  /-- MATRIX_START (R219). -/
  | matrixStart (t : Nat)
  /-- MATRIX_COMPLETION (R96). -/
  | matrixCompletion (t fringe : Nat)
  /-- DRAIN_COMPLETION (R377). -/
  | drainCompletion (t : Nat)
  /-- MULTICAST_RECEIVE (R217). -/
  | multicastReceive (i : Nat)
  /-- MULTICAST_ACK (R206). -/
  | multicastAck (i : Nat)
  /-- BARRIER_ARRIVAL (R201). -/
  | barrierArrival (i : Nat)
  /-- GROUP_REQUEST_ARRIVAL (R194). -/
  | groupRequestArrival (i : Nat)
  /-- ZEPHYR_FILL_REQUEST (R235). -/
  | zephyrFillRequest (chip ctx : Nat) (req : BitVec 256)
  /-- ZEPHYR_FILL_COMPLETE (R235). -/
  | zephyrFillComplete (chip : Nat)
  /-- KICK (R169). -/
  | kick (i : Nat)
  /-- SLOT_LOADED (R170). -/
  | slotLoaded (chip slot : Nat)
  /-- PACKET_FETCH (R171). -/
  | packetFetch (chip slot : Nat)
  /-- RECORD_PLACEMENT (R174). -/
  | recordPlacement (chip slot : Nat)
  /-- SLOT_POLL (R170). -/
  | slotPoll (chip slot : Nat)
  /-- UNMAP_COMPLETE (R172). -/
  | unmapComplete (chip slot : Nat)
  /-- QUEUE_DESCRIPTOR_WRITE (R164). -/
  | queueDescriptorWrite (q : Nat) (d : BitVec 128)
  /-- QUEUE_DESTROY (R173). -/
  | queueDestroy (q : Nat)
  /-- QUEUE_ACL_WRITE (R179). -/
  | queueAclWrite (i : Nat) (e : BitVec 64)
  /-- SCHEDULER_SCAN (R176). -/
  | schedulerScan (chip : Nat)
  /-- STANDBY_TAKEOVER (R178). -/
  | standbyTakeover (chip : Nat)
  /-- CMD_MAP (R419). -/
  | cmdMap (c : CoreRef) (w : BitVec 64)
  /-- CMD_UNMAP (R419). -/
  | cmdUnmap (c : CoreRef) (w : BitVec 64)
  /-- CMD_PRIO (R419). -/
  | cmdPrio (c : CoreRef) (w : BitVec 64)
  /-- GREL (R420). -/
  | grel (c : CoreRef) (w : BitVec 64)
  /-- JOURNAL_HALF_STORE (R421). -/
  | journalHalfStore (c : CoreRef) (a : Nat) (w : BitVec 64)
  /-- QE_CLEAR (R385). -/
  | qeClear (c : CoreRef)
  /-- REGISTER_WRITE (R285). -/
  | registerWrite (c : CoreRef) (a : Nat) (w : BitVec 64)
  /-- KERNEL_BOUNDARY (R147). -/
  | kernelBoundary (k : Nat)
  /-- COMPLETION_STORE (R187). -/
  | completionStore (k : Nat)
  /-- GATE_ADMIT (R188). -/
  | gateAdmit (k : Nat)
  /-- RING_SPACE_FREED (R364). -/
  | ringSpaceFreed (c : CoreRef) (id : Nat)
  /-- CONTEXT_CREATE (R152). -/
  | contextCreate (r : BitVec 512)
  /-- CREATION_SCRUB_DONE (R154). -/
  | creationScrubDone (ctx : Nat)
  /-- TABLE_STREAM_REQUEST (R155). -/
  | tableStreamRequest (ctx : Nat) (a : BitVec 53)
  /-- QUANTUM_EXPIRY (R156). -/
  | quantumExpiry (ctx : Nat)
  /-- PRE_EMPT_REQUEST (R156). -/
  | preEmptRequest (ctx : Nat)
  /-- STOP_WINDOW_EXPIRY (R156). -/
  | stopWindowExpiry (ctx : Nat)
  /-- STOP_RETRY (R156). -/
  | stopRetry (ctx : Nat)
  /-- STOPLATE (R156). -/
  | stoplate (ctx : Nat)
  /-- CONTEXT_PAUSED (R157). -/
  | contextPaused (ctx : Nat)
  /-- SAVE_ACKNOWLEDGE (R158). -/
  | saveAcknowledge (t : Nat)
  /-- FINAL_COPY (R158). -/
  | finalCopy (ctx : Nat)
  /-- RESTORE_REQUEST (R160). -/
  | restoreRequest (ctx vx0 vy0 : Nat)
  /-- RESTORE_VERIFIED (R160). -/
  | restoreVerified (ctx : Nat) (good : Bool)
  /-- DEBUG_STOP (R162). -/
  | debugStop (ctx : Nat)
  /-- DEBUG_RESUME (R162). -/
  | debugResume (ctx : Nat)
  /-- DEBUG_STEP (R162). -/
  | debugStep (t : Nat)
  /-- DEBUG_ACCESS (R162). -/
  | debugAccess (t sel i : Nat) (w : Option (BitVec 64))
  /-- DESTROY_REQUEST (R163). -/
  | destroyRequest (ctx : Nat)
  /-- DRIFT_INTERVAL_EXPIRY (R237). -/
  | driftIntervalExpiry (chip : Nat)
  /-- DRIFT_REQUEST (R237). -/
  | driftRequest (p : Nat)
  /-- DRIFT_INTERVAL_SET (R237). -/
  | driftIntervalSet (chip us : Nat)
  /-- DRAIN_WINDOW_EXPIRY (R239). -/
  | drainWindowExpiry (chip : Nat)
  /-- DRIFT_FREEZE (R239). -/
  | driftFreeze (chip : Nat)
  /-- QUIESCE_COMPLETE (R239). -/
  | quiesceComplete (chip : Nat)
  /-- IMAGE_COMPLETE (R240). -/
  | imageComplete (chip : Nat)
  /-- ROUTER_APPLY_ENTRY (R241). -/
  | routerApplyEntry (chip router : Nat)
  /-- FORWARDING_END (R241). -/
  | forwardingEnd (chip : Nat)
  /-- FORWARDED_ARRIVAL (R241). -/
  | forwardedArrival (chip : Nat)
  /-- DRIFT_RESUME (R242). -/
  | driftResume (chip cycles : Nat)
  /-- TEST_COMPLETE (R264). -/
  | testComplete (p : Nat) (response : List (BitVec 8)) (cycles : Nat)
  /-- CAST_OFF (R246). -/
  | castOff (p reason : Nat)
  /-- ROUTING_REWRITE (R250). -/
  | routingRewrite (p : Nat) (tab : List Nat)
  /-- TEST_PACKAGE_INSTALL (R264). -/
  | testPackageInstall (image : List (BitVec 8))
  /-- RETENTION_ENTRY (R254). -/
  | retentionEntry (p bank : Nat)
  /-- RETENTION_EXIT (R254). -/
  | retentionExit (p bank corrected : Nat)
  /-- PATROL_SCRUB (R253). -/
  | patrolScrub (p corrected : Nat)
  /-- RECOVERY_INTERVAL_EXPIRY (R266). -/
  | recoveryIntervalExpiry (ctx : Nat)
  /-- WAVE_WINDOW_EXPIRY (R265). -/
  | waveWindowExpiry (ctx : Nat)
  /-- CUT (R267). -/
  | cut (ctx : Nat)
  /-- SEAL (R269). -/
  | sealPoint (ctx : Nat)
  /-- DELTA_MERGE (R265). -/
  | deltaMerge (ctx : Nat)
  /-- SEALLATE (R266). -/
  | seallate (ctx : Nat)
  /-- ROLLBACK (R271). -/
  | rollback (ctx : Nat)
  /-- LOG_READ (R273). -/
  | logRead (log n : Nat)
  /-- LINK_TRAINED (R277). -/
  | linkTrained (l lanes : Nat)
  /-- LANE_LOST (R277). -/
  | laneLost (l : Nat)
  /-- RETRAIN_TIMER (R277). -/
  | retrainTimer (l : Nat)
  /-- LINK_TRAIN_REQUEST (R277). -/
  | linkTrainRequest (l : Nat)
  /-- FLIT_RECEIVE (R279). -/
  | flitReceive (l : Nat) (good : Bool)
  /-- PEER_DATA_FLIT (R282). -/
  | peerDataFlit (port : Nat) (flit : List (BitVec 8))
  /-- PEER_ACK_FLIT (R282). -/
  | peerAckFlit (port : Nat) (flit : List (BitVec 8))
  /-- PEER_REFUSAL_FLIT (R283). -/
  | peerRefusalFlit (port : Nat) (flit : List (BitVec 8))
  /-- PEER_KEEP_ALIVE (R282). -/
  | peerKeepAlive (port : Nat) (flit : List (BitVec 8))
  /-- CONNECTION_TIMEOUT (R284). -/
  | connectionTimeout (conn : Nat)
  /-- PEERLOST (R284). -/
  | peerlost (conn : Nat)
  /-- HOST_POSTED_WRITE (R148). -/
  | hostPostedWrite (port bar addr : Nat) (data : List (BitVec 8))
  /-- HOST_READ (R281). -/
  | hostRead (port bar addr n : Nat)
  /-- HOST_ATOMICOP (R281). -/
  | hostAtomicop (port bar addr op : Nat) (x y : BitVec 64)
  /-- POWER_SAMPLE (R289). -/
  | powerSample (chip watts : Nat)
  /-- CAP_TICK (R289). -/
  | capTick (chip : Nat)
  /-- FREQ_SET_WRITE (R288). -/
  | freqSetWrite (chip mhz : Nat)
  /-- SENSE_SAMPLE (R290). -/
  | senseSample (chip mv : Nat)
  /-- REGULATOR_RECALIBRATION (R290). -/
  | regulatorRecalibration (chip : Nat)
  /-- GUST_ACKNOWLEDGE (R291). -/
  | gustAcknowledge (chip : Nat)
  /-- GUST_SETTLE (R291). -/
  | gustSettle (chip : Nat)
  /-- THERMAL_SAMPLE (R292). -/
  | thermalSample (chip : Nat) (readings : List (Nat × Int))
  /-- THERMAL_LEVEL_DECAY (R292). -/
  | thermalLevelDecay (chip : Nat)
  /-- ALERT_CLEAR (R412). -/
  | alertClear (chip : Nat)
  /-- TILE_HOLD (R294). -/
  | tileHold (t : Nat)
  /-- TILE_GATE (R294). -/
  | tileGate (t : Nat)
  /-- WAKE_CAUSE (R294). -/
  | wakeCause (t : Nat)
  /-- INRUSH_ADMIT (R295). -/
  | inrushAdmit (chip : Nat)
  /-- WAKE_COMPLETE (R295). -/
  | wakeComplete (t : Nat)
  /-- POWER_ON_RESET (R296). -/
  | powerOnReset
  /-- BOOT_IMAGE_FETCHED (R297). -/
  | bootImageFetched (image : List (BitVec 8))
  /-- BOOT_RETRY (R296). -/
  | bootRetry
  /-- CONTROLLER_READY (R296). -/
  | controllerReady (chip : Nat) (ranges : List (Nat × Nat × Nat))
  /-- ATTESTATION_REQUEST (R298). -/
  | attestationRequest (io core : Nat) (nonce : BitVec 512)
  /-- SENDER_TIME_OUT (R251). -/
  | senderTimeOut (c : CoreRef) (id : Nat)
  /-- TILE_HARD_FAILURE (R251). -/
  | tileHardFailure (p : Nat)
  /-- WAVE_RETRY (R265). -/
  | waveRetry (ctx : Nat)
  /-- FIRMWARE_RELOAD (R390). -/
  | firmwareReload (c : CoreRef)
deriving DecidableEq, Repr

end Sys2Proof
end

