-- ==== Sys2Proof/Decode.lean ====
section
/-! DEFINITION. From bits to instructions and back (03 R44-R66): fields, the decoder, which is total and refuses by
name, and the encoder. Words are natural numbers below 2^32; a field is a quotient and a remainder. -/

namespace Sys2Proof

/-- Bits [lo+n-1:lo] of a word, as a number. -/
def fieldN (w lo n : Nat) : Nat := (w / 2 ^ lo) % 2 ^ n

/-- Bits [lo+n-1:lo] of a word, as a bit vector. -/
def field (w lo n : Nat) : BitVec n := BitVec.ofNat n (w / 2 ^ lo)

/-- What stands in a first word (and the word after it). -/
inductive Decoded where
  /-- An instruction and the number of its words. -/
  | instr (i : Instr) (words : Nat)
  /-- An opcode that is assigned, with a reserved selector or a nonzero unused field (03 R51, R60). -/
  | reserved (opc : Nat)
  /-- An unassigned opcode (03 R61). -/
  | unassigned (opc : Nat)
  /-- A two-word instruction whose first word is the last word there is (03 R46). -/
  | straddle (opc : Nat)
deriving DecidableEq, Repr

/-- The opcodes of R61. -/
def opcUnassigned (o : Nat) : Bool :=
  (0x0a <= o && o <= 0x0f) || (0x1b <= o && o <= 0x1f) || (0x25 <= o && o <= 0x27) || (0x2d <= o && o <= 0x2f) ||
  (0x36 <= o && o <= 0x37) || (0x4e <= o && o <= 0x4f) || (0x55 <= o && o <= 0x5f) || (0x6e <= o && o <= 0x6f) ||
  o == 0x7f

/-- The opcodes whose instructions take two words (formats L and E, 03 R50, R60). -/
def opcTwoWords (o : Nat) : Bool :=
  o == 0x06 || o == 0x19 || o == 0x1a || o == 0x29 || o == 0x3e || o == 0x42 || o == 0x68 || o == 0x6a ||
  o == 0x70 || o == 0x71 || (0x73 <= o && o <= 0x76)

/-- Opcode 0x00: NOP. -/
def decOpc00 (w : Nat) : Option Instr :=
  if fieldN w 0 22 = 0 then some (.nop (field w 29 3))
  else none

/-- Opcode 0x01: BR. -/
def decOpc01 (w : Nat) : Option Instr :=
  if fieldN w 16 6 = 63 then some (.br (field w 29 3) (field w 0 16))
  else none

/-- Opcode 0x02: BRV. -/
def decOpc02 (w : Nat) : Option Instr :=
  some (.brv (field w 29 3) (field w 16 6) (field w 0 16))

/-- Opcode 0x03: BRN. -/
def decOpc03 (w : Nat) : Option Instr :=
  some (.brn (field w 29 3) (field w 16 6) (field w 0 16))

/-- Opcode 0x04: CALL. -/
def decOpc04 (w : Nat) : Option Instr :=
  if fieldN w 16 6 = 63 then some (.call (field w 29 3) (field w 0 16))
  else none

/-- Opcode 0x05: BRX, CALL_THROUGH_REGISTER, RET. -/
def decOpc05 (w : Nat) : Option Instr :=
  if fieldN w 0 16 = 0 then some (.brx (field w 29 3) (field w 16 6))
  else if fieldN w 0 16 = 1 then some (.callThroughRegister (field w 29 3) (field w 16 6))
  else if fieldN w 0 16 = 2 then some (.ret (field w 29 3) (field w 16 6))
  else none

/-- Opcode 0x06: LOOP. -/
def decOpc06 (w v : Nat) : Option Instr :=
  if fieldN w 0 11 = 0 then some (.loop (field w 29 3) (field w 16 6) (field w 11 5) (field v 0 32))
  else none

/-- Opcode 0x07: EXIT. -/
def decOpc07 (w : Nat) : Option Instr :=
  if fieldN w 0 22 = 0 then some (.exit (field w 29 3))
  else none

/-- Opcode 0x08: WAIT_ALL, WAIT_TIME. -/
def decOpc08 (w : Nat) : Option Instr :=
  if fieldN w 0 22 = 0 then some (.waitAll (field w 29 3))
  else if fieldN w 0 16 = 1 then some (.waitTime (field w 29 3) (field w 16 6))
  else none

/-- Opcode 0x09: TRAP. -/
def decOpc09 (w : Nat) : Option Instr :=
  if fieldN w 11 11 = 0 then some (.trap (field w 29 3) (field w 0 11))
  else none

/-- Opcode 0x10: ADD, SUB, MUL, MULH, MULHU, DIV, DIVU, REM, REMU, AND, OR, XOR, ANDN, SHL, SHR, SRA, ROL, ROR, MIN, MAX, MINU, MAXU, CLZ, CTZ, POP, MOV. -/
def decOpc10 (w : Nat) : Option Instr :=
  if fieldN w 0 5 = 0 then some (.add (field w 29 3) (field w 16 6) (field w 10 6) (field w 5 5))
  else if fieldN w 0 5 = 1 then some (.sub (field w 29 3) (field w 16 6) (field w 10 6) (field w 5 5))
  else if fieldN w 0 5 = 2 then some (.mul (field w 29 3) (field w 16 6) (field w 10 6) (field w 5 5))
  else if fieldN w 0 5 = 3 then some (.mulh (field w 29 3) (field w 16 6) (field w 10 6) (field w 5 5))
  else if fieldN w 0 5 = 4 then some (.mulhu (field w 29 3) (field w 16 6) (field w 10 6) (field w 5 5))
  else if fieldN w 0 5 = 5 then some (.div (field w 29 3) (field w 16 6) (field w 10 6) (field w 5 5))
  else if fieldN w 0 5 = 6 then some (.divu (field w 29 3) (field w 16 6) (field w 10 6) (field w 5 5))
  else if fieldN w 0 5 = 7 then some (.rem (field w 29 3) (field w 16 6) (field w 10 6) (field w 5 5))
  else if fieldN w 0 5 = 8 then some (.remu (field w 29 3) (field w 16 6) (field w 10 6) (field w 5 5))
  else if fieldN w 0 5 = 9 then some (.and (field w 29 3) (field w 16 6) (field w 10 6) (field w 5 5))
  else if fieldN w 0 5 = 10 then some (.or (field w 29 3) (field w 16 6) (field w 10 6) (field w 5 5))
  else if fieldN w 0 5 = 11 then some (.xor (field w 29 3) (field w 16 6) (field w 10 6) (field w 5 5))
  else if fieldN w 0 5 = 12 then some (.andn (field w 29 3) (field w 16 6) (field w 10 6) (field w 5 5))
  else if fieldN w 0 5 = 13 then some (.shl (field w 29 3) (field w 16 6) (field w 10 6) (field w 5 5))
  else if fieldN w 0 5 = 14 then some (.shr (field w 29 3) (field w 16 6) (field w 10 6) (field w 5 5))
  else if fieldN w 0 5 = 15 then some (.sra (field w 29 3) (field w 16 6) (field w 10 6) (field w 5 5))
  else if fieldN w 0 5 = 16 then some (.rol (field w 29 3) (field w 16 6) (field w 10 6) (field w 5 5))
  else if fieldN w 0 5 = 17 then some (.ror (field w 29 3) (field w 16 6) (field w 10 6) (field w 5 5))
  else if fieldN w 0 5 = 18 then some (.min (field w 29 3) (field w 16 6) (field w 10 6) (field w 5 5))
  else if fieldN w 0 5 = 19 then some (.max (field w 29 3) (field w 16 6) (field w 10 6) (field w 5 5))
  else if fieldN w 0 5 = 20 then some (.minu (field w 29 3) (field w 16 6) (field w 10 6) (field w 5 5))
  else if fieldN w 0 5 = 21 then some (.maxu (field w 29 3) (field w 16 6) (field w 10 6) (field w 5 5))
  else if fieldN w 0 5 = 22 ∧ fieldN w 10 6 = 0 then some (.clz (field w 29 3) (field w 16 6) (field w 5 5))
  else if fieldN w 0 5 = 23 ∧ fieldN w 10 6 = 0 then some (.ctz (field w 29 3) (field w 16 6) (field w 5 5))
  else if fieldN w 0 5 = 24 ∧ fieldN w 10 6 = 0 then some (.pop (field w 29 3) (field w 16 6) (field w 5 5))
  else if fieldN w 0 5 = 25 ∧ fieldN w 10 6 = 0 then some (.mov (field w 29 3) (field w 16 6) (field w 5 5))
  else none

/-- Opcode 0x11: ADDI. -/
def decOpc11 (w : Nat) : Option Instr :=
  some (.addi (field w 29 3) (field w 16 6) (field w 11 5) (field w 0 11))

/-- Opcode 0x12: MULI. -/
def decOpc12 (w : Nat) : Option Instr :=
  some (.muli (field w 29 3) (field w 16 6) (field w 11 5) (field w 0 11))

/-- Opcode 0x13: ANDI. -/
def decOpc13 (w : Nat) : Option Instr :=
  some (.andi (field w 29 3) (field w 16 6) (field w 11 5) (field w 0 11))

/-- Opcode 0x14: ORI. -/
def decOpc14 (w : Nat) : Option Instr :=
  some (.ori (field w 29 3) (field w 16 6) (field w 11 5) (field w 0 11))

/-- Opcode 0x15: XORI. -/
def decOpc15 (w : Nat) : Option Instr :=
  some (.xori (field w 29 3) (field w 16 6) (field w 11 5) (field w 0 11))

/-- Opcode 0x16: SHLI. -/
def decOpc16 (w : Nat) : Option Instr :=
  if fieldN w 6 5 = 0 then some (.shli (field w 29 3) (field w 16 6) (field w 11 5) (field w 0 6))
  else none

/-- Opcode 0x17: SHRI. -/
def decOpc17 (w : Nat) : Option Instr :=
  if fieldN w 6 5 = 0 then some (.shri (field w 29 3) (field w 16 6) (field w 11 5) (field w 0 6))
  else none

/-- Opcode 0x18: SRAI. -/
def decOpc18 (w : Nat) : Option Instr :=
  if fieldN w 6 5 = 0 then some (.srai (field w 29 3) (field w 16 6) (field w 11 5) (field w 0 6))
  else none

/-- Opcode 0x19: LI. -/
def decOpc19 (w v : Nat) : Option Instr :=
  if fieldN w 16 6 = 0 ∧ fieldN w 0 11 = 0 then some (.li (field w 29 3) (field w 11 5) (field v 0 32))
  else none

/-- Opcode 0x1a: LIH. -/
def decOpc1a (w v : Nat) : Option Instr :=
  if fieldN w 0 11 = 0 then some (.lih (field w 29 3) (field w 16 6) (field w 11 5) (field v 0 32))
  else none

/-- Opcode 0x20: TEST. -/
def decOpc20 (w : Nat) : Option Instr :=
  some (.test (field w 29 3) (field w 16 6) (field w 10 6) (field w 5 5) (field w 0 5))

/-- Opcode 0x21: FILL. -/
def decOpc21 (w : Nat) : Option Instr :=
  if fieldN w 0 5 = 0 then some (.fill (field w 29 3) (field w 16 6) (field w 10 6) (field w 5 5))
  else none

/-- Opcode 0x22: KEEP. -/
def decOpc22 (w : Nat) : Option Instr :=
  if fieldN w 0 5 = 0 then some (.keep (field w 29 3) (field w 16 6) (field w 10 6) (field w 5 5))
  else none

/-- Opcode 0x23: VALID. -/
def decOpc23 (w : Nat) : Option Instr :=
  if fieldN w 0 5 = 0 ∧ fieldN w 10 6 = 0 then some (.valid (field w 29 3) (field w 16 6) (field w 5 5))
  else none

/-- Opcode 0x24: KILL. -/
def decOpc24 (w : Nat) : Option Instr :=
  if fieldN w 0 5 = 0 ∧ fieldN w 10 6 = 0 then some (.kill (field w 29 3) (field w 16 6) (field w 5 5))
  else none

/-- Opcode 0x28: FADD, FSUB, FMUL, FMIN, FMAX, FDIV, FSQRT. -/
def decOpc28 (w : Nat) : Option Instr :=
  if fieldN w 2 3 = 0 then some (.fadd (field w 29 3) (field w 16 6) (field w 10 6) (field w 5 5) (field w 0 2))
  else if fieldN w 2 3 = 1 then some (.fsub (field w 29 3) (field w 16 6) (field w 10 6) (field w 5 5) (field w 0 2))
  else if fieldN w 2 3 = 2 then some (.fmul (field w 29 3) (field w 16 6) (field w 10 6) (field w 5 5) (field w 0 2))
  else if fieldN w 0 5 = 12 then some (.fmin (field w 29 3) (field w 16 6) (field w 10 6) (field w 5 5))
  else if fieldN w 0 5 = 16 then some (.fmax (field w 29 3) (field w 16 6) (field w 10 6) (field w 5 5))
  else if fieldN w 2 3 = 5 then some (.fdiv (field w 29 3) (field w 16 6) (field w 10 6) (field w 5 5) (field w 0 2))
  else if fieldN w 2 3 = 6 ∧ fieldN w 10 6 = 0 then some (.fsqrt (field w 29 3) (field w 16 6) (field w 5 5) (field w 0 2))
  else none

/-- Opcode 0x29: FFMA. -/
def decOpc29 (w v : Nat) : Option Instr :=
  if fieldN w 0 3 = 0 ∧ fieldN v 6 26 = 0 then some (.ffma (field w 29 3) (field w 16 6) (field w 11 5) (field w 5 6) (field w 3 2) (field v 0 6))
  else none

/-- Opcode 0x2a: FABS, FNEG, FCLASS. -/
def decOpc2a (w : Nat) : Option Instr :=
  if fieldN w 0 5 = 0 ∧ fieldN w 10 6 = 0 then some (.fabs (field w 29 3) (field w 16 6) (field w 5 5))
  else if fieldN w 0 5 = 1 ∧ fieldN w 10 6 = 0 then some (.fneg (field w 29 3) (field w 16 6) (field w 5 5))
  else if fieldN w 0 5 = 2 ∧ fieldN w 10 6 = 0 then some (.fclass (field w 29 3) (field w 16 6) (field w 5 5))
  else none

/-- Opcode 0x2b: FTEST. -/
def decOpc2b (w : Nat) : Option Instr :=
  some (.ftest (field w 29 3) (field w 16 6) (field w 10 6) (field w 5 5) (field w 0 5))

/-- Opcode 0x2c: FCVT. -/
def decOpc2c (w : Nat) : Option Instr :=
  if fieldN w 2 3 = 0 then some (.fcvt (field w 29 3) (field w 16 6) (field w 13 3) (field w 10 3) (field w 5 5) (field w 0 2))
  else none

/-- Opcode 0x30: PSET. -/
def decOpc30 (w : Nat) : Option Instr :=
  if fieldN w 0 5 = 0 ∧ fieldN w 10 6 = 0 then some (.pset (field w 29 3) (field w 16 6) (field w 5 5))
  else none

/-- Opcode 0x31: PINC. -/
def decOpc31 (w : Nat) : Option Instr :=
  some (.pinc (field w 29 3) (field w 16 6) (field w 11 5) (field w 0 11))

/-- Opcode 0x32: PHND. -/
def decOpc32 (w : Nat) : Option Instr :=
  if fieldN w 0 5 = 0 then some (.phnd (field w 29 3) (field w 16 6) (field w 10 6) (field w 5 5))
  else none

/-- Opcode 0x33: PXY. -/
def decOpc33 (w : Nat) : Option Instr :=
  if fieldN w 0 5 = 0 then some (.pxy (field w 29 3) (field w 16 6) (field w 10 6) (field w 5 5))
  else none

/-- Opcode 0x34: POFF. -/
def decOpc34 (w : Nat) : Option Instr :=
  if fieldN w 0 5 = 0 then some (.poff (field w 29 3) (field w 16 6) (field w 10 6) (field w 5 5))
  else none

/-- Opcode 0x35: PGET. -/
def decOpc35 (w : Nat) : Option Instr :=
  if fieldN w 10 6 = 0 then some (.pget (field w 29 3) (field w 16 6) (field w 5 5) (field w 0 5))
  else none

/-- Opcode 0x38: LD. -/
def decOpc38 (w : Nat) : Option Instr :=
  if fieldN w 0 2 = 0 ∧ fieldN w 10 2 = 0 then some (.ld (field w 29 3) (field w 16 6) (field w 15 1) (field w 12 3) (field w 5 5) (field w 2 3))
  else none

/-- Opcode 0x39: ST. -/
def decOpc39 (w : Nat) : Option Instr :=
  if fieldN w 0 2 = 0 ∧ fieldN w 5 1 = 0 then some (.st (field w 29 3) (field w 16 6) (field w 10 6) (field w 9 1) (field w 6 3) (field w 2 3))
  else none

/-- Opcode 0x3a: LDL, LDFE, LDFE_FEC. -/
def decOpc3a (w : Nat) : Option Instr :=
  if fieldN w 10 2 = 0 then some (.ldl (field w 29 3) (field w 16 6) (field w 15 1) (field w 12 3) (field w 5 5) (field w 2 3) (field w 0 2))
  else if fieldN w 10 2 = 1 then some (.ldfe (field w 29 3) (field w 16 6) (field w 15 1) (field w 12 3) (field w 5 5) (field w 2 3) (field w 0 2))
  else if fieldN w 10 2 = 2 then some (.ldfeFec (field w 29 3) (field w 16 6) (field w 15 1) (field w 12 3) (field w 5 5) (field w 2 3) (field w 0 2))
  else none

/-- Opcode 0x3b: STL. -/
def decOpc3b (w : Nat) : Option Instr :=
  some (.stl (field w 29 3) (field w 16 6) (field w 10 6) (field w 9 1) (field w 6 3) (field w 5 1) (field w 2 3) (field w 0 2))

/-- Opcode 0x3c: LDA. -/
def decOpc3c (w : Nat) : Option Instr :=
  if fieldN w 0 2 = 0 ∧ fieldN w 10 2 = 0 then some (.lda (field w 29 3) (field w 16 6) (field w 15 1) (field w 12 3) (field w 5 5) (field w 2 3))
  else none

/-- Opcode 0x3d: CHKA. -/
def decOpc3d (w : Nat) : Option Instr :=
  if fieldN w 0 2 = 0 ∧ fieldN w 10 2 = 0 then some (.chka (field w 29 3) (field w 16 6) (field w 15 1) (field w 12 3) (field w 5 5) (field w 2 3))
  else none

/-- Opcode 0x3e: AMO, AMOCAS, AMOL. -/
def decOpc3e (w v : Nat) : Option Instr :=
  if fieldN v 6 26 = 0 ∧ fieldN w 6 5 ≠ 9 then some (.amo (field w 29 3) (field w 16 6) (field w 11 5) (field w 6 5) (field w 3 3) (field w 1 2) (field w 0 1) (field v 0 6))
  else if fieldN w 6 5 = 9 ∧ fieldN v 12 20 = 0 then some (.amocas (field w 29 3) (field w 16 6) (field w 11 5) (field w 3 3) (field w 1 2) (field w 0 1) (field v 0 6) (field v 6 6))
  else if fieldN v 12 20 = 1 then some (.amol (field w 29 3) (field w 16 6) (field w 11 5) (field w 6 5) (field w 3 3) (field w 1 2) (field w 0 1) (field v 0 6) (field v 6 6))
  else none

/-- Opcode 0x3f: FENCE, PREF. -/
def decOpc3f (w : Nat) : Option Instr :=
  if fieldN w 0 2 = 0 ∧ fieldN w 4 1 = 0 ∧ fieldN w 8 14 = 0 then some (.fence (field w 29 3) (field w 5 3) (field w 2 2))
  else if fieldN w 0 16 = 16 then some (.pref (field w 29 3) (field w 16 6))
  else none

/-- Opcode 0x40: VADD, VSUB, VMUL, VMULH, VMULHU, VAND, VOR, VXOR, VANDN, VSHL, VSHR, VSRA, VMIN, VMAX, VMINU, VMAXU, VPOP, VMOV. -/
def decOpc40 (w : Nat) : Option Instr :=
  if fieldN w 0 5 = 0 then some (.vadd (field w 29 3) (field w 16 6) (field w 10 6) (field w 5 5))
  else if fieldN w 0 5 = 1 then some (.vsub (field w 29 3) (field w 16 6) (field w 10 6) (field w 5 5))
  else if fieldN w 0 5 = 2 then some (.vmul (field w 29 3) (field w 16 6) (field w 10 6) (field w 5 5))
  else if fieldN w 0 5 = 3 then some (.vmulh (field w 29 3) (field w 16 6) (field w 10 6) (field w 5 5))
  else if fieldN w 0 5 = 4 then some (.vmulhu (field w 29 3) (field w 16 6) (field w 10 6) (field w 5 5))
  else if fieldN w 0 5 = 9 then some (.vand (field w 29 3) (field w 16 6) (field w 10 6) (field w 5 5))
  else if fieldN w 0 5 = 10 then some (.vor (field w 29 3) (field w 16 6) (field w 10 6) (field w 5 5))
  else if fieldN w 0 5 = 11 then some (.vxor (field w 29 3) (field w 16 6) (field w 10 6) (field w 5 5))
  else if fieldN w 0 5 = 12 then some (.vandn (field w 29 3) (field w 16 6) (field w 10 6) (field w 5 5))
  else if fieldN w 0 5 = 13 then some (.vshl (field w 29 3) (field w 16 6) (field w 10 6) (field w 5 5))
  else if fieldN w 0 5 = 14 then some (.vshr (field w 29 3) (field w 16 6) (field w 10 6) (field w 5 5))
  else if fieldN w 0 5 = 15 then some (.vsra (field w 29 3) (field w 16 6) (field w 10 6) (field w 5 5))
  else if fieldN w 0 5 = 18 then some (.vmin (field w 29 3) (field w 16 6) (field w 10 6) (field w 5 5))
  else if fieldN w 0 5 = 19 then some (.vmax (field w 29 3) (field w 16 6) (field w 10 6) (field w 5 5))
  else if fieldN w 0 5 = 20 then some (.vminu (field w 29 3) (field w 16 6) (field w 10 6) (field w 5 5))
  else if fieldN w 0 5 = 21 then some (.vmaxu (field w 29 3) (field w 16 6) (field w 10 6) (field w 5 5))
  else if fieldN w 0 5 = 24 ∧ fieldN w 10 6 = 0 then some (.vpop (field w 29 3) (field w 16 6) (field w 5 5))
  else if fieldN w 0 5 = 25 ∧ fieldN w 10 6 = 0 then some (.vmov (field w 29 3) (field w 16 6) (field w 5 5))
  else none

/-- Opcode 0x41: VFADD, VFSUB, VFMUL, VFMIN, VFMAX, VFABS, VFNEG. -/
def decOpc41 (w : Nat) : Option Instr :=
  if fieldN w 2 3 = 0 then some (.vfadd (field w 29 3) (field w 16 6) (field w 10 6) (field w 5 5) (field w 0 2))
  else if fieldN w 2 3 = 1 then some (.vfsub (field w 29 3) (field w 16 6) (field w 10 6) (field w 5 5) (field w 0 2))
  else if fieldN w 2 3 = 2 then some (.vfmul (field w 29 3) (field w 16 6) (field w 10 6) (field w 5 5) (field w 0 2))
  else if fieldN w 0 5 = 12 then some (.vfmin (field w 29 3) (field w 16 6) (field w 10 6) (field w 5 5))
  else if fieldN w 0 5 = 16 then some (.vfmax (field w 29 3) (field w 16 6) (field w 10 6) (field w 5 5))
  else if fieldN w 0 5 = 20 ∧ fieldN w 10 6 = 0 then some (.vfabs (field w 29 3) (field w 16 6) (field w 5 5))
  else if fieldN w 0 5 = 24 ∧ fieldN w 10 6 = 0 then some (.vfneg (field w 29 3) (field w 16 6) (field w 5 5))
  else none

/-- Opcode 0x42: VFFMA. -/
def decOpc42 (w v : Nat) : Option Instr :=
  if fieldN w 0 3 = 0 ∧ fieldN v 6 26 = 0 then some (.vffma (field w 29 3) (field w 16 6) (field w 11 5) (field w 5 6) (field w 3 2) (field v 0 6))
  else none

/-- Opcode 0x43: VTEST. -/
def decOpc43 (w : Nat) : Option Instr :=
  some (.vtest (field w 29 3) (field w 16 6) (field w 10 6) (field w 5 5) (field w 0 5))

/-- Opcode 0x44: VEXP2, VRCP. -/
def decOpc44 (w : Nat) : Option Instr :=
  if fieldN w 0 5 = 0 ∧ fieldN w 10 6 = 0 then some (.vexp2 (field w 29 3) (field w 16 6) (field w 5 5))
  else if fieldN w 0 5 = 1 ∧ fieldN w 10 6 = 0 then some (.vrcp (field w 29 3) (field w 16 6) (field w 5 5))
  else none

/-- Opcode 0x45: VRED. -/
def decOpc45 (w : Nat) : Option Instr :=
  if fieldN w 10 6 = 0 then some (.vred (field w 29 3) (field w 16 6) (field w 5 5) (field w 0 5))
  else none

/-- Opcode 0x46: VSCAN. -/
def decOpc46 (w : Nat) : Option Instr :=
  if fieldN w 10 6 = 0 then some (.vscan (field w 29 3) (field w 16 6) (field w 5 5) (field w 0 5))
  else none

/-- Opcode 0x47: VPERM. -/
def decOpc47 (w : Nat) : Option Instr :=
  if fieldN w 0 5 = 0 then some (.vperm (field w 29 3) (field w 16 6) (field w 10 6) (field w 5 5))
  else none

/-- Opcode 0x48: VCNT. -/
def decOpc48 (w : Nat) : Option Instr :=
  if fieldN w 0 5 = 0 ∧ fieldN w 10 6 = 0 then some (.vcnt (field w 29 3) (field w 16 6) (field w 5 5))
  else none

/-- Opcode 0x49: VFILL, VKEEP, VVALID, VKILL. -/
def decOpc49 (w : Nat) : Option Instr :=
  if fieldN w 0 5 = 0 then some (.vfill (field w 29 3) (field w 16 6) (field w 10 6) (field w 5 5))
  else if fieldN w 0 5 = 1 then some (.vkeep (field w 29 3) (field w 16 6) (field w 10 6) (field w 5 5))
  else if fieldN w 0 5 = 2 ∧ fieldN w 10 6 = 0 then some (.vvalid (field w 29 3) (field w 16 6) (field w 5 5))
  else if fieldN w 0 5 = 3 ∧ fieldN w 10 6 = 0 then some (.vkill (field w 29 3) (field w 16 6) (field w 5 5))
  else none

/-- Opcode 0x4a: VCVT. -/
def decOpc4a (w : Nat) : Option Instr :=
  if fieldN w 2 3 = 0 then some (.vcvt (field w 29 3) (field w 16 6) (field w 13 3) (field w 10 3) (field w 5 5) (field w 0 2))
  else none

/-- Opcode 0x4b: VPACK_16, VPACK_8, VUNPK_16, VUNPK_8. -/
def decOpc4b (w : Nat) : Option Instr :=
  if fieldN w 0 5 = 0 then some (.vpack16 (field w 29 3) (field w 16 6) (field w 10 6) (field w 5 5))
  else if fieldN w 0 5 = 1 then some (.vpack8 (field w 29 3) (field w 16 6) (field w 10 6) (field w 5 5))
  else if fieldN w 0 5 = 2 then some (.vunpk16 (field w 29 3) (field w 16 6) (field w 10 6) (field w 5 5))
  else if fieldN w 0 5 = 3 then some (.vunpk8 (field w 29 3) (field w 16 6) (field w 10 6) (field w 5 5))
  else none

/-- Opcode 0x4c: VEXT, VINS, VIDX. -/
def decOpc4c (w : Nat) : Option Instr :=
  if fieldN w 0 5 = 0 then some (.vext (field w 29 3) (field w 16 6) (field w 10 6) (field w 5 5))
  else if fieldN w 0 5 = 1 then some (.vins (field w 29 3) (field w 16 6) (field w 10 6) (field w 5 5))
  else if fieldN w 0 5 = 2 ∧ fieldN w 10 12 = 0 then some (.vidx (field w 29 3) (field w 5 5))
  else none

/-- Opcode 0x4d: VFDIV, VFSQRT. -/
def decOpc4d (w : Nat) : Option Instr :=
  if fieldN w 2 3 = 0 then some (.vfdiv (field w 29 3) (field w 16 6) (field w 10 6) (field w 5 5) (field w 0 2))
  else if fieldN w 2 3 = 1 ∧ fieldN w 10 6 = 0 then some (.vfsqrt (field w 29 3) (field w 16 6) (field w 5 5) (field w 0 2))
  else none

/-- Opcode 0x50: VLD. -/
def decOpc50 (w : Nat) : Option Instr :=
  if fieldN w 0 2 = 0 ∧ fieldN w 10 2 = 0 then some (.vld (field w 29 3) (field w 16 6) (field w 15 1) (field w 12 3) (field w 5 5) (field w 2 3))
  else none

/-- Opcode 0x51: VST. -/
def decOpc51 (w : Nat) : Option Instr :=
  if fieldN w 0 2 = 0 ∧ fieldN w 5 1 = 0 then some (.vst (field w 29 3) (field w 16 6) (field w 10 6) (field w 9 1) (field w 6 3) (field w 2 3))
  else none

/-- Opcode 0x52: VLDL. -/
def decOpc52 (w : Nat) : Option Instr :=
  some (.vldl (field w 29 3) (field w 16 6) (field w 15 1) (field w 12 3) (field w 10 2) (field w 5 5) (field w 2 3) (field w 0 2))

/-- Opcode 0x53: VSTL. -/
def decOpc53 (w : Nat) : Option Instr :=
  some (.vstl (field w 29 3) (field w 16 6) (field w 10 6) (field w 9 1) (field w 6 3) (field w 5 1) (field w 2 3) (field w 0 2))

/-- Opcode 0x54: VLDS. -/
def decOpc54 (w : Nat) : Option Instr :=
  if fieldN w 0 2 = 0 then some (.vlds (field w 29 3) (field w 16 6) (field w 10 6) (field w 5 5) (field w 2 3))
  else none

/-- Opcode 0x60: YDRAW. -/
def decOpc60 (w : Nat) : Option Instr :=
  if fieldN w 0 5 = 0 then some (.ydraw (field w 29 3) (field w 16 6) (field w 10 6) (field w 5 5))
  else none

/-- Opcode 0x61: YCMP, YCMPY. -/
def decOpc61 (w : Nat) : Option Instr :=
  if fieldN w 2 1 = 0 then some (.ycmp (field w 29 3) (field w 16 6) (field w 10 6) (field w 5 5) (field w 3 2) (field w 0 2))
  else if fieldN w 0 3 = 4 then some (.ycmpy (field w 29 3) (field w 16 6) (field w 10 6) (field w 5 5) (field w 3 2))
  else none

/-- Opcode 0x62: YCOPY. -/
def decOpc62 (w : Nat) : Option Instr :=
  if fieldN w 0 5 = 0 ∧ fieldN w 10 6 = 0 then some (.ycopy (field w 29 3) (field w 16 6) (field w 5 5))
  else none

/-- Opcode 0x63: YEXT. -/
def decOpc63 (w : Nat) : Option Instr :=
  if fieldN w 0 5 = 0 then some (.yext (field w 29 3) (field w 16 6) (field w 10 6) (field w 5 5))
  else none

/-- Opcode 0x64: YBITS. -/
def decOpc64 (w : Nat) : Option Instr :=
  if fieldN w 0 5 = 0 ∧ fieldN w 10 6 = 0 then some (.ybits (field w 29 3) (field w 16 6) (field w 5 5))
  else none

/-- Opcode 0x65: YST. -/
def decOpc65 (w : Nat) : Option Instr :=
  if fieldN w 0 6 = 28 then some (.yst (field w 29 3) (field w 16 6) (field w 10 6) (field w 9 1) (field w 6 3))
  else none

/-- Opcode 0x66: YLD. -/
def decOpc66 (w : Nat) : Option Instr :=
  if fieldN w 0 5 = 28 ∧ fieldN w 10 2 = 0 then some (.yld (field w 29 3) (field w 16 6) (field w 15 1) (field w 12 3) (field w 5 5))
  else none

/-- Opcode 0x67: YSR. -/
def decOpc67 (w : Nat) : Option Instr :=
  some (.ysr (field w 29 3) (field w 16 6) (field w 10 6) (field w 5 5) (field w 0 5))

/-- Opcode 0x68: HALLOC, HALLOC_D. -/
def decOpc68 (w v : Nat) : Option Instr :=
  if fieldN w 0 3 = 0 then some (.halloc (field w 29 3) (field w 20 2) (field w 16 4) (field w 11 5) (field w 3 8) (field v 16 16) (field v 0 16))
  else if fieldN w 0 3 = 4 ∧ fieldN v 0 32 = 0 then some (.hallocD (field w 29 3) (field w 16 6) (field w 11 5) (field w 3 8))
  else none

/-- Opcode 0x6a: HWIN. -/
def decOpc6a (w v : Nat) : Option Instr :=
  if fieldN w 0 3 = 0 then some (.hwin (field w 29 3) (field w 16 6) (field w 11 5) (field w 3 8) (field v 0 32))
  else none

/-- Opcode 0x69: HFREE, HINFO. -/
def decOpc69 (w : Nat) : Option Instr :=
  if fieldN w 0 16 = 0 then some (.hfree (field w 29 3) (field w 16 6))
  else if fieldN w 0 5 = 1 ∧ fieldN w 10 6 = 0 then some (.hinfo (field w 29 3) (field w 16 6) (field w 5 5))
  else none

/-- Opcode 0x6b: BINIT, BARV, BWAIT, BTEST, BEXP. -/
def decOpc6b (w : Nat) : Option Instr :=
  if fieldN w 0 5 = 0 then some (.binit (field w 29 3) (field w 16 6) (field w 10 6) (field w 5 5))
  else if fieldN w 0 5 = 1 ∧ fieldN w 10 6 = 0 then some (.barv (field w 29 3) (field w 16 6) (field w 5 5))
  else if fieldN w 0 5 = 2 then some (.bwait (field w 29 3) (field w 16 6) (field w 10 6) (field w 5 5))
  else if fieldN w 0 5 = 3 then some (.btest (field w 29 3) (field w 16 6) (field w 10 6) (field w 5 5))
  else if fieldN w 0 10 = 4 then some (.bexp (field w 29 3) (field w 16 6) (field w 10 6))
  else none

/-- Opcode 0x6c: GJOIN, GLEAVE, GINFO. -/
def decOpc6c (w : Nat) : Option Instr :=
  if fieldN w 0 5 = 0 then some (.gjoin (field w 29 3) (field w 16 6) (field w 10 6) (field w 5 5))
  else if fieldN w 0 16 = 1 then some (.gleave (field w 29 3) (field w 16 6))
  else if fieldN w 0 5 = 2 ∧ fieldN w 10 6 = 0 then some (.ginfo (field w 29 3) (field w 16 6) (field w 5 5))
  else none

/-- Opcode 0x6d: GAUGE, GADV. -/
def decOpc6d (w : Nat) : Option Instr :=
  if fieldN w 0 10 = 0 then some (.gauge (field w 29 3) (field w 16 6) (field w 10 6))
  else if fieldN w 0 5 = 1 ∧ fieldN w 10 6 = 0 then some (.gadv (field w 29 3) (field w 16 6) (field w 5 5))
  else none

/-- Opcode 0x70: CPY, CPYM. -/
def decOpc70 (w v : Nat) : Option Instr :=
  if fieldN w 2 2 = 0 ∧ fieldN v 31 1 = 0 ∧ fieldN v 24 4 = 0 ∧ fieldN v 0 16 = 0 then some (.cpy (field w 29 3) (field w 16 6) (field w 10 6) (field w 4 6) (field w 0 2) (field v 28 2) (field v 30 1) (field v 16 8))
  else if fieldN w 2 2 = 0 ∧ fieldN v 31 1 = 1 ∧ fieldN v 24 6 = 0 ∧ fieldN v 0 16 = 0 then some (.cpym (field w 29 3) (field w 16 6) (field w 10 6) (field w 4 6) (field w 0 2) (field v 30 1) (field v 16 8))
  else none

/-- Opcode 0x71: TLD, TST. -/
def decOpc71 (w v : Nat) : Option Instr :=
  if fieldN w 2 2 = 0 ∧ fieldN v 31 1 = 0 ∧ fieldN v 24 6 = 0 ∧ fieldN v 6 10 = 0 then some (.tld (field w 29 3) (field w 16 6) (field w 10 6) (field w 4 6) (field w 0 2) (field v 30 1) (field v 16 8) (field v 0 6))
  else if fieldN w 2 2 = 0 ∧ fieldN v 31 1 = 1 ∧ fieldN v 24 6 = 0 ∧ fieldN v 6 10 = 0 then some (.tst (field w 29 3) (field w 16 6) (field w 10 6) (field w 4 6) (field w 0 2) (field v 30 1) (field v 16 8) (field v 0 6))
  else none

/-- Opcode 0x72: XWAIT, XSTAT. -/
def decOpc72 (w : Nat) : Option Instr :=
  if fieldN w 0 5 = 0 then some (.xwait (field w 29 3) (field w 16 6) (field w 10 6) (field w 5 5))
  else if fieldN w 0 5 = 1 ∧ fieldN w 10 6 = 0 then some (.xstat (field w 29 3) (field w 16 6) (field w 5 5))
  else none

/-- Opcode 0x73: MFMT. -/
def decOpc73 (w v : Nat) : Option Instr :=
  if fieldN w 4 12 = 0 ∧ fieldN v 0 32 = 0 then some (.mfmt (field w 29 3) (field w 16 6) (field w 2 2) (field w 0 2))
  else none

/-- Opcode 0x74: MMA, MMAG. -/
def decOpc74 (w v : Nat) : Option Instr :=
  if fieldN w 0 4 = 0 ∧ fieldN v 31 1 = 0 ∧ fieldN v 24 5 = 0 ∧ fieldN v 6 10 = 0 then some (.mma (field w 29 3) (field w 16 6) (field w 10 6) (field w 4 6) (field v 29 1) (field v 30 1) (field v 16 8) (field v 0 6))
  else if fieldN w 0 4 = 0 ∧ fieldN v 31 1 = 1 ∧ fieldN v 24 5 = 0 ∧ fieldN v 12 4 = 0 then some (.mmag (field w 29 3) (field w 16 6) (field w 10 6) (field w 4 6) (field v 29 1) (field v 30 1) (field v 16 8) (field v 0 6) (field v 6 6))
  else none

/-- Opcode 0x75: MDRAIN, QNT. -/
def decOpc75 (w v : Nat) : Option Instr :=
  if fieldN w 0 4 = 0 ∧ fieldN v 31 1 = 0 ∧ fieldN v 28 2 = 0 ∧ fieldN v 24 2 = 0 ∧ fieldN v 0 16 = 0 then some (.mdrain (field w 29 3) (field w 16 6) (field w 10 6) (field w 4 6) (field v 26 2) (field v 30 1) (field v 16 8))
  else if fieldN w 0 4 = 0 ∧ fieldN v 31 1 = 1 ∧ fieldN v 28 2 = 0 ∧ fieldN v 24 2 = 0 ∧ fieldN v 0 16 = 0 then some (.qnt (field w 29 3) (field w 16 6) (field w 10 6) (field w 4 6) (field v 26 2) (field v 30 1) (field v 16 8))
  else none

/-- Opcode 0x76: MSEND. -/
def decOpc76 (w v : Nat) : Option Instr :=
  if fieldN w 11 5 = 0 ∧ fieldN w 0 8 = 0 then some (.msend (field w 29 3) (field w 16 6) (field w 8 3) (field v 0 32))
  else none

/-- Opcode 0x77: LAUNCH, DONE. -/
def decOpc77 (w : Nat) : Option Instr :=
  if fieldN w 0 10 = 0 then some (.launch (field w 29 3) (field w 16 6) (field w 10 6))
  else if fieldN w 0 10 = 1 then some (.doneI (field w 29 3) (field w 16 6) (field w 10 6))
  else none

/-- Opcode 0x78: CRD. -/
def decOpc78 (w : Nat) : Option Instr :=
  if fieldN w 21 1 = 0 then some (.crd (field w 29 3) (field w 16 5) (field w 0 16))
  else none

/-- Opcode 0x79: CWR. -/
def decOpc79 (w : Nat) : Option Instr :=
  some (.cwr (field w 29 3) (field w 16 6) (field w 0 16))

/-- Opcode 0x7a: ERET. -/
def decOpc7a (w : Nat) : Option Instr :=
  if fieldN w 0 22 = 0 then some (.eret (field w 29 3))
  else none

/-- Opcode 0x7b: INTEN, INTDIS. -/
def decOpc7b (w : Nat) : Option Instr :=
  if fieldN w 0 16 = 0 then some (.inten (field w 29 3) (field w 16 6))
  else if fieldN w 0 16 = 1 then some (.intdis (field w 29 3) (field w 16 6))
  else none

/-- Opcode 0x7c: SLEEP. -/
def decOpc7c (w : Nat) : Option Instr :=
  if fieldN w 0 22 = 0 then some (.sleep (field w 29 3))
  else none

/-- Opcode 0x7d: TLBINV_PAGE, TLBINV_CTX, TLBINV_ALL. -/
def decOpc7d (w : Nat) : Option Instr :=
  if fieldN w 0 16 = 0 then some (.tlbinvPage (field w 29 3) (field w 16 6))
  else if fieldN w 0 16 = 1 then some (.tlbinvCtx (field w 29 3) (field w 16 6))
  else if fieldN w 0 22 = 2 then some (.tlbinvAll (field w 29 3))
  else none

/-- Opcode 0x7e: HALT. -/
def decOpc7e (w : Nat) : Option Instr :=
  if fieldN w 0 22 = 0 then some (.halt (field w 29 3))
  else none

/-- The instruction of an assigned opcode, or none where a selector is reserved or an unused field is nonzero. -/
def decFields (o w v : Nat) : Option Instr :=
  match o with
  | 0x00 => decOpc00 w
  | 0x01 => decOpc01 w
  | 0x02 => decOpc02 w
  | 0x03 => decOpc03 w
  | 0x04 => decOpc04 w
  | 0x05 => decOpc05 w
  | 0x06 => decOpc06 w v
  | 0x07 => decOpc07 w
  | 0x08 => decOpc08 w
  | 0x09 => decOpc09 w
  | 0x10 => decOpc10 w
  | 0x11 => decOpc11 w
  | 0x12 => decOpc12 w
  | 0x13 => decOpc13 w
  | 0x14 => decOpc14 w
  | 0x15 => decOpc15 w
  | 0x16 => decOpc16 w
  | 0x17 => decOpc17 w
  | 0x18 => decOpc18 w
  | 0x19 => decOpc19 w v
  | 0x1a => decOpc1a w v
  | 0x20 => decOpc20 w
  | 0x21 => decOpc21 w
  | 0x22 => decOpc22 w
  | 0x23 => decOpc23 w
  | 0x24 => decOpc24 w
  | 0x28 => decOpc28 w
  | 0x29 => decOpc29 w v
  | 0x2a => decOpc2a w
  | 0x2b => decOpc2b w
  | 0x2c => decOpc2c w
  | 0x30 => decOpc30 w
  | 0x31 => decOpc31 w
  | 0x32 => decOpc32 w
  | 0x33 => decOpc33 w
  | 0x34 => decOpc34 w
  | 0x35 => decOpc35 w
  | 0x38 => decOpc38 w
  | 0x39 => decOpc39 w
  | 0x3a => decOpc3a w
  | 0x3b => decOpc3b w
  | 0x3c => decOpc3c w
  | 0x3d => decOpc3d w
  | 0x3e => decOpc3e w v
  | 0x3f => decOpc3f w
  | 0x40 => decOpc40 w
  | 0x41 => decOpc41 w
  | 0x42 => decOpc42 w v
  | 0x43 => decOpc43 w
  | 0x44 => decOpc44 w
  | 0x45 => decOpc45 w
  | 0x46 => decOpc46 w
  | 0x47 => decOpc47 w
  | 0x48 => decOpc48 w
  | 0x49 => decOpc49 w
  | 0x4a => decOpc4a w
  | 0x4b => decOpc4b w
  | 0x4c => decOpc4c w
  | 0x4d => decOpc4d w
  | 0x50 => decOpc50 w
  | 0x51 => decOpc51 w
  | 0x52 => decOpc52 w
  | 0x53 => decOpc53 w
  | 0x54 => decOpc54 w
  | 0x60 => decOpc60 w
  | 0x61 => decOpc61 w
  | 0x62 => decOpc62 w
  | 0x63 => decOpc63 w
  | 0x64 => decOpc64 w
  | 0x65 => decOpc65 w
  | 0x66 => decOpc66 w
  | 0x67 => decOpc67 w
  | 0x68 => decOpc68 w v
  | 0x6a => decOpc6a w v
  | 0x69 => decOpc69 w
  | 0x6b => decOpc6b w
  | 0x6c => decOpc6c w
  | 0x6d => decOpc6d w
  | 0x70 => decOpc70 w v
  | 0x71 => decOpc71 w v
  | 0x72 => decOpc72 w
  | 0x73 => decOpc73 w v
  | 0x74 => decOpc74 w v
  | 0x75 => decOpc75 w v
  | 0x76 => decOpc76 w v
  | 0x77 => decOpc77 w
  | 0x78 => decOpc78 w
  | 0x79 => decOpc79 w
  | 0x7a => decOpc7a w
  | 0x7b => decOpc7b w
  | 0x7c => decOpc7c w
  | 0x7d => decOpc7d w
  | 0x7e => decOpc7e w
  | _ => none

/-- Decoding of a first word `w` and of the word after it, if the block has one. -/
def decodeWords (w : Nat) (next : Option Nat) : Decoded :=
  let o := fieldN w 22 7
  if opcUnassigned o then .unassigned o
  else if opcTwoWords o then
    match next with
    | none => .straddle o
    | some v => match decFields o w v with
      | some i => .instr i 2
      | none => .reserved o
  else match decFields o w 0 with
    | some i => .instr i 1
    | none => .reserved o

/-- A little-endian number of some bytes (03 R44). -/
def leNat : List Byte → Nat
  | [] => 0
  | b :: bs => b.toNat + 256 * leNat bs

/-- The n little-endian bytes of a number (03 R44). -/
def natBytes : Nat → Nat → List Byte
  | 0, _ => []
  | n + 1, x => BitVec.ofNat 8 x :: natBytes n (x / 256)

/-- Decoding of the bytes at an instruction: total; fewer than four bytes hold no word and are refused as a
straddling word of opcode 0. -/
def decodeBytes (bs : List Byte) : Decoded :=
  match bs.take 4 with
  | [b0, b1, b2, b3] =>
    match (bs.drop 4).take 4 with
    | [c0, c1, c2, c3] => decodeWords (leNat [b0, b1, b2, b3]) (some (leNat [c0, c1, c2, c3]))
    | _ => decodeWords (leNat [b0, b1, b2, b3]) none
  | _ => .straddle 0

/-- The host's view of the decoder: the instruction whose bits are `w`, the first word in the low 32 bits, of which
the opcode table gives `nbits`; each word is laid out little-endian, the first at the lowest address. -/
def decodeTableWord (nbits w : Nat) : Option Instr :=
  let x := w % 2 ^ nbits
  match decodeBytes (natBytes 8 x) with
  | .instr i _ => if nbits = 0 then none else some i
  | _ => none

/-- The word whose pieces stand at the given bit positions. -/
def asm : List (Nat × Nat) → Nat
  | [] => 0
  | (lo, v) :: r => v * 2 ^ lo + asm r

/-- The words of an instruction, written from the encoding tables (03 R49, R50, R60-R66; the reference chapters). An
event has no encoding. -/
def encode : Instr → List Nat
  | .nop st => [asm [(29, st.toNat)]]
  | .br st o => [asm [(29, st.toNat), (22, 0x1), (16, 0x3f), (0, o.toNat)]]
  | .brv st c o => [asm [(29, st.toNat), (22, 0x2), (16, c.toNat), (0, o.toNat)]]
  | .brn st c o => [asm [(29, st.toNat), (22, 0x3), (16, c.toNat), (0, o.toNat)]]
  | .call st o => [asm [(29, st.toNat), (22, 0x4), (16, 0x3f), (0, o.toNat)]]
  | .brx st a => [asm [(29, st.toNat), (22, 0x5), (16, a.toNat)]]
  | .callThroughRegister st a => [asm [(29, st.toNat), (22, 0x5), (16, a.toNat), (0, 0x1)]]
  | .ret st a => [asm [(29, st.toNat), (22, 0x5), (16, a.toNat), (0, 0x2)]]
  | .loop st a d imm => [asm [(29, st.toNat), (22, 0x6), (16, a.toNat), (11, d.toNat)], asm [(0, imm.toNat)]]
  | .exit st => [asm [(29, st.toNat), (22, 0x7)]]
  | .waitAll st => [asm [(29, st.toNat), (22, 0x8)]]
  | .waitTime st a => [asm [(29, st.toNat), (22, 0x8), (16, a.toNat), (0, 0x1)]]
  | .trap st i => [asm [(29, st.toNat), (22, 0x9), (0, i.toNat)]]
  | .add st a b d => [asm [(29, st.toNat), (22, 0x10), (16, a.toNat), (10, b.toNat), (5, d.toNat)]]
  | .sub st a b d => [asm [(29, st.toNat), (22, 0x10), (16, a.toNat), (10, b.toNat), (5, d.toNat), (0, 0x1)]]
  | .mul st a b d => [asm [(29, st.toNat), (22, 0x10), (16, a.toNat), (10, b.toNat), (5, d.toNat), (0, 0x2)]]
  | .mulh st a b d => [asm [(29, st.toNat), (22, 0x10), (16, a.toNat), (10, b.toNat), (5, d.toNat), (0, 0x3)]]
  | .mulhu st a b d => [asm [(29, st.toNat), (22, 0x10), (16, a.toNat), (10, b.toNat), (5, d.toNat), (0, 0x4)]]
  | .div st a b d => [asm [(29, st.toNat), (22, 0x10), (16, a.toNat), (10, b.toNat), (5, d.toNat), (0, 0x5)]]
  | .divu st a b d => [asm [(29, st.toNat), (22, 0x10), (16, a.toNat), (10, b.toNat), (5, d.toNat), (0, 0x6)]]
  | .rem st a b d => [asm [(29, st.toNat), (22, 0x10), (16, a.toNat), (10, b.toNat), (5, d.toNat), (0, 0x7)]]
  | .remu st a b d => [asm [(29, st.toNat), (22, 0x10), (16, a.toNat), (10, b.toNat), (5, d.toNat), (0, 0x8)]]
  | .and st a b d => [asm [(29, st.toNat), (22, 0x10), (16, a.toNat), (10, b.toNat), (5, d.toNat), (0, 0x9)]]
  | .or st a b d => [asm [(29, st.toNat), (22, 0x10), (16, a.toNat), (10, b.toNat), (5, d.toNat), (0, 0xa)]]
  | .xor st a b d => [asm [(29, st.toNat), (22, 0x10), (16, a.toNat), (10, b.toNat), (5, d.toNat), (0, 0xb)]]
  | .andn st a b d => [asm [(29, st.toNat), (22, 0x10), (16, a.toNat), (10, b.toNat), (5, d.toNat), (0, 0xc)]]
  | .shl st a b d => [asm [(29, st.toNat), (22, 0x10), (16, a.toNat), (10, b.toNat), (5, d.toNat), (0, 0xd)]]
  | .shr st a b d => [asm [(29, st.toNat), (22, 0x10), (16, a.toNat), (10, b.toNat), (5, d.toNat), (0, 0xe)]]
  | .sra st a b d => [asm [(29, st.toNat), (22, 0x10), (16, a.toNat), (10, b.toNat), (5, d.toNat), (0, 0xf)]]
  | .rol st a b d => [asm [(29, st.toNat), (22, 0x10), (16, a.toNat), (10, b.toNat), (5, d.toNat), (0, 0x10)]]
  | .ror st a b d => [asm [(29, st.toNat), (22, 0x10), (16, a.toNat), (10, b.toNat), (5, d.toNat), (0, 0x11)]]
  | .min st a b d => [asm [(29, st.toNat), (22, 0x10), (16, a.toNat), (10, b.toNat), (5, d.toNat), (0, 0x12)]]
  | .max st a b d => [asm [(29, st.toNat), (22, 0x10), (16, a.toNat), (10, b.toNat), (5, d.toNat), (0, 0x13)]]
  | .minu st a b d => [asm [(29, st.toNat), (22, 0x10), (16, a.toNat), (10, b.toNat), (5, d.toNat), (0, 0x14)]]
  | .maxu st a b d => [asm [(29, st.toNat), (22, 0x10), (16, a.toNat), (10, b.toNat), (5, d.toNat), (0, 0x15)]]
  | .clz st a d => [asm [(29, st.toNat), (22, 0x10), (16, a.toNat), (5, d.toNat), (0, 0x16)]]
  | .ctz st a d => [asm [(29, st.toNat), (22, 0x10), (16, a.toNat), (5, d.toNat), (0, 0x17)]]
  | .pop st a d => [asm [(29, st.toNat), (22, 0x10), (16, a.toNat), (5, d.toNat), (0, 0x18)]]
  | .mov st a d => [asm [(29, st.toNat), (22, 0x10), (16, a.toNat), (5, d.toNat), (0, 0x19)]]
  | .addi st a d i => [asm [(29, st.toNat), (22, 0x11), (16, a.toNat), (11, d.toNat), (0, i.toNat)]]
  | .muli st a d i => [asm [(29, st.toNat), (22, 0x12), (16, a.toNat), (11, d.toNat), (0, i.toNat)]]
  | .andi st a d i => [asm [(29, st.toNat), (22, 0x13), (16, a.toNat), (11, d.toNat), (0, i.toNat)]]
  | .ori st a d i => [asm [(29, st.toNat), (22, 0x14), (16, a.toNat), (11, d.toNat), (0, i.toNat)]]
  | .xori st a d i => [asm [(29, st.toNat), (22, 0x15), (16, a.toNat), (11, d.toNat), (0, i.toNat)]]
  | .shli st a d i => [asm [(29, st.toNat), (22, 0x16), (16, a.toNat), (11, d.toNat), (0, i.toNat)]]
  | .shri st a d i => [asm [(29, st.toNat), (22, 0x17), (16, a.toNat), (11, d.toNat), (0, i.toNat)]]
  | .srai st a d i => [asm [(29, st.toNat), (22, 0x18), (16, a.toNat), (11, d.toNat), (0, i.toNat)]]
  | .li st d imm => [asm [(29, st.toNat), (22, 0x19), (11, d.toNat)], asm [(0, imm.toNat)]]
  | .lih st a d imm => [asm [(29, st.toNat), (22, 0x1a), (16, a.toNat), (11, d.toNat)], asm [(0, imm.toNat)]]
  | .test st a b d f => [asm [(29, st.toNat), (22, 0x20), (16, a.toNat), (10, b.toNat), (5, d.toNat), (0, f.toNat)]]
  | .fill st a b d => [asm [(29, st.toNat), (22, 0x21), (16, a.toNat), (10, b.toNat), (5, d.toNat)]]
  | .keep st a b d => [asm [(29, st.toNat), (22, 0x22), (16, a.toNat), (10, b.toNat), (5, d.toNat)]]
  | .valid st a d => [asm [(29, st.toNat), (22, 0x23), (16, a.toNat), (5, d.toNat)]]
  | .kill st a d => [asm [(29, st.toNat), (22, 0x24), (16, a.toNat), (5, d.toNat)]]
  | .fadd st a b d r => [asm [(29, st.toNat), (22, 0x28), (16, a.toNat), (10, b.toNat), (5, d.toNat), (0, r.toNat)]]
  | .fsub st a b d r => [asm [(29, st.toNat), (22, 0x28), (16, a.toNat), (10, b.toNat), (5, d.toNat), (2, 0x1), (0, r.toNat)]]
  | .fmul st a b d r => [asm [(29, st.toNat), (22, 0x28), (16, a.toNat), (10, b.toNat), (5, d.toNat), (2, 0x2), (0, r.toNat)]]
  | .fmin st a b d => [asm [(29, st.toNat), (22, 0x28), (16, a.toNat), (10, b.toNat), (5, d.toNat), (0, 0xc)]]
  | .fmax st a b d => [asm [(29, st.toNat), (22, 0x28), (16, a.toNat), (10, b.toNat), (5, d.toNat), (0, 0x10)]]
  | .fdiv st a b d r => [asm [(29, st.toNat), (22, 0x28), (16, a.toNat), (10, b.toNat), (5, d.toNat), (2, 0x5), (0, r.toNat)]]
  | .fsqrt st a d r => [asm [(29, st.toNat), (22, 0x28), (16, a.toNat), (5, d.toNat), (2, 0x6), (0, r.toNat)]]
  | .ffma st a d b r c => [asm [(29, st.toNat), (22, 0x29), (16, a.toNat), (11, d.toNat), (5, b.toNat), (3, r.toNat)], asm [(0, c.toNat)]]
  | .fabs st a d => [asm [(29, st.toNat), (22, 0x2a), (16, a.toNat), (5, d.toNat)]]
  | .fneg st a d => [asm [(29, st.toNat), (22, 0x2a), (16, a.toNat), (5, d.toNat), (0, 0x1)]]
  | .fclass st a d => [asm [(29, st.toNat), (22, 0x2a), (16, a.toNat), (5, d.toNat), (0, 0x2)]]
  | .ftest st a b d f => [asm [(29, st.toNat), (22, 0x2b), (16, a.toNat), (10, b.toNat), (5, d.toNat), (0, f.toNat)]]
  | .fcvt st a x y d r => [asm [(29, st.toNat), (22, 0x2c), (16, a.toNat), (13, x.toNat), (10, y.toNat), (5, d.toNat), (0, r.toNat)]]
  | .pset st a d => [asm [(29, st.toNat), (22, 0x30), (16, a.toNat), (5, d.toNat)]]
  | .pinc st a d i => [asm [(29, st.toNat), (22, 0x31), (16, a.toNat), (11, d.toNat), (0, i.toNat)]]
  | .phnd st a b d => [asm [(29, st.toNat), (22, 0x32), (16, a.toNat), (10, b.toNat), (5, d.toNat)]]
  | .pxy st a b d => [asm [(29, st.toNat), (22, 0x33), (16, a.toNat), (10, b.toNat), (5, d.toNat)]]
  | .poff st a b d => [asm [(29, st.toNat), (22, 0x34), (16, a.toNat), (10, b.toNat), (5, d.toNat)]]
  | .pget st a d f => [asm [(29, st.toNat), (22, 0x35), (16, a.toNat), (5, d.toNat), (0, f.toNat)]]
  | .ld st b c p d w => [asm [(29, st.toNat), (22, 0x38), (16, b.toNat), (15, c.toNat), (12, p.toNat), (5, d.toNat), (2, w.toNat)]]
  | .st st b x r p w => [asm [(29, st.toNat), (22, 0x39), (16, b.toNat), (10, x.toNat), (9, r.toNat), (6, p.toNat), (2, w.toNat)]]
  | .ldl st b c p d w q => [asm [(29, st.toNat), (22, 0x3a), (16, b.toNat), (15, c.toNat), (12, p.toNat), (5, d.toNat), (2, w.toNat), (0, q.toNat)]]
  | .ldfe st b c p d w q => [asm [(29, st.toNat), (22, 0x3a), (16, b.toNat), (15, c.toNat), (12, p.toNat), (10, 0x1), (5, d.toNat), (2, w.toNat), (0, q.toNat)]]
  | .ldfeFec st b c p d w q => [asm [(29, st.toNat), (22, 0x3a), (16, b.toNat), (15, c.toNat), (12, p.toNat), (10, 0x2), (5, d.toNat), (2, w.toNat), (0, q.toNat)]]
  | .stl st b x r p e w q => [asm [(29, st.toNat), (22, 0x3b), (16, b.toNat), (10, x.toNat), (9, r.toNat), (6, p.toNat), (5, e.toNat), (2, w.toNat), (0, q.toNat)]]
  | .lda st b c p d w => [asm [(29, st.toNat), (22, 0x3c), (16, b.toNat), (15, c.toNat), (12, p.toNat), (5, d.toNat), (2, w.toNat)]]
  | .chka st b c p d w => [asm [(29, st.toNat), (22, 0x3d), (16, b.toNat), (15, c.toNat), (12, p.toNat), (5, d.toNat), (2, w.toNat)]]
  | .amo st a d op p o w x => [asm [(29, st.toNat), (22, 0x3e), (16, a.toNat), (11, d.toNat), (6, op.toNat), (3, p.toNat), (1, o.toNat), (0, w.toNat)], asm [(0, x.toNat)]]
  | .amocas st a d p o w x y => [asm [(29, st.toNat), (22, 0x3e), (16, a.toNat), (11, d.toNat), (6, 0x9), (3, p.toNat), (1, o.toNat), (0, w.toNat)], asm [(6, y.toNat), (0, x.toNat)]]
  | .amol st a d op p o w x y => [asm [(29, st.toNat), (22, 0x3e), (16, a.toNat), (11, d.toNat), (6, op.toNat), (3, p.toNat), (1, o.toNat), (0, w.toNat)], asm [(12, 0x1), (6, y.toNat), (0, x.toNat)]]
  | .fence st p k => [asm [(29, st.toNat), (22, 0x3f), (5, p.toNat), (2, k.toNat)]]
  | .pref st a => [asm [(29, st.toNat), (22, 0x3f), (16, a.toNat), (0, 0x10)]]
  | .vadd st a b d => [asm [(29, st.toNat), (22, 0x40), (16, a.toNat), (10, b.toNat), (5, d.toNat)]]
  | .vsub st a b d => [asm [(29, st.toNat), (22, 0x40), (16, a.toNat), (10, b.toNat), (5, d.toNat), (0, 0x1)]]
  | .vmul st a b d => [asm [(29, st.toNat), (22, 0x40), (16, a.toNat), (10, b.toNat), (5, d.toNat), (0, 0x2)]]
  | .vmulh st a b d => [asm [(29, st.toNat), (22, 0x40), (16, a.toNat), (10, b.toNat), (5, d.toNat), (0, 0x3)]]
  | .vmulhu st a b d => [asm [(29, st.toNat), (22, 0x40), (16, a.toNat), (10, b.toNat), (5, d.toNat), (0, 0x4)]]
  | .vand st a b d => [asm [(29, st.toNat), (22, 0x40), (16, a.toNat), (10, b.toNat), (5, d.toNat), (0, 0x9)]]
  | .vor st a b d => [asm [(29, st.toNat), (22, 0x40), (16, a.toNat), (10, b.toNat), (5, d.toNat), (0, 0xa)]]
  | .vxor st a b d => [asm [(29, st.toNat), (22, 0x40), (16, a.toNat), (10, b.toNat), (5, d.toNat), (0, 0xb)]]
  | .vandn st a b d => [asm [(29, st.toNat), (22, 0x40), (16, a.toNat), (10, b.toNat), (5, d.toNat), (0, 0xc)]]
  | .vshl st a b d => [asm [(29, st.toNat), (22, 0x40), (16, a.toNat), (10, b.toNat), (5, d.toNat), (0, 0xd)]]
  | .vshr st a b d => [asm [(29, st.toNat), (22, 0x40), (16, a.toNat), (10, b.toNat), (5, d.toNat), (0, 0xe)]]
  | .vsra st a b d => [asm [(29, st.toNat), (22, 0x40), (16, a.toNat), (10, b.toNat), (5, d.toNat), (0, 0xf)]]
  | .vmin st a b d => [asm [(29, st.toNat), (22, 0x40), (16, a.toNat), (10, b.toNat), (5, d.toNat), (0, 0x12)]]
  | .vmax st a b d => [asm [(29, st.toNat), (22, 0x40), (16, a.toNat), (10, b.toNat), (5, d.toNat), (0, 0x13)]]
  | .vminu st a b d => [asm [(29, st.toNat), (22, 0x40), (16, a.toNat), (10, b.toNat), (5, d.toNat), (0, 0x14)]]
  | .vmaxu st a b d => [asm [(29, st.toNat), (22, 0x40), (16, a.toNat), (10, b.toNat), (5, d.toNat), (0, 0x15)]]
  | .vpop st a d => [asm [(29, st.toNat), (22, 0x40), (16, a.toNat), (5, d.toNat), (0, 0x18)]]
  | .vmov st a d => [asm [(29, st.toNat), (22, 0x40), (16, a.toNat), (5, d.toNat), (0, 0x19)]]
  | .vfadd st a b d r => [asm [(29, st.toNat), (22, 0x41), (16, a.toNat), (10, b.toNat), (5, d.toNat), (0, r.toNat)]]
  | .vfsub st a b d r => [asm [(29, st.toNat), (22, 0x41), (16, a.toNat), (10, b.toNat), (5, d.toNat), (2, 0x1), (0, r.toNat)]]
  | .vfmul st a b d r => [asm [(29, st.toNat), (22, 0x41), (16, a.toNat), (10, b.toNat), (5, d.toNat), (2, 0x2), (0, r.toNat)]]
  | .vfmin st a b d => [asm [(29, st.toNat), (22, 0x41), (16, a.toNat), (10, b.toNat), (5, d.toNat), (0, 0xc)]]
  | .vfmax st a b d => [asm [(29, st.toNat), (22, 0x41), (16, a.toNat), (10, b.toNat), (5, d.toNat), (0, 0x10)]]
  | .vfabs st a d => [asm [(29, st.toNat), (22, 0x41), (16, a.toNat), (5, d.toNat), (0, 0x14)]]
  | .vfneg st a d => [asm [(29, st.toNat), (22, 0x41), (16, a.toNat), (5, d.toNat), (0, 0x18)]]
  | .vffma st a d b r c => [asm [(29, st.toNat), (22, 0x42), (16, a.toNat), (11, d.toNat), (5, b.toNat), (3, r.toNat)], asm [(0, c.toNat)]]
  | .vtest st a b d f => [asm [(29, st.toNat), (22, 0x43), (16, a.toNat), (10, b.toNat), (5, d.toNat), (0, f.toNat)]]
  | .vexp2 st a d => [asm [(29, st.toNat), (22, 0x44), (16, a.toNat), (5, d.toNat)]]
  | .vrcp st a d => [asm [(29, st.toNat), (22, 0x44), (16, a.toNat), (5, d.toNat), (0, 0x1)]]
  | .vred st a d f => [asm [(29, st.toNat), (22, 0x45), (16, a.toNat), (5, d.toNat), (0, f.toNat)]]
  | .vscan st a d f => [asm [(29, st.toNat), (22, 0x46), (16, a.toNat), (5, d.toNat), (0, f.toNat)]]
  | .vperm st a b d => [asm [(29, st.toNat), (22, 0x47), (16, a.toNat), (10, b.toNat), (5, d.toNat)]]
  | .vcnt st a d => [asm [(29, st.toNat), (22, 0x48), (16, a.toNat), (5, d.toNat)]]
  | .vfill st a b d => [asm [(29, st.toNat), (22, 0x49), (16, a.toNat), (10, b.toNat), (5, d.toNat)]]
  | .vkeep st a b d => [asm [(29, st.toNat), (22, 0x49), (16, a.toNat), (10, b.toNat), (5, d.toNat), (0, 0x1)]]
  | .vvalid st a d => [asm [(29, st.toNat), (22, 0x49), (16, a.toNat), (5, d.toNat), (0, 0x2)]]
  | .vkill st a d => [asm [(29, st.toNat), (22, 0x49), (16, a.toNat), (5, d.toNat), (0, 0x3)]]
  | .vcvt st a x y d r => [asm [(29, st.toNat), (22, 0x4a), (16, a.toNat), (13, x.toNat), (10, y.toNat), (5, d.toNat), (0, r.toNat)]]
  | .vpack16 st a b d => [asm [(29, st.toNat), (22, 0x4b), (16, a.toNat), (10, b.toNat), (5, d.toNat)]]
  | .vpack8 st a b d => [asm [(29, st.toNat), (22, 0x4b), (16, a.toNat), (10, b.toNat), (5, d.toNat), (0, 0x1)]]
  | .vunpk16 st a b d => [asm [(29, st.toNat), (22, 0x4b), (16, a.toNat), (10, b.toNat), (5, d.toNat), (0, 0x2)]]
  | .vunpk8 st a b d => [asm [(29, st.toNat), (22, 0x4b), (16, a.toNat), (10, b.toNat), (5, d.toNat), (0, 0x3)]]
  | .vext st a b d => [asm [(29, st.toNat), (22, 0x4c), (16, a.toNat), (10, b.toNat), (5, d.toNat)]]
  | .vins st a b d => [asm [(29, st.toNat), (22, 0x4c), (16, a.toNat), (10, b.toNat), (5, d.toNat), (0, 0x1)]]
  | .vidx st d => [asm [(29, st.toNat), (22, 0x4c), (5, d.toNat), (0, 0x2)]]
  | .vfdiv st a b d r => [asm [(29, st.toNat), (22, 0x4d), (16, a.toNat), (10, b.toNat), (5, d.toNat), (0, r.toNat)]]
  | .vfsqrt st a d r => [asm [(29, st.toNat), (22, 0x4d), (16, a.toNat), (5, d.toNat), (2, 0x1), (0, r.toNat)]]
  | .vld st b c p d w => [asm [(29, st.toNat), (22, 0x50), (16, b.toNat), (15, c.toNat), (12, p.toNat), (5, d.toNat), (2, w.toNat)]]
  | .vst st b x r p w => [asm [(29, st.toNat), (22, 0x51), (16, b.toNat), (10, x.toNat), (9, r.toNat), (6, p.toNat), (2, w.toNat)]]
  | .vldl st b c p e d w q => [asm [(29, st.toNat), (22, 0x52), (16, b.toNat), (15, c.toNat), (12, p.toNat), (10, e.toNat), (5, d.toNat), (2, w.toNat), (0, q.toNat)]]
  | .vstl st b x r p e w q => [asm [(29, st.toNat), (22, 0x53), (16, b.toNat), (10, x.toNat), (9, r.toNat), (6, p.toNat), (5, e.toNat), (2, w.toNat), (0, q.toNat)]]
  | .vlds st b x d w => [asm [(29, st.toNat), (22, 0x54), (16, b.toNat), (10, x.toNat), (5, d.toNat), (2, w.toNat)]]
  | .ydraw st a b d => [asm [(29, st.toNat), (22, 0x60), (16, a.toNat), (10, b.toNat), (5, d.toNat)]]
  | .ycmp st a b d c k => [asm [(29, st.toNat), (22, 0x61), (16, a.toNat), (10, b.toNat), (5, d.toNat), (3, c.toNat), (0, k.toNat)]]
  | .ycmpy st a b d c => [asm [(29, st.toNat), (22, 0x61), (16, a.toNat), (10, b.toNat), (5, d.toNat), (3, c.toNat), (0, 0x4)]]
  | .ycopy st a d => [asm [(29, st.toNat), (22, 0x62), (16, a.toNat), (5, d.toNat)]]
  | .yext st a b d => [asm [(29, st.toNat), (22, 0x63), (16, a.toNat), (10, b.toNat), (5, d.toNat)]]
  | .ybits st a d => [asm [(29, st.toNat), (22, 0x64), (16, a.toNat), (5, d.toNat)]]
  | .yst st b x r p => [asm [(29, st.toNat), (22, 0x65), (16, b.toNat), (10, x.toNat), (9, r.toNat), (6, p.toNat), (0, 0x1c)]]
  | .yld st b c p d => [asm [(29, st.toNat), (22, 0x66), (16, b.toNat), (15, c.toNat), (12, p.toNat), (5, d.toNat), (0, 0x1c)]]
  | .ysr st a b d f => [asm [(29, st.toNat), (22, 0x67), (16, a.toNat), (10, b.toNat), (5, d.toNat), (0, f.toNat)]]
  | .halloc st lv ft d h rows cols => [asm [(29, st.toNat), (22, 0x68), (20, lv.toNat), (16, ft.toNat), (11, d.toNat), (3, h.toNat)], asm [(16, rows.toNat), (0, cols.toNat)]]
  | .hallocD st a d h => [asm [(29, st.toNat), (22, 0x68), (16, a.toNat), (11, d.toNat), (3, h.toNat), (0, 0x4)], asm []]
  | .hwin st a d h len => [asm [(29, st.toNat), (22, 0x6a), (16, a.toNat), (11, d.toNat), (3, h.toNat)], asm [(0, len.toNat)]]
  | .hfree st a => [asm [(29, st.toNat), (22, 0x69), (16, a.toNat)]]
  | .hinfo st a d => [asm [(29, st.toNat), (22, 0x69), (16, a.toNat), (5, d.toNat), (0, 0x1)]]
  | .binit st a b d => [asm [(29, st.toNat), (22, 0x6b), (16, a.toNat), (10, b.toNat), (5, d.toNat)]]
  | .barv st a d => [asm [(29, st.toNat), (22, 0x6b), (16, a.toNat), (5, d.toNat), (0, 0x1)]]
  | .bwait st a b d => [asm [(29, st.toNat), (22, 0x6b), (16, a.toNat), (10, b.toNat), (5, d.toNat), (0, 0x2)]]
  | .btest st a b d => [asm [(29, st.toNat), (22, 0x6b), (16, a.toNat), (10, b.toNat), (5, d.toNat), (0, 0x3)]]
  | .bexp st a b => [asm [(29, st.toNat), (22, 0x6b), (16, a.toNat), (10, b.toNat), (0, 0x4)]]
  | .gjoin st a b d => [asm [(29, st.toNat), (22, 0x6c), (16, a.toNat), (10, b.toNat), (5, d.toNat)]]
  | .gleave st a => [asm [(29, st.toNat), (22, 0x6c), (16, a.toNat), (0, 0x1)]]
  | .ginfo st a d => [asm [(29, st.toNat), (22, 0x6c), (16, a.toNat), (5, d.toNat), (0, 0x2)]]
  | .gauge st a b => [asm [(29, st.toNat), (22, 0x6d), (16, a.toNat), (10, b.toNat)]]
  | .gadv st a d => [asm [(29, st.toNat), (22, 0x6d), (16, a.toNat), (5, d.toNat), (0, 0x1)]]
  | .cpy st h1 h2 n ch dir post bar => [asm [(29, st.toNat), (22, 0x70), (16, h1.toNat), (10, h2.toNat), (4, n.toNat), (0, ch.toNat)], asm [(30, post.toNat), (28, dir.toNat), (16, bar.toNat)]]
  | .cpym st h1 h2 n ch post bar => [asm [(29, st.toNat), (22, 0x70), (16, h1.toNat), (10, h2.toNat), (4, n.toNat), (0, ch.toNat)], asm [(31, 0x1), (30, post.toNat), (16, bar.toNat)]]
  | .tld st h1 h2 n ch post bar x => [asm [(29, st.toNat), (22, 0x71), (16, h1.toNat), (10, h2.toNat), (4, n.toNat), (0, ch.toNat)], asm [(30, post.toNat), (16, bar.toNat), (0, x.toNat)]]
  | .tst st h1 h2 n ch post bar x => [asm [(29, st.toNat), (22, 0x71), (16, h1.toNat), (10, h2.toNat), (4, n.toNat), (0, ch.toNat)], asm [(31, 0x1), (30, post.toNat), (16, bar.toNat), (0, x.toNat)]]
  | .xwait st a b d => [asm [(29, st.toNat), (22, 0x72), (16, a.toNat), (10, b.toNat), (5, d.toNat)]]
  | .xstat st a d => [asm [(29, st.toNat), (22, 0x72), (16, a.toNat), (5, d.toNat), (0, 0x1)]]
  | .mfmt st a af bf => [asm [(29, st.toNat), (22, 0x73), (16, a.toNat), (2, af.toNat), (0, bf.toNat)], asm []]
  | .mma st h1 h2 n zero post bar acc => [asm [(29, st.toNat), (22, 0x74), (16, h1.toNat), (10, h2.toNat), (4, n.toNat)], asm [(30, post.toNat), (29, zero.toNat), (16, bar.toNat), (0, acc.toNat)]]
  | .mmag st h1 h2 n zero post bar acc ix => [asm [(29, st.toNat), (22, 0x74), (16, h1.toNat), (10, h2.toNat), (4, n.toNat)], asm [(31, 0x1), (30, post.toNat), (29, zero.toNat), (16, bar.toNat), (6, ix.toNat), (0, acc.toNat)]]
  | .mdrain st h1 h2 n r post bar => [asm [(29, st.toNat), (22, 0x75), (16, h1.toNat), (10, h2.toNat), (4, n.toNat)], asm [(30, post.toNat), (26, r.toNat), (16, bar.toNat)]]
  | .qnt st h1 h2 n r post bar => [asm [(29, st.toNat), (22, 0x75), (16, h1.toNat), (10, h2.toNat), (4, n.toNat)], asm [(31, 0x1), (30, post.toNat), (26, r.toNat), (16, bar.toNat)]]
  | .msend st a cls imm => [asm [(29, st.toNat), (22, 0x76), (16, a.toNat), (8, cls.toNat)], asm [(0, imm.toNat)]]
  | .launch st a b => [asm [(29, st.toNat), (22, 0x77), (16, a.toNat), (10, b.toNat)]]
  | .doneI st a b => [asm [(29, st.toNat), (22, 0x77), (16, a.toNat), (10, b.toNat), (0, 0x1)]]
  | .crd st d c => [asm [(29, st.toNat), (22, 0x78), (16, d.toNat), (0, c.toNat)]]
  | .cwr st a c => [asm [(29, st.toNat), (22, 0x79), (16, a.toNat), (0, c.toNat)]]
  | .eret st => [asm [(29, st.toNat), (22, 0x7a)]]
  | .inten st a => [asm [(29, st.toNat), (22, 0x7b), (16, a.toNat)]]
  | .intdis st a => [asm [(29, st.toNat), (22, 0x7b), (16, a.toNat), (0, 0x1)]]
  | .sleep st => [asm [(29, st.toNat), (22, 0x7c)]]
  | .tlbinvPage st a => [asm [(29, st.toNat), (22, 0x7d), (16, a.toNat)]]
  | .tlbinvCtx st a => [asm [(29, st.toNat), (22, 0x7d), (16, a.toNat), (0, 0x1)]]
  | .tlbinvAll st => [asm [(29, st.toNat), (22, 0x7d), (0, 0x2)]]
  | .halt st => [asm [(29, st.toNat), (22, 0x7e)]]
  | .blockEntry _ => []
  | .variableLatencyCompletion _ _ => []
  | .blockReplay _ => []
  | .sleepWake _ => []
  | .taskTake _ => []
  | .stealRequest _ => []
  | .stealAnswer _ => []
  | .stealBackoffExpiry _ => []
  | .stitchMessageArrival _ => []
  | .stitchMessageRun _ => []
  | .remoteAccessArrival _ => []
  | .consumingLoadServed _ _ => []
  | .storeBufferDrain _ _ => []
  | .homeSliceRead _ _ _ => []
  | .homeSliceWrite _ _ => []
  | .homeSliceAtomic _ _ => []
  | .undoLogSpaceFreed _ _ => []
  | .zeroPendingBackground _ _ => []
  | .zeroPendingTableFreed _ _ => []
  | .channelRetireRequest _ _ => []
  | .pageWalk _ _ => []
  | .busyReread _ _ => []
  | .busyTimeout _ _ => []
  | .tlbinvComplete _ => []
  | .forcePage _ => []
  | .frameStatusRead _ => []
  | .pinRetry _ _ => []
  | .hallocComplete _ _ => []
  | .hfreeComplete _ _ => []
  | .unitScrubDone _ _ => []
  | .windowLineFill _ _ => []
  | .transferStart _ _ => []
  | .transferFinish _ _ => []
  | .transferFault _ _ _ => []
  | .slowPathRetry _ _ => []
  | .slowPageSkip _ _ => []
  | .slowPathFinish _ _ => []
  | .matrixStart _ => []
  | .matrixCompletion _ _ => []
  | .drainCompletion _ => []
  | .multicastReceive _ => []
  | .multicastAck _ => []
  | .barrierArrival _ => []
  | .groupRequestArrival _ => []
  | .zephyrFillRequest _ _ _ => []
  | .zephyrFillComplete _ => []
  | .kick _ => []
  | .slotLoaded _ _ => []
  | .packetFetch _ _ => []
  | .recordPlacement _ _ => []
  | .slotPoll _ _ => []
  | .unmapComplete _ _ => []
  | .queueDescriptorWrite _ _ => []
  | .queueDestroy _ => []
  | .queueAclWrite _ _ => []
  | .schedulerScan _ => []
  | .standbyTakeover _ => []
  | .cmdMap _ _ => []
  | .cmdUnmap _ _ => []
  | .cmdPrio _ _ => []
  | .grel _ _ => []
  | .journalHalfStore _ _ _ => []
  | .qeClear _ => []
  | .registerWrite _ _ _ => []
  | .kernelBoundary _ => []
  | .completionStore _ => []
  | .gateAdmit _ => []
  | .ringSpaceFreed _ _ => []
  | .contextCreate _ => []
  | .creationScrubDone _ => []
  | .tableStreamRequest _ _ => []
  | .quantumExpiry _ => []
  | .preEmptRequest _ => []
  | .stopWindowExpiry _ => []
  | .stopRetry _ => []
  | .stoplate _ => []
  | .contextPaused _ => []
  | .saveAcknowledge _ => []
  | .finalCopy _ => []
  | .restoreRequest _ _ _ => []
  | .restoreVerified _ _ => []
  | .debugStop _ => []
  | .debugResume _ => []
  | .debugStep _ => []
  | .debugAccess _ _ _ _ => []
  | .destroyRequest _ => []
  | .driftIntervalExpiry _ => []
  | .driftRequest _ => []
  | .driftIntervalSet _ _ => []
  | .drainWindowExpiry _ => []
  | .driftFreeze _ => []
  | .quiesceComplete _ => []
  | .imageComplete _ => []
  | .routerApplyEntry _ _ => []
  | .forwardingEnd _ => []
  | .forwardedArrival _ => []
  | .driftResume _ _ => []
  | .testComplete _ _ _ => []
  | .castOff _ _ => []
  | .routingRewrite _ _ => []
  | .testPackageInstall _ => []
  | .retentionEntry _ _ => []
  | .retentionExit _ _ _ => []
  | .patrolScrub _ _ => []
  | .recoveryIntervalExpiry _ => []
  | .waveWindowExpiry _ => []
  | .cut _ => []
  | .sealPoint _ => []
  | .deltaMerge _ => []
  | .seallate _ => []
  | .rollback _ => []
  | .logRead _ _ => []
  | .linkTrained _ _ => []
  | .laneLost _ => []
  | .retrainTimer _ => []
  | .linkTrainRequest _ => []
  | .flitReceive _ _ => []
  | .peerDataFlit _ _ => []
  | .peerAckFlit _ _ => []
  | .peerRefusalFlit _ _ => []
  | .peerKeepAlive _ _ => []
  | .connectionTimeout _ => []
  | .peerlost _ => []
  | .hostPostedWrite _ _ _ _ => []
  | .hostRead _ _ _ _ => []
  | .hostAtomicop _ _ _ _ _ _ => []
  | .powerSample _ _ => []
  | .capTick _ => []
  | .freqSetWrite _ _ => []
  | .senseSample _ _ => []
  | .regulatorRecalibration _ => []
  | .gustAcknowledge _ => []
  | .gustSettle _ => []
  | .thermalSample _ _ => []
  | .thermalLevelDecay _ => []
  | .alertClear _ => []
  | .tileHold _ => []
  | .tileGate _ => []
  | .wakeCause _ => []
  | .inrushAdmit _ => []
  | .wakeComplete _ => []
  | .powerOnReset => []
  | .bootImageFetched _ => []
  | .bootRetry => []
  | .controllerReady _ _ => []
  | .attestationRequest _ _ _ => []
  | .senderTimeOut _ _ => []
  | .tileHardFailure _ => []
  | .waveRetry _ => []
  | .firmwareReload _ => []

end Sys2Proof
end

