-- ==== Sys2Proof/Machine/State.lean ====
section
/-! DEFINITION. The state of the panel: plain data, every piece of state the spec names, and the state after reset.

Sparse tables (`SMap`) hold the components that differ from what an absent key means; that meaning is given beside each
table.  Numbers of agents, counts and addresses of memory are natural numbers; register contents are bit vectors. -/

namespace Sys2Proof.Machine

/-! ### Values and registers (02 R25-R33) -/

/-- A scalar value: 64 bits and its validity. -/
structure SVal where
  v : W64
  ok : Bool
deriving DecidableEq, Repr

/-- One lane of a vector: 32 bits and its validity (R26). -/
structure Lane where
  v : W32
  ok : Bool
deriving DecidableEq, Repr

/-- A vector value: sixteen lanes. -/
abbrev VVal := Vector Lane 16

/-- A yarn value: 128 bits and one validity (R33). -/
structure YVal where
  v : BitVec 128
  ok : Bool
deriving DecidableEq, Repr

/-- A result of one of the three classes. -/
inductive RVal where
  | s (x : SVal)
  | v (x : VVal)
  | y (x : YVal)
deriving DecidableEq, Repr

/-- A register or queue entry: its value, the first issue slot of the block at which a fixed-latency value may be read
(03 R56), and the number of the result in flight that will fill it, if one is awaited (03 R57). -/
structure Cell (α : Type) where
  val : α
  ready : Nat
  pend : Option Nat
deriving DecidableEq, Repr

/-- A result queue: sixteen entries and the write index (R27). -/
structure Ring (α : Type) where
  e : Vector (Cell α) 16
  w : Nat
deriving DecidableEq, Repr

/-- An active loop: its counter k0-k3, its body header and its exit header (19 R301). -/
structure LoopEntry where
  k : Nat
  body : W64
  exit : W64
deriving DecidableEq, Repr

/-- The registers of which an interrupt handler has a second set (22 R386), and of which a stitch message has a queue
of its own (02 R43): scalar queue, s0-s15, k0-k3 and the loop stack, innermost loop first. A counter holds 32 bits,
kept zero-extended. -/
structure Bank where
  q : Ring SVal
  s : Vector (Cell SVal) 16
  k : Vector (Cell SVal) 4
  loops : List LoopEntry
deriving DecidableEq, Repr

/-- Which bank an instruction names: the normal one, the handler's, or a stitch message's. -/
inductive BankSel where
  | norm | hand | msg
deriving DecidableEq, Repr

/-- The format context of the worker (13 R218): formats 0 FP4, 1 E4M3, 2 E5M2, 3 BF16; four A band scales and one B
band scale, each BF16 bits or none for an invalid band. -/
structure FmtCtx where
  valid : Bool
  af : BitVec 2
  bf : BitVec 2
  bandA : List (Option (BitVec 16))
  bandB : Option (BitVec 16)
deriving DecidableEq, Repr

/-- The registers that block entry, replay and drift treat as a whole. -/
structure Regs where
  norm : Bank
  hand : Bank
  msg : Bank
  p : Vector (Cell SVal) 8
  y : Vector (Cell YVal) 8
  v : Vector (Cell VVal) 8
  vq : Ring VVal
  fflags : BitVec 5
  yund : Bool
  fmt : FmtCtx
deriving DecidableEq, Repr

/-! ### Results in flight (03 R57-R59) -/

/-- The class of a result. -/
inductive Cls where
  | s | v | y
deriving DecidableEq, Repr

/-- How the bytes of a load make its result: a scalar of n bytes, sixteen lanes of e bytes, or a yarn. -/
inductive Shape where
  | scalar (n : Nat) (sx : Bool)
  | vector (e : Nat) (sx : Bool)
  | yarn
deriving DecidableEq, Repr

/-- One byte of a load: its physical address and its value once known. -/
structure LByte where
  pa : Nat
  v : Option Byte
deriving DecidableEq, Repr

/-- An atomic on its way (21 R356, R357): physical address, size in bytes, operation, data, compare value, the 16-bit
sequence number of its tag (16 R258), and the scope of the release it is. -/
structure AtomReq where
  pa : Nat
  n : Nat
  op : Nat
  x : W64
  c : W64
  seq : Nat
  zp : Bool
  rel : Option Nat
deriving DecidableEq, Repr

/-- The steps that remain of a LAUNCH (21 R364): queue, claimed index once claimed, the packet's bytes, and whether it
kicks. -/
structure LaunchReq where
  q : Nat
  idx : Nat
  pk : List Byte
  kick : Bool
  seq : Nat
deriving DecidableEq, Repr

/-- A remote access (21 R345, R349): what is done at the destination's handle. -/
inductive RemOp where
  | load (n : Nat) (fe : Nat)
  | store (bytes : List (Nat × Byte)) (n : Nat) (fe : Bool)
  | atomic (a : AtomReq)
deriving DecidableEq, Repr

/-- A request at a group's home tile (11 R194, R195; 12 R208): 0 GJOIN m, 1 GLEAVE, 3 GAUGE a, 4 GADV, 5 BARV, 6 BWAIT t,
7 BTEST t, with the number of the issuing task among those of its core: the home tile judges whether that task is a member. -/
structure GReq where
  kind : Nat
  g : Nat
  gen : Nat
  arg : W64
deriving DecidableEq, Repr

/-- A membership (11 R193): group, member index, and the number of the task among those of its core. -/
structure Member where
  g : Nat
  m : Nat
  gen : Nat
deriving DecidableEq, Repr

/-- A stitch message (13 R221): source tile, class, sequence number, four template words, five payload words, the
kernel of its sender, its sender and the flights that the sender issued before MSEND (those numbered below `at'`): the accesses
of the message's instructions are the sender's (07 R134, R145). -/
structure Msg where
  src : Nat
  cls : Nat
  seq : Nat
  tpl : List W32
  pay : List SVal
  kern : Option Nat
  c : CoreRef
  at' : Nat
deriving DecidableEq, Repr

/-- What an access of a system or management core does: a load; a store, with the queues it kicks and its tag's number; an
atomic; the read of LAUNCH's packet image. -/
inductive OwnOp where
  | ld
  | st (bytes : List Byte) (kick : List Nat) (seq : Nat)
  | atom (q : AtomReq)
  | image (q : Nat) (kick : Bool) (seq : Nat)
deriving DecidableEq, Repr

/-- An access that has issued and is not performed yet: what it will do (07 R142, R143; 15 R239). Physical addresses of
global memory; handles of the core's own tile, or of the tile `dst`. -/
inductive HeldOp where
  /-- A read of global memory. -/
  | ld (pas : List Nat) (zp : Bool)
  /-- A store that enters the store buffer, performed in units of u bytes (07 R132); the queues it kicks, its tag's number. -/
  | st (bytes : List (Nat × Byte)) (u : Nat) (zp : Bool) (kick : List Nat) (seq : Nat)
  /-- A global atomic. -/
  | atom (a : AtomReq)
  /-- An access at a bank of the core's own tile. -/
  | bank (h off : Nat) (op : RemOp)
  /-- A store through a window: the bytes by offset and by physical address. -/
  | win (h : Nat) (bytes pbytes : List (Nat × Byte)) (u : Nat) (kick : List Nat) (seq : Nat)
  /-- An access through a pointer to another tile. -/
  | acc (dst h off : Nat) (op : RemOp)
  /-- MSEND. -/
  | msg (dst : Nat) (m : Msg)
  /-- A request to a group's home tile. -/
  | grp (dst : Nat) (r : GReq)
  /-- BARV on a barrier of the own tile. -/
  | barv (b : Nat)
  /-- The store of DONE: physical address, value, the queues it kicks, its tag's number. -/
  | done (pa : Nat) (zp : Bool) (v : W64) (kick : List Nat) (seq : Nat)
  /-- The read of LAUNCH's packet image. -/
  | launch (q : Nat) (kick : Bool) (pas : List Nat) (zp : Bool) (seq : Nat)
  /-- An access of a system or management core, by its address. -/
  | own (a n : Nat) (op : OwnOp)
deriving DecidableEq, Repr

/-- A held access with the scope of the release it is, and its place in tile issue order. -/
structure Held where
  op : HeldOp
  rel : Option Nat
  ord : Nat
deriving DecidableEq, Repr

/-- A yarn operation that looks at digits (14 R225, R227, R229, R231): YDRAW, YEXT to n digits, YCMP with the threshold
x / 2^l, YCMPY. -/
inductive YOp where
  | draw (sel pos : Nat)
  | ext (y : YVal) (n : Nat)
  | cmp (ge : Bool) (t : SVal) (y : YVal) (x l : Nat)
  | cmpy (ge : Bool) (a b : YVal)
deriving DecidableEq, Repr

/-- A digit block of the table stream that has been read: position, number, digits. -/
structure YGot where
  pos : Nat
  j : Nat
  d : Nat
deriving DecidableEq, Repr

/-- What a result in flight is waiting for. -/
inductive FKind where
  /-- A unit of the core (divider and the like): nothing more is awaited. -/
  | plain
  /-- A read of global memory whose missing bytes a home slice serves. -/
  | load (bytes : List LByte) (zp : Bool)
  /-- A load or atomic whose translation met a BUSY entry (06 R123) or a full table (R127): its addresses, and the atomic it
  performs, if it is one. -/
  | busy (vas : List W64) (atom : Option AtomReq)
  /-- A global atomic that its home slice performs. -/
  | atomic (a : AtomReq)
  /-- A wait on another agent, which fills the result itself: a wait list, a remote tile, a group. -/
  | await
  /-- BWAIT, whose phase is not complete (12 R204, R208); its answer comes from the barrier or the group. -/
  | bwait
  /-- HALLOC waiting for its units (05 R107): handle, descriptor, its place in tile issue order. -/
  | halloc (h : Nat) (desc : W64) (ord : Nat)
  /-- HWIN whose translation waits on a BUSY entry or a full zero-pending table, or whose units are being scrubbed (05 R114,
  06 R123): handle, base, pages, whether it has taken its units, and the place of that in tile issue order. -/
  | hwin (h : Nat) (base : W64) (pages : Nat) (took : Bool) (ord : Nat)
  /-- A yarn operation that reads the table stream (14 R225): the blocks it has, the block it reads, and the bytes of that
  block once its address is translated, with the zero-pending flag. -/
  | table (op : YOp) (got : List YGot) (va : W64) (pos j : Nat) (rd : Option (List LByte × Bool))
  /-- XWAIT on a channel for an identifier (22 R373). -/
  | xwait (ch t : Nat)
  /-- A load through a window whose line is absent (05 R114): handle, offset. -/
  | window (h off : Nat)
  /-- LAUNCH in the store path (21 R364). -/
  | launch (l : LaunchReq)
  /-- DONE waiting for gate space (21 R365): address and value. -/
  | gate (pa : Nat) (x : W64)
  /-- TLBINV waiting for its acknowledgements (06 R126): form, context, page address. -/
  | tlbinv (form ctx va : Nat)
  /-- An access behind an acquire, an earlier read, or what its own release waits for. -/
  | held (h : Held)
  /-- CHKA of an LDA whose value is still due (21 R354): the flight of the LDA. -/
  | chka (id : Nat)
deriving DecidableEq, Repr

/-- A variable-latency operation that has issued and whose result has not been delivered; `hold`: the core issues
nothing until it is (GADV, 11 R195); `flagger`: it can raise a flag, at issue or with its result (04 R101); `since`: since when
its translation waits on a BUSY entry (06 R122); `trs`: the translations its addresses have come from (06 R126), each by its
leaf's level and its page number at that level. -/
structure Flight where
  id : Nat
  bank : BankSel
  cls : Cls
  dst : Nat
  shape : Shape
  kind : FKind
  res : Option RVal
  acq : Option Nat
  flags : BitVec 5
  yund : Bool
  lda : Bool
  hold : Bool
  flagger : Bool
  kern : Option Nat
  hdr : W64
  word : Nat
  since : Option Nat
  trs : List (Nat × Nat)
deriving DecidableEq, Repr

/-- A watch of LDA (21 R353); the value is none until the load has it. -/
structure Watch where
  d : Nat
  a : W64
  n : Nat
  pas : List Nat
  fid : Nat
  val : Option SVal
deriving DecidableEq, Repr

/-! ### Cores -/

/-- How a block is entered (03 R47, R48; 19 R301). A branch names the header and word that transferred control. -/
inductive Entry where
  | fall
  | branch (hdr : W64) (word : Nat)
  | start
  | interrupt
  | direct
deriving DecidableEq, Repr

/-- What a core is doing. -/
inductive Phase where
  /-- A tile core with no task. -/
  | idle
  /-- Entering the block at an address. -/
  | entering (t : W64) (how : Entry)
  /-- Issuing from its block. -/
  | running
  /-- Paused at a block entry (08 R156, 15 R239, 16 R267); the saved block. -/
  | paused (t : W64)
  /-- In the protected save handler (08 R157); none: a core that had no task. -/
  | saving (t : Option W64)
  /-- Asleep until an interrupt bit is set (22 R389). -/
  | sleeping (t : W64)
  /-- Stopped for good (22 R390). -/
  | halted
  /-- A core whose firmware is not loaded yet (18 R296). -/
  | unloaded
deriving DecidableEq, Repr

/-- The block a core is in: header address, header, words, next word, issue slots counted (03 R45, R55). -/
structure Blk where
  hdr : W64
  head : W64
  words : List W32
  widx : Nat
  slot : Nat
deriving DecidableEq, Repr

/-- An entry of the replay record (16 R256): the word, the registers after it when its effect was released or a
value entered from outside, and the watch that it set (21 R366). -/
structure RepEntry where
  word : Nat
  after : Option Regs
  watch : Option Watch
deriving DecidableEq, Repr

/-- A task record and the task a core runs (09 R174, 10 R181): kernel, cr.taskid, primary or companion, stealable,
priority of its packet. -/
structure TaskRec where
  kern : Nat
  taskid : Nat
  prim : Bool
  float : Bool
  prio : Nat
deriving DecidableEq, Repr

/-- Stealing of an idle core (09 R175): since when its deque is empty, attempts made, refusals in a row, the victim
asked, and whether it waits after 8 refusals, and since when. -/
structure Steal where
  since : Nat
  waitAt : Nat
  tries : Nat
  refusals : Nat
  victim : Option Nat
  backoff : Bool
deriving DecidableEq, Repr

/-- A core of any kind. -/
structure Core where
  r : Regs
  sel : BankSel
  check : Bool
  trap : BitVec 128
  taskarg : W64
  taskid : W32
  kreg : W64
  task : Option TaskRec
  /-- The model's: how many tasks the core has started. -/
  gen : Nat
  groups : List Member
  phase : Phase
  blk : Blk
  flights : List Flight
  nextId : Nat
  watches : List Watch
  seq : BitVec 16
  /-- The model's: the core's next instruction could not issue at its last attempt. -/
  blocked : Bool
  /-- The model's: the instruction held at issue has done its first part (GADV, HFREE, TLBINV, a message's wait). -/
  began : Option Nat
  /-- The model's: a replay takes up, at this word, the instruction that had done its first part (16 R256). -/
  resume : Option (Nat × Nat)
  /-- The model's: the core is held at issue for a result in flight (13 R222). -/
  awaits : Bool
  /-- The model's: the address whose BUSY entry the instruction held at issue, or the block entry, waits on (06 R123), and since
  when. -/
  busyAt : Option (W64 × Nat)
  shadow : Option Regs
  replay : List RepEntry
  /-- The word at which a block replay ends; 0 when the block is not being replayed. -/
  replayTo : Nat
  /-- The same record of a stitch message, and the word at which its replay ends. -/
  msgRec : List RepEntry
  msgTo : Nat
  /-- The message being run and its block (13 R222). -/
  msgRun : Option (Msg × Blk)
  steal : Steal
  /-- One block to issue under a debug step (08 R162). -/
  stepOnce : Bool
  mcause : W64
  jbase : W64
  ytab : W64
  vec : Vector W64 4
  timecmp : W64
  mc : Bool
  qe : Bool
  inh : Bool
  /-- The enables in force, and as INTEN and INTDIS have left them for the next block entry (22 R388). -/
  ien : BitVec 3
  ienNext : BitVec 3
  last : BitVec 2
  retBlk : W64
  /-- The upper halves of journal records that are held back, by address (28 R421). -/
  half : SMap W64
deriving DecidableEq, Repr

/-! ### Tiles -/

/-- The states of a handle other than FREE (05 R106). -/
inductive HState where
  | allocated | stale | freeing
deriving DecidableEq, Repr

/-- A handle that is not FREE: descriptor fields (R103), contents by linear byte offset (absent bytes zero), full
granules (R112), invalid ACC elements (22 R375), the base address, present lines and pinned frames of a window (R114),
and the dirty and copy bits of its granules (16 R268). -/
structure Handle where
  st : HState
  level : Nat
  fmt : Nat
  kind : Nat
  rows : Nat
  cols : Nat
  data : Mem
  full : List Nat
  inval : List Nat
  base : W64
  lines : List Nat
  pins : List Nat
  dirty : List Nat
  copy : List Nat
deriving DecidableEq, Repr

/-- A waiting consuming load (05 R113): its core and flight, handle, offset, size, whether it empties, and its place in the
tile's issue order (of one from another tile, the place of its arrival). -/
structure WaitE where
  c : CoreRef
  id : Nat
  h : Nat
  off : Nat
  n : Nat
  fec : Bool
  ord : Nat
deriving DecidableEq, Repr

/-- A waiter of a barrier or group: its core, flight and token (or phase). -/
structure Waiter where
  c : CoreRef
  id : Nat
  tok : W32
deriving DecidableEq, Repr

/-- A tile barrier (12 R198). -/
structure Barrier where
  init : Bool
  phase : W32
  basea : Nat
  baseb : Nat
  expb : Nat
  cnta : Nat
  cntb : Nat
  wait : List Waiter
deriving DecidableEq, Repr

/-- A group record with its barrier and gauge set (11 R192, 12 R208); `gph` holds the phases of the members, `gwait`
the members waiting in GADV. -/
structure Group where
  map : BitVec 1024
  count : Nat
  allow : W32
  gph : SMap W32
  phase : W32
  arr : List Nat
  wait : List Waiter
  gwait : List (Waiter × Nat)
deriving DecidableEq, Repr

/-- A range of a handle's bytes. -/
structure Rng where
  h : Nat
  lo : Nat
  hi : Nat
deriving DecidableEq, Repr

/-- A footprint of the scoreboard (13 R214). -/
structure Foot where
  reads : List Rng
  write : List Rng
deriving DecidableEq, Repr

/-- The states of a transfer (13 R211); a finished one leaves the list. -/
inductive XSt where
  | queued | running | slow | suspended
deriving DecidableEq, Repr

/-- A transfer: the fields of the remainder record (13 R212), its state, the tile and tensor of a TLD or TST as a list
of moves, the acknowledgements a CPYM awaits, its pinned pages with their frames, the issuing task's kernel, its place in tile issue order, and
the flights of its core that issued before it (those numbered below `after`). -/
structure Xfer where
  xid : W32
  ch : Nat
  kind : Nat
  feeder : Bool
  dir : Nat
  post : Bool
  bar : Nat
  hnd : Nat
  off : Nat
  hnd2 : Nat
  off2 : Nat
  gaddr : W64
  total : Nat
  doneb : Nat
  rbox : W32
  origin : List Int
  desc : BitVec 512
  st : XSt
  cause : Nat
  sent : Bool
  acks : Nat
  pins : List (Nat × Nat)
  foot : Foot
  kern : Option Nat
  order : Nat
  after : Nat
deriving DecidableEq, Repr

/-- A matrix, drain or quantise command with the format context it captured (13 R218; 22 R376-R378). `kind`: 0 MMA,
1 MMAG, 2 MDRAIN, 3 QNT; `gen`: the issuing task among those of its core; `order` and `after` as in a transfer. Of a drain command that a stop found unfinished, `m` and the offsets
are those of the rest, `did` is what has been done and `flags` what it has raised (15 R239). -/
structure MCmd where
  kind : Nat
  fmt : FmtCtx
  ah : Nat
  aoff : Nat
  bh : Nat
  boff : Nat
  ch : Nat
  coff : Nat
  ih : Nat
  ioff : Nat
  m : Nat
  zero : Bool
  rm : BitVec 2
  post : Bool
  bar : Nat
  running : Bool
  foot : Foot
  gen : Nat
  kern : Option Nat
  order : Nat
  after : Nat
  did : Nat
  flags : BitVec 5
deriving DecidableEq, Repr

/-- A buffered global store (07 R142): the bytes by physical address, the issuing core, its flights issued before it
(those numbered below `after`), its tag's number, the queues it kicks, whether it has
been sent to its home slice, whether it waits for undo space, the kernel of its task, the bytes of a unit in which it is
performed (07 R132), the window it was made through, its place in tile issue order, and the translations it has used (06 R126). -/
structure SBEntry where
  bytes : Mem
  feeder : Bool
  after : Nat
  seq : Nat
  kick : List Nat
  zp : Bool
  sent : Bool
  stuck : Bool
  kern : Option Nat
  u : Nat
  win : Option Nat
  ord : Nat
  trs : List (Nat × Nat)
deriving DecidableEq, Repr

/-- A cached translation (06 R124): context, leaf level 0-2, virtual page number at that level, frame base, the leaf's
low bits and where the leaf stands. -/
structure TlbE where
  ctx : Nat
  level : Nat
  vpn : Nat
  frame : Nat
  bits : BitVec 9
  zp : Bool
  leaf : Nat
deriving DecidableEq, Repr

/-- Power gating of a tile (18 R294, R295): since when it holds; when it was queued or admitted. -/
inductive TPower where
  | busy
  | hold (since : Nat)
  | gated
  | queued
  | waking (since : Nat)
deriving DecidableEq, Repr

/-- A virtual tile and everything that moves with it (15 R240), with its routers' and caches' contents. -/
structure VTile where
  ctx : Option Nat
  worker : Core
  feeder : Core
  handles : SMap Handle
  scrub : List Nat
  bars : SMap Barrier
  groups : SMap Group
  chNext : Vector W32 4
  chDone : Vector W32 4
  xfers : List Xfer
  mq : List MCmd
  dq : List MCmd
  order : Nat
  sbuf : List SBEntry
  l1 : SMap (BitVec 512)
  icache : SMap (BitVec 512)
  tlb : List TlbE
  msgs : List Msg
  chOut : SMap Nat
  chIn : SMap Nat
  wdq : List TaskRec
  fdq : List TaskRec
  waits : List WaitE
  ytab : W64
  ytabNext : Option W64
  power : TPower
  /-- A stop's acknowledgement and copy-out (08 R158). -/
  acked : Bool
deriving DecidableEq, Repr

/-- The states of a physical tile (15 R236). -/
inductive PState where
  | serving | draining | copying | remapping | spare | testing | cooling | castOff
deriving DecidableEq, Repr

/-- A physical tile: its state, reservation as a landing tile, sensor in 1/16 degree (18 R292), ageing counters and
corrected errors (16 R262), the faults counted within 24 h by reason (16 R263), banks in retention (16 R254), whether a
test is due, the reason of a cast-off that waits for its context to be saved or for its drift (15 R246; 0 none), the reason for
which the controller is to retire it (16 R263; 0 none), the power of a tile that serves no row (18 R294), and its router's table when it differs from the reset routes (15 R249). -/
structure PTile where
  st : PState
  reserved : Bool
  temp : Int
  age : List Nat
  errs : Nat
  faults : List (Nat × Nat)
  retention : List Nat
  testDue : Bool
  castDue : Nat
  retire : Nat
  power : TPower
  table : Option (List Nat)
deriving DecidableEq, Repr

/-! ### Networks -/

/-- What travels between tiles. -/
inductive NetBody where
  | acc (h off : Nat) (op : RemOp)
  | msg (m : Msg)
  | grp (r : GReq)
  | mcast (h off : Nat) (bytes : List Byte) (bar : Nat) (post : Bool) (ch : Nat) (xid : W32)
  | mack (bar : Nat) (ch : Nat) (xid : W32) (counted : Bool)
deriving DecidableEq, Repr

/-- An item of a channel (07 R144), with the core and flight that await its answer, the kernel it belongs to, the flights of
its core that issued before it (those numbered below `at'`), the flit of the die-to-die link it crosses next, until that link has
delivered it (17 R279), the router where it stands then, and whether a router holds it (15 R248, R250). -/
structure NetItem where
  src : Nat
  dst : Nat
  cls : Nat
  seq : Nat
  c : CoreRef
  id : Nat
  body : NetBody
  kern : Option Nat
  at' : Nat
  flit : Option (Nat × Nat)
  hop : Nat
  parked : Bool
deriving DecidableEq, Repr

/-- A kick on its way to the home controller (09 R169): queue and the tag of its store. -/
structure Kick where
  q : Nat
  agent : Nat
  seq : Nat
deriving DecidableEq, Repr

/-! ### Logs (16 R273, R274) -/

/-- A log record. -/
structure LogRec where
  kind : Nat
  count : Nat
  seq : W32
  time : Nat
  vtile : BitVec 16
  core : Nat
  ctxn : Nat
  detail : BitVec 224
  trap : BitVec 128
deriving DecidableEq, Repr

/-- A log: records written, records lost, records consumed, and the records that stand in the ring, newest first; whether the
ring in memory is to be brought up to date. -/
structure Log where
  widx : Nat
  lost : Nat
  ridx : Nat
  recs : List LogRec
  dirty : Bool
deriving DecidableEq, Repr

/-! ### Contexts, queues, kernels -/

/-- The states of a context (08 R153); a context that was never created is `destroyed`. -/
inductive CtxSt where
  | creating | running | stopping | saving | saved | restoring | debugging | failed | destroyed
deriving DecidableEq, Repr

/-- The states of a recovery point (16 R265); an abandoned point leaves the list of points, and its number is used again. -/
inductive RpSt where
  | pending | cutting | copying | sealed | merged
deriving DecidableEq, Repr

/-- The states of a kernel (10 R186); `gated` while its stores stand in the gate. -/
inductive KSt where
  | placing | running | boundary | gated | complete
deriving DecidableEq, Repr

/-- A kernel: its context, queue and packet (09 R166), its state, tasks not ended, the next task record to place, and the parts of its status word
(10 R187), with the place of the reported trap; `xl`: where the two stores of its completion go, translated as it reaches
BOUNDARY, `trs` the translations used (06 R126), and `xlBad` the fault that was met there: its address and code. -/
structure Kernel where
  ctx : Nat
  q : Nat
  seq : W32
  cls : Bool
  float : Bool
  immed : Bool
  wentry : W64
  fentry : W64
  bx : Nat
  by' : Nat
  bw : Nat
  bh : Nat
  tpt : Nat
  arg : W64
  cword : W64
  cvalue : W64
  scope : Nat
  prio : Nat
  group : Nat
  st : KSt
  left : Nat
  placed : Nat
  skind : Nat
  scode : Nat
  fflags : BitVec 5
  yund : Bool
  trapAt : Option (Nat × Nat × Nat × Nat)
  trapCode : Nat
  trapWord : Nat
  ntrap : Nat
  boundaryDone : Bool
  xl : Option (Nat × Nat × Bool)
  trs : List (Nat × Nat)
  xlBad : Option (W64 × Nat)
deriving DecidableEq, Repr

/-- A recovery point: number, state, cut time, the partition's tiles and the context's kernels at the cut, and the digest of its
seal record (16 R268). -/
structure RPoint where
  num : Nat
  st : RpSt
  cut : Nat
  image : SMap VTile
  kernels : SMap Kernel
  digest : Option (BitVec 512)
deriving DecidableEq, Repr

/-- A packet of the packet log (16 R270): queue, its bytes, its SEQ, and the epoch in which it was
fetched. -/
structure PktLog where
  q : Nat
  pk : List Byte
  seq : W32
  point : Nat
deriving DecidableEq, Repr

/-- A context: the record of 08 R150 and its state. -/
structure Ctx where
  key : BitVec 256
  save : Nat
  root : Nat
  quantum : Nat
  vy0 : Nat
  vx0 : Nat
  height : Nat
  width : Nat
  repro : Bool
  rpint : Nat
  ytab : W64
  elog : Nat
  st : CtxSt
  /-- Stop requested for a save (true) or for a debug stop (false), until it succeeds. -/
  stopFor : Option Bool
  /-- Its window has passed without success; the next attempt is due (08 R156). -/
  stopRetry : Bool
  /-- A stop for a save, or a debug stop, that waits for the end of a marker wave or of a debug stop (08 R153, R162; 16 R267). -/
  waitSave : Bool
  waitDebug : Bool
  destroyReq : Bool
  /-- Its partition has been released: SAVED, or FAILED from there. -/
  out : Bool
  /-- The origin, row and column, at which its image was made (08 R160), and of each slot its length and digest as sealed (R158). -/
  imgAt : Nat × Nat
  slots : List (Nat × BitVec 512)
  /-- Of a saved context: what routers held for it because no way was open (17 R280). -/
  parcel : List NetItem
  /-- What its recovery points hold can no longer be read (16 R251). -/
  lostPoints : Bool
  image : SMap VTile
  points : List RPoint
  waveRetry : Bool
  /-- Since when its interval of recovery points runs, and its time slice (08 R150). -/
  resumed : Nat
  slice : Nat
  early : Bool
  /-- A reported fault is waiting for its rollback: nothing of the context issues (16 R252). -/
  fault : Bool
  /-- The epoch in which an immediate completion was last released (16 R271). -/
  immEpoch : Option Nat
  pktLog : List PktLog
  /-- Logged packets to place again after a rollback (16 R271). -/
  again : List PktLog
  log : Log
deriving DecidableEq, Repr

/-- A queue descriptor (09 R164) and whether the queue exists. -/
structure Queue where
  base : Nat
  log2n : Nat
  ctxn : Nat
  maxprio : Nat
  mode : Bool
  hcy : Nat
  hcx : Nat
  en : Bool
  ser : Bool
deriving DecidableEq, Repr

/-- The states of a hardware queue slot other than FREE (09 R170). -/
inductive SlotSt where
  | mapping | active | idle | unmapping
deriving DecidableEq, Repr

/-- A hardware queue slot: queue, priority at map, time of mapping, whether unmapping leaves bit q alone (R173),
and an unmap that waits for the load. -/
structure Slot where
  st : SlotSt
  q : Nat
  prio : Nat
  since : Nat
  noBit : Bool
  unmapReq : Bool
deriving DecidableEq, Repr

/-- A store held at the egress gate (10 R188, 16 R270): context, point tag, address, value, and the kernel it
completes (none for a DONE). -/
structure GateE where
  ctx : Nat
  tag : Nat
  pa : Nat
  v : W64
  kern : Option Nat
deriving DecidableEq, Repr

/-! ### Chiplets -/

/-- An undo record (16 R269): context, epoch, line address, bytes before. -/
structure UndoE where
  ctx : Nat
  epoch : Nat
  line : Nat
  old : List Byte
deriving DecidableEq, Repr

/-- A frame of the zero-pending table (06 R127): where the leaves stand through which it was entered, its length, and the lines
already zeroed. -/
structure ZpE where
  leaves : List Nat
  len : Nat
  zeroed : List Nat
deriving DecidableEq, Repr

/-- The drift in progress (15 R236-R242). `kind`: 0 interval, 1 thermal, 2 requested, 3 requested for a cast-off. -/
inductive DPhase where
  | drain | quiesce | copy | remap
deriving DecidableEq, Repr

/-- A drift: column, virtual row, rows, phase, routers that have applied the entry, held traffic (forwarded over the
drift bus), traffic that arrived directly, whether the forwarding end was sent, whether the landing tile runs again, the cast-off reason that
follows. -/
structure Drift where
  kind : Nat
  col : Nat
  vr : Nat
  old : Nat
  new : Nat
  tile : Nat
  phase : DPhase
  applied : List Nat
  held : List NetItem
  direct : List NetItem
  endSent : Bool
  resumed : Bool
  reason : Nat
  since : Nat
deriving DecidableEq, Repr

/-- Gust states (18 R291). -/
inductive Gust where
  | quiet | notified | ready
deriving DecidableEq, Repr

/-- The samples behind the two integrators (18 R289): the last 100 samples, the sum and the number of the samples of the
present millisecond, the last 1,000 means of a millisecond; PK and AVG. -/
structure Integ where
  last : List Nat
  sum : Nat
  cnt : Nat
  means : List Nat
  pk : Nat
  avg : Nat
deriving DecidableEq, Repr

/-- The power and thermal block of a chiplet (18 R285) with the samples behind its integrators (R289), the tick count
and the sense samples in a row that were low (R290). -/
structure PowerBlk where
  hot : Nat
  tmax : Int
  dio : Nat
  dcore : Nat
  pend : Bool
  en : Bool
  thresh : BitVec 16
  thl : Nat
  capl : Nat
  swl : Nat
  act : Nat
  set : Nat
  avglim : Nat
  pklim : Nat
  integ : Integ
  setmv : Nat
  mv : Nat
  gust : Gust
  gen : Bool
  low : Nat
  tick : Nat
  gustAt : Nat
  capmaxAt : Nat
  trip : Bool
deriving DecidableEq, Repr

/-- A defect record (15 R247). -/
structure Defect where
  cast : BitVec 272
  reason : SMap Nat
  degr : BitVec 16
  rdead : BitVec 272
deriving DecidableEq, Repr

/-- A fill of the Zephyr engine (14 R235); `status`: what its completion word will say, once the fill has ended. -/
structure Zephyr where
  ctx : Nat
  dest : Nat
  count : Nat
  sel : BitVec 16
  pos0 : Nat
  cword : Nat
  status : Option Nat
deriving DecidableEq, Repr

/-- An installed test package (16 R264). -/
structure TestPkg where
  version : Nat
  cycles : Nat
  respdig : BitVec 512
deriving DecidableEq, Repr

/-- A compute chiplet with its controller (01 R11, 09 R169-R177). -/
structure Chip where
  sys0 : Core
  sys1 : Core
  active : Nat
  aon : Mem
  slots : SMap Slot
  pkb : SMap Nat
  gate : List GateE
  cmdst : BitVec 2
  tlb : List TlbE
  tags : SMap (List (Nat × W64))
  zp : SMap ZpE
  undo : List UndoE
  pw : PowerBlk
  drift : Option Drift
  interval : Nat
  nextCol : Nat
  /-- The time of the last interval order; one that waits for a thermal drift (15 R237); orders that wait for a marker wave
  (R244): physical tile, kind, reason; hard failures that wait for the remap of their column (01 R23). -/
  driftAt : Nat
  driftDue : Bool
  driftWait : List (Nat × Nat × Nat)
  failWait : List Nat
  /-- The slot whose record entered a deque last, for the rotation of 09 R174: by 2 x tile, and one more for the feeder's. -/
  lastSlot : SMap Nat
  defect : Defect
  inrush : List Nat
  admitted : Nat × Nat
  zeph : Option Zephyr
  ready : Bool
deriving DecidableEq, Repr

/-- An entry of the column translation table (01 R21): the rows of virtual rows 0-15, 31 for none. -/
abbrev ColEntry := Vector (BitVec 5) 16

/-- Link states (17 R277). -/
inductive LinkSt where
  | training | up | degraded | retraining | fenced
deriving DecidableEq, Repr

/-- A link (17 R279): state, lanes in use, the next sequence number to give and to deliver, the number of the flit on the wire, and
the number below which every flit is acknowledged, from where on they stand in the replay buffer; since when it is in its state. -/
structure Link where
  st : LinkSt
  lanes : Nat
  tx : Nat
  rx : Nat
  wire : Nat
  acked : Nat
  since : Nat
deriving DecidableEq, Repr

/-- A peer connection (17 R282-R284): peer identity, port, next SEQ, every SEQ below this acknowledged, next SEQ
expected, unacknowledged flits, the last refusal received, the acknowledgement sent last, since when no acknowledgement has come, and
the time of the last PEERLOST record while it has no port. -/
structure Conn where
  peer : Nat
  port : Nat
  tx : Nat
  acked : Nat
  rx : Nat
  unacked : List (Nat × List Byte)
  refusal : Option (Nat × Nat)
  ack : List Byte
  since : Nat
  lost : Option Nat
deriving DecidableEq, Repr

/-- A range of physical addresses that the boot memory map gives to HBM (16 R259): base, length, parity quad. -/
structure MapRange where
  base : Nat
  len : Nat
  quad : Nat
deriving DecidableEq, Repr

/-- An HBM channel (16 R261): the times of its uncorrectable reads within 24 h, and whether it is retired. -/
structure Hbm where
  bad : List Nat
  retired : Bool
deriving DecidableEq, Repr

/-- Boot (18 R296): step in progress, BOOTFAIL, since when, MEAS; the body of the accepted image and its entry offsets, from which a
controller reloads firmware (22 R390). -/
structure Boot where
  step : Nat
  fail : Bool
  failAt : Nat
  meas : BitVec 512
  body : List Byte
  mentry : Nat
  centry : Nat
deriving DecidableEq, Repr

/-- A posted host write that waits on a BUSY entry (06 R426): port, BAR, queue, context, address, data. -/
structure Posted where
  port : Nat
  bar : Nat
  q : Nat
  ctx : Nat
  va : Nat
  data : List Byte
deriving DecidableEq, Repr

/-- Panel power (18 R289): integrators, limits and samples. -/
structure PanelPower where
  integ : Integ
  pklim : Nat
  avglim : Nat
deriving DecidableEq, Repr

/-- What the schedule does next (the model's own): let a core take its turn, let an event come about, let time pass,
drop a line of a tile's L1 or instruction cache or a cached translation, or move a part of a running transfer; what no row of
the opcode table names: the next unit of a buffered store, a retry of what waits at an agent, and the faults of 16 R251, R253
and R260 that come from outside. -/
inductive Turn where
  | core (c : CoreRef)
  | event (i : Instr)
  | tick (ns : Nat)
  | dropL1 (t line : Nat)
  | dropI (t line : Nat)
  | dropTlb (t k : Nat)
  | dropShared (chip k : Nat)
  | move (t x n : Nat)
  /-- The first n rows or records of the command in a drain unit are written (15 R239). -/
  | rows (t n : Nat)
  /-- Another unit of a buffered store is performed first (07 R132). -/
  | unit (t i : Nat)
  /-- A read of any agent meets an uncorrectable error: members of the stripe (16 R260). -/
  | badRead (pa bad : Nat)
  /-- A word of a tile's SRAM that its code cannot correct (16 R251, R253). -/
  | badSram (p : Nat)
  /-- The same in a chiplet's home cache. -/
  | badCache (chip : Nat)
  /-- What a context's recovery points hold can no longer be read (16 R251). -/
  | badPoints (ctx : Nat)
  /-- An uncorrectable read of a system or management core's instruction or data memory (16 R251). -/
  | badCore (c : CoreRef) (inst : Bool) (a : Nat)
  /-- A router goes out of service (15 R247, R248). -/
  | deadRouter (p : Nat)
  /-- A chiplet's copy of cr.time falls a nanosecond behind, or catches up (18 R293). -/
  | copyStays (n : Nat)
  | copyCatches (n : Nat)
  /-- Drift orders that waited for a marker wave (15 R244). -/
  | drifts (chip : Nat)
  /-- The boot ROM starts to fetch (18 R296 step 2). -/
  | bootFetch
  /-- Firmware extends MEAS (18 R298). -/
  | measure (d : BitVec 512)
  /-- The controller retires a tile that meets a condition of 16 R263. -/
  | retire (p : Nat)
  /-- A destroy request or a stop that waited (08 R163, 16 R267). -/
  | settle (ctx : Nat)
  /-- The oldest posted write of a port, a routing table that waits for its router, a queue that waits to be destroyed. -/
  | posted (port : Nat)
  | reroute
  | dequeue (q : Nat)
  /-- A context's log is written to its ring in memory (16 R273). -/
  | logOut (ctx : Nat)
deriving DecidableEq, Repr

/-- The panel. Absent keys of `tiles`, `phys`, `chips`, `mgmts`, `cols`, `ctxs`, `links` mean the reset component;
absent keys of `queues`, `kernels`, `conns`, `acl`, `bar2` mean none. -/
structure State where
  cur : CoreRef
  agenda : List Turn
  time : Nat
  fences : Nat
  mem : List Host.Cell
  tiles : SMap VTile
  phys : SMap PTile
  chips : SMap Chip
  mgmts : SMap Core
  mgmtMem : SMap Mem
  cols : SMap ColEntry
  ctxs : SMap Ctx
  queues : SMap Queue
  kernels : SMap Kernel
  nextKern : Nat
  net : List NetItem
  kicks : List Kick
  pins : SMap Nat
  memMap : List MapRange
  hbm : SMap Hbm
  withheld : List Nat
  acl : SMap W64
  bar2 : SMap (Nat × Nat)
  /-- Since when an agent waits on the BUSY entry of an address (06 R426). -/
  busy : SMap (Nat × Nat)
  posted : List Posted
  /-- Routing tables that wait for their router's packets, or for a drift (15 R250). -/
  rewrites : List (Nat × List Nat)
  /-- The die-to-die edges and the routers that the tables of the whole panel lead around (17 R280); none: X first, then Y. -/
  detour : Option (List Nat × List Nat)
  /-- FENCED edges around which the tables are still to be rewritten, since a drift runs (15 R250, 17 R280). -/
  fenceDue : List Nat
  /-- Stores that wait in a host port until it is trained (17 R277): context, bytes. -/
  outbox : List (Nat × List (Nat × Byte))
  /-- How many ns a chiplet's copy of cr.time is behind, 2 at most (18 R293): by chiplet, 64 + n for I/O chiplet n. -/
  lag : SMap Nat
  /-- Disabled queues whose destroy request waits for their slot (09 R173). -/
  dequeues : List Nat
  /-- The weights of the ageing counters and the limit of the weighted age, once system software has set them (16 R262). -/
  ageRule : Option (List Nat × Nat)
  links : SMap Link
  conns : SMap Conn
  /-- The installed test package (16 R264). -/
  pkg : Option TestPkg
  sysLog : Log
  boot : Boot
  panel : PanelPower
  /-- The answer of the last read through a controller service or a host port. -/
  reply : List W64
deriving DecidableEq, Repr

/-- The reasons a step of the model can stop: an instruction is made to issue on a core that does not exist. Raised by
`step` and the shared issue operation; safe: no hardware state has such a core. -/
inductive Fault where
  /-- The current core, or the agent an event names, lies outside the panel (R2, R10, R11). Safe. -/
  | noSuchCore
deriving DecidableEq, Repr

/-- An instruction whose meaning the model does not have. -/
inductive Refusal where
  /-- The row of the opcode table has no meaning here yet; raised by `exec` only. Safe. -/
  | notModelled (mnemonic : String)
deriving DecidableEq, Repr

/-! ### Reset -/

/-- An invalid zero scalar. -/
def iz : SVal := ⟨0, false⟩

/-- A vector value given lane by lane. -/
def vecMk (f : Nat → Lane) : VVal :=
  #v[f 0, f 1, f 2, f 3, f 4, f 5, f 6, f 7, f 8, f 9, f 10, f 11, f 12, f 13, f 14, f 15]

/-- An invalid zero vector. -/
def vz : VVal := Vector.replicate 16 ⟨0, false⟩

/-- An invalid zero yarn. -/
def yz : YVal := ⟨0, false⟩

/-- A cell holding a settled value. -/
def Cell.mk0 {α : Type} (x : α) : Cell α := ⟨x, 0, none⟩

/-- An empty queue: every age reads the given value (02 R29). -/
def Ring.empty {α : Type} (x : α) : Ring α := ⟨Vector.replicate 16 (Cell.mk0 x), 0⟩

/-- A cleared bank. -/
def Bank.clear : Bank :=
  { q := Ring.empty iz, s := Vector.replicate 16 (Cell.mk0 iz), k := Vector.replicate 4 (Cell.mk0 iz), loops := [] }

/-- The invalid format context (13 R218). -/
def FmtCtx.none : FmtCtx := { valid := false, af := 0, bf := 0, bandA := [], bandB := Option.none }

/-- Cleared registers (02 R39). -/
def Regs.clear : Regs :=
  { norm := Bank.clear, hand := Bank.clear, msg := Bank.clear, p := Vector.replicate 8 (Cell.mk0 iz),
    y := Vector.replicate 8 (Cell.mk0 yz), v := Vector.replicate 8 (Cell.mk0 vz), vq := Ring.empty vz,
    fflags := 0, yund := false, fmt := FmtCtx.none }

/-- No block. -/
def Blk.none : Blk := { hdr := 0, head := 0, words := [], widx := 0, slot := 0 }

/-- A core after reset, in a given phase (02 R39; 22 R385 for the core block). -/
def Core.init (ph : Phase) : Core :=
  { r := Regs.clear, sel := .norm, check := false, trap := 0, taskarg := 0, taskid := 0, kreg := 0, task := none,
    gen := 0, groups := [], phase := ph, blk := Blk.none, flights := [], nextId := 0, watches := [], seq := 0, blocked := false,
    began := none, resume := none, awaits := false, busyAt := none, shadow := none, replay := [], replayTo := 0, msgRec := [], msgTo := 0, msgRun := none,
    steal := { since := 0, waitAt := 0, tries := 0, refusals := 0, victim := none, backoff := false }, stepOnce := false,
    mcause := 0, jbase := 0, ytab := 0, vec := Vector.replicate 4 0, timecmp := 0xffffffffffffffff, mc := false,
    qe := false, inh := false, ien := 0, ienNext := 0, last := 0, retBlk := 0, half := [] }

/-- A barrier after reset (12 R198). -/
def Barrier.init0 : Barrier :=
  { init := false, phase := 0, basea := 0, baseb := 0, expb := 0, cnta := 0, cntb := 0, wait := [] }

/-- A group after reset (11 R192, 12 R208). -/
def Group.init0 : Group :=
  { map := 0, count := 0, allow := 0xffffffff, gph := [], phase := 0, arr := [], wait := [], gwait := [] }

/-- A virtual tile after reset: no context, everything cleared. -/
def VTile.init0 : VTile :=
  { ctx := none, worker := Core.init .idle, feeder := Core.init .idle, handles := [], scrub := [0, 0, 0], bars := [],
    groups := [], chNext := Vector.replicate 4 0, chDone := Vector.replicate 4 0, xfers := [], mq := [], dq := [],
    order := 0, sbuf := [], l1 := [], icache := [], tlb := [], msgs := [], chOut := [], chIn := [], wdq := [],
    fdq := [], waits := [], ytab := 0, ytabNext := none, power := .busy, acked := false }

/-- A physical tile after reset: rows 0-15 serve, row 16 is the spare (01 R22). Tile number: 272 x chiplet + 16 x row +
column. -/
def PTile.init0 (p : Nat) : PTile :=
  { st := if (p % 272) / 16 = 16 then .spare else .serving, reserved := false, temp := 0, age := [], errs := 0,
    faults := [], retention := [], testDue := false, castDue := 0, retire := 0, power := .busy, table := none }

/-- Integrators that have seen nothing. -/
def Integ.init0 : Integ := { last := [], sum := 0, cnt := 0, means := [], pk := 0, avg := 0 }

/-- The power and thermal block after reset (18 R285, R289). -/
def PowerBlk.init0 : PowerBlk :=
  { hot := 0, tmax := 0, dio := 0, dcore := 0, pend := false, en := true, thresh := 0x05f0, thl := 0, capl := 0,
    swl := 0, act := 2000, set := 2000, avglim := 780, pklim := 900, integ := Integ.init0, setmv := 0, mv := 0, gust := .quiet, gen := true, low := 0, tick := 0, gustAt := 0, capmaxAt := 0, trip := false }

/-- A chiplet after reset: both system cores without firmware, core 0 the active one. -/
def Chip.init0 : Chip :=
  { sys0 := Core.init .unloaded, sys1 := Core.init .unloaded, active := 0, aon := [], slots := [], pkb := [],
    gate := [], cmdst := 0, tlb := [], tags := [], zp := [], undo := [], pw := PowerBlk.init0,
    drift := none, interval := 250000, nextCol := 0, driftAt := 0, driftDue := false, driftWait := [],
    failWait := [], lastSlot := [],
    defect := { cast := 0, reason := [], degr := 0, rdead := 0 }, inrush := [], admitted := (0, 0), zeph := none,
    ready := false }

/-- The reset entry of a column: vrn holds n (01 R22). -/
def ColEntry.init0 : ColEntry := #v[0, 1, 2, 3, 4, 5, 6, 7, 8, 9, 10, 11, 12, 13, 14, 15]

/-- An empty log. -/
def Log.empty : Log := { widx := 0, lost := 0, ridx := 0, recs := [], dirty := false }

/-- A context that was never created (08 R150: every field 0). -/
def Ctx.init0 : Ctx :=
  { key := 0, save := 0, root := 0, quantum := 0, vy0 := 0, vx0 := 0, height := 0, width := 0, repro := false,
    rpint := 0, ytab := 0, elog := 0, st := .destroyed, stopFor := none, stopRetry := false,
    waitSave := false, waitDebug := false, destroyReq := false, out := false, imgAt := (0, 0), slots := [], parcel := [], lostPoints := false, image := [], points := [],
    waveRetry := false, resumed := 0, slice := 0, early := false,
    fault := false, immEpoch := none, pktLog := [], again := [], log := Log.empty }

/-- The link carries traffic (17 R277). -/
def Link.carries (x : Link) : Bool := x.st == .up || x.st == .degraded || x.st == .retraining

/-- A link after reset: being trained (18 R296 step 5). -/
def Link.init0 : Link := { st := .training, lanes := 0, tx := 0, rx := 0, wire := 0, acked := 0, since := 0 }

/-- The machine right after reset (18 R296 step 1): the always-on domain is up, cr.time is 0, management core 0 of io0
runs its boot ROM, nothing is loaded, no context exists and memory lists nothing. -/
def State.reset : State :=
  { cur := .mgmt 0 0, agenda := [], time := 0, fences := 0, mem := [], tiles := [], phys := [], chips := [],
    mgmts := [], mgmtMem := [], cols := [], ctxs := [], queues := [], kernels := [], nextKern := 0, net := [],
    kicks := [], pins := [], memMap := [], hbm := [], withheld := [], acl := [], bar2 := [], busy := [], posted := [], rewrites := [], detour := none,
    fenceDue := [], outbox := [], lag := [], dequeues := [], ageRule := none, links := [], conns := [],
    pkg := none, sysLog := Log.empty, boot := { step := 1, fail := false, failAt := 0, meas := 0, body := [], mentry := 0, centry := 0 },
    panel := { integ := Integ.init0, pklim := 66000, avglim := 60000 }, reply := [] }

end Sys2Proof.Machine
end

