-- ==== Sys2Proof/Config.lean ====
section
/-! DEFINITION. What an implementation fixes and the spec leaves open: constants without a body, so that no proof can
see a value of one. Each is named in the assumption log. -/

namespace Sys2Proof

/-- SHA3-512 of a list of bytes (16 R264, 18 R297, R298): named by the spec, its digits are not used by any claim. -/
opaque Config.sha3 : List Byte → BitVec 512

/-- ML-DSA-87 verification of a signature over a digest under a public key (16 R264, 18 R297). -/
opaque Config.mldsaVerify : List Byte → BitVec 512 → List Byte → Bool

/-- ML-DSA-87 signature of a digest by the device identity key (18 R298). -/
opaque Config.mldsaSign : BitVec 512 → List Byte

/-- The fused hash of a boot-key slot (18 R297). -/
opaque Config.bootKeyHash : Nat → BitVec 512

/-- The boot-key slot is revoked (18 R297). -/
opaque Config.bootKeyRevoked : Nat → Bool

/-- The anti-rollback count in fuses (18 R297). -/
opaque Config.antiRollback : Nat

/-- The test-key hashes in fuses (16 R264). -/
opaque Config.testKeyHash : List (BitVec 512)

/-- The panel's ordering code is HK1-P64-48, not HK1-P64-36 (00 R1). -/
opaque Config.is48 : Bool

/-- SERIAL and STEP of the device identity record, and the digest of the identity public key (18 R298). -/
opaque Config.serial : BitVec 64
opaque Config.siliconStep : BitVec 8
opaque Config.identityKey : BitVec 512

/-- STACKGB: the stack capacity in GB (00 R1, 18 R298). -/
def Config.stackGB : Nat := if Config.is48 then 48 else 36

/-- The device identity record (18 R298). -/
def Config.identity : BitVec 1024 :=
  BitVec.ofNat 1024 (Config.serial.toNat * 2 ^ 960 + Config.stackGB * 2 ^ 952 + Config.siliconStep.toNat * 2 ^ 944 +
    Config.identityKey.toNat)

/-- Bytes that a parity quad gives to data: three of its four stacks (16 R259), less the two selvedges of 12 GiB that stand in
them (01 R12, 16 R268). -/
def Config.quadBytes : Nat := 3 * Config.stackGB * 10 ^ 9 - 2 * 12 * 2 ^ 30

/-- The bank that holds a granule of a handle (16 R254 does not say; log 59). -/
opaque Config.bankOf : Nat → Nat → Nat

/-- Where the takeover program keeps its data in always-on SRAM (28 R417 names the labels, not their addresses; log 53): 0 `mcrec`,
1 `dtab`, 2 `jcur`, 3 `smap`. -/
opaque Config.takeoverAt : Nat → Nat

/-- The page frame behind a page number of a system or management core's own tables, beyond its own memory (21 R364 names these
tables, no rule gives their contents; log 12); none where it maps none. -/
opaque Config.ownMap : Nat → Nat → Option Nat

/-- The bytes of the two parts of a save slot whose entries no rule lays out (08 R151): 4 the wait list, 10 the carried commands
and the footprints (log 39); and what a tile is loaded from. -/
opaque Config.slotPart : Nat → Machine.VTile → List Byte
opaque Config.slotLoad : List Byte → Option Machine.VTile

/-- The bytes of a delta, of which the seal record holds the digest (16 R268). -/
opaque Config.deltaBytes : SMap Machine.VTile → List Byte

/-- The status that a request other than a creation returns (08 R152 gives no codes; log 55): a number for the kind of the request, and
whether it was carried out or will be. -/
opaque Config.reqStatus : Nat → Bool → BitVec 64

/-- A chiplet's calibrated supply setpoint of a clock step in MHz, in mV, before the limits of 18 R288. -/
opaque Config.vfTable : Nat → Nat → Nat

/-- The peer identity of this panel on the scale-up fabric (17 R282). -/
opaque Config.selfPeer : Nat

/-- The CRC-64 of a Zwimopor flit (17 R282 names no polynomial). -/
opaque Config.crc64 : List Byte → BitVec 64

/-- The connection that carries a context's stores to an address of a peer's memory, and the payload of their data flit; the payload of
the one that brings a peer the old value of its add (17 R282 gives no layout; 10 R188, 09 R168; log 16). -/
opaque Config.connOf : Nat → Nat → Option Nat
opaque Config.peerStore : List (Nat × BitVec 8) → List (BitVec 8)
opaque Config.peerOld : Nat → BitVec 64 → List (BitVec 8)

/-- What the payload of a peer's data flit asks for (17 R282 gives no layout): queue, byte of its ring, whether the eight
bytes are added, and the bytes. -/
opaque Config.peerWrite : List Byte → Nat × Nat × Bool × List Byte

/-- The scale-up ports that lead to a peer (17 R284). -/
opaque Config.peerPorts : Nat → List Nat

/-- The host port that carries a context's stores to an address outside the panel; none where a peer lies there (07 R148). -/
opaque Config.hostPort : Nat → Nat → Option Nat

/-- A controller service that an access through BAR0 reaches (17 R281): one of the requests that are events of their own,
setting a BAR2 aperture of a host port to a context and a virtual base, lowering a panel limit (18 R289), reading an entry of the column
translation table (01 R21), a context's record (08 R150), a queue's descriptor (09 R164), a tile's status (15 R236), a chiplet's defect record (15 R247), a tile's ageing counters (16 R262) or a
chiplet's table of supply setpoints (18 R288), and setting the weights and the limit of the weighted age. -/
inductive Service where
  | request (i : Instr)
  | aperture (port k ctx base : Nat)
  | panelPeak (watts : Nat)
  | panelMean (watts : Nat)
  | column (k : Nat)
  | context (n : Nat)
  | queue (q : Nat)
  | tileStatus (p : Nat)
  | defects (chip : Nat)
  | ageing (p : Nat)
  | supply (chip : Nat)
  | ageRule (weights : List Nat) (limit : Nat)
deriving DecidableEq, Repr

/-- The service behind an offset of BAR0 other than the boot status word, for a read or for written bytes (17 R281 gives
no layout). -/
opaque Config.bar0 : Nat → Option (List Byte) → Option Service

/-- The queue and the byte of its ring header behind an offset of BAR4 (17 R281 gives no layout). -/
opaque Config.bar4 : Nat → Nat × Nat

/-- The kind and DETAIL of the record of a fault outside any context's tiles (16 R252 has it logged, R275 names no kind for it; log 61):
by chiplet. -/
opaque Config.freeFault : Nat → Nat × BitVec 224

/-- The reason code recorded for the hard failure of a serving tile (15 R247 names none for it). -/
opaque Config.hardReason : Nat

end Sys2Proof
end

