-- ==== Sys2Proof/Machine/Ops.lean ====
section
/-! DEFINITION. Named operations over the state: sparse tables and memories, the agents, the logs, ending a task,
taking a trap (02 R37, 10 R184-R187) or a machine check (22 R386, R390, R391), and the return from one. -/

namespace Sys2Proof.Machine

/-! ### Sparse tables and memories -/

/-- The entry of a key, if it is listed. -/
def mfind {α : Type} : SMap α → Nat → Option α
  | [], _ => none
  | (a, x) :: r, k => if a = k then some x else mfind r k

/-- The entry of a key, or the value an absent key stands for. -/
def mget {α : Type} (d : α) (m : SMap α) (k : Nat) : α := (mfind m k).getD d

/-- Setting the entry of a key; keys stay in rising order. -/
def mput {α : Type} : SMap α → Nat → α → SMap α
  | [], k, x => [(k, x)]
  | (a, y) :: r, k, x =>
    if k < a then (k, x) :: (a, y) :: r else if a = k then (k, x) :: r else (a, y) :: mput r k x

/-- Changing every listed entry. -/
def mmapv {α β : Type} (f : α → β) : SMap α → SMap β
  | [] => []
  | (k, x) :: r => (k, f x) :: mmapv f r

/-- A cache of 64 KiB, 1,024 lines of 64 bytes (01 R15), with one more line: the one with the lowest address gives way to it, if
there is no room (which one is the model's choice, log 11). -/
def lineFill {α : Type} (m : SMap α) (k : Nat) (x : α) : SMap α := mput (if m.length < 1024 then m else m.drop 1) k x

/-- Removing a key. -/
def mdel {α : Type} (m : SMap α) (k : Nat) : SMap α := m.filter (fun e => e.1 != k)

/-- The byte at an address: 0 where nothing is listed (log 2). -/
def memRead : Mem → Nat → Byte
  | [], _ => 0
  | (a, b) :: r, k => if a = k then b else memRead r k

/-- Removing the entry of an address. -/
def memErase : Mem → Nat → Mem
  | [], _ => []
  | (a, b) :: r, k => if a = k then r else (a, b) :: memErase r k

/-- Inserting a byte at its place. -/
def memInsert : Mem → Nat → Byte → Mem
  | [], k, x => [(k, x)]
  | (a, b) :: r, k, x =>
    if k < a then (k, x) :: (a, b) :: r else if a = k then (k, x) :: r else (a, b) :: memInsert r k x

/-- Writing a byte: the canonical form is kept, a zero byte leaves no entry. -/
def memWrite (m : Mem) (k : Nat) (x : Byte) : Mem := if x = 0 then memErase m k else memInsert m k x

/-- The n bytes from an address on. -/
def memReadN (m : Mem) (a : Nat) : Nat → List Byte
  | 0 => []
  | n + 1 => memRead m a :: memReadN m (a + 1) n

/-- Writing bytes from an address on. -/
def memWriteN (m : Mem) (a : Nat) : List Byte → Mem
  | [] => m
  | b :: bs => memWriteN (memWrite m a b) (a + 1) bs

/-- Writing bytes at listed addresses. -/
def memWriteL (m : Mem) : List (Nat × Byte) → Mem
  | [] => m
  | (a, b) :: bs => memWriteL (memWrite m a b) bs

/-- The little-endian number of the n bytes from an address on (03 R44). -/
def memReadLE (m : Mem) (a n : Nat) : Nat := leNat (memReadN m a n)

/-- The canonical form: addresses strictly rising from a bound on, no entry that an unlisted address reads as. -/
def memWfFrom : Nat → Mem → Bool
  | _, [] => true
  | lo, (a, b) :: r => lo <= a && b != 0 && memWfFrom (a + 1) r

/-- The canonical form of a memory. -/
def memWf (m : Mem) : Bool := memWfFrom 0 m

/-- An increasing list of numbers with one more. -/
def setIns : List Nat → Nat → List Nat
  | [], k => [k]
  | a :: r, k => if k < a then k :: a :: r else if a = k then a :: r else a :: setIns r k

/-- A list without one number. -/
def setDel (l : List Nat) (k : Nat) : List Nat := l.filter (· != k)

/-- The list with its k-th element replaced. -/
def setAt {α : Type} : List α → Nat → α → List α
  | [], _, _ => []
  | _ :: r, 0, y => y :: r
  | x :: r, k + 1, y => x :: setAt r k y

/-- The list without its k-th element. -/
def delAt {α : Type} : List α → Nat → List α
  | [], _ => []
  | _ :: r, 0 => r
  | x :: r, k + 1 => x :: delAt r k

/-- The numbers from a bound on, n of them. -/
def rangeFrom (a : Nat) : Nat → List Nat
  | 0 => []
  | n + 1 => a :: rangeFrom (a + 1) n

/-! ### Agents -/

/-- The chiplet number 8 x cy + cx of a virtual tile 128 x ay + ax (01 R18). -/
def chipOf (t : Nat) : Nat := 8 * (t / 128 / 16) + t % 128 / 16

/-- The index of a tile's column in the column translation table (01 R21). -/
def colOf (t : Nat) : Nat := 16 * chipOf t + t % 16

/-- The virtual row of a tile in its column (01 R18). -/
def vrOf (t : Nat) : Nat := t / 128 % 16

/-- The kinds of cores that R68 tells apart. -/
inductive CoreKind where
  | worker | feeder | sysm
deriving DecidableEq, Repr

/-- The kind of a core. -/
def kindOf : CoreRef → CoreKind
  | .worker _ => .worker
  | .feeder _ => .feeder
  | _ => .sysm

/-- The core exists on the panel (01 R10, R11, R18). -/
def coreExists : CoreRef → Bool
  | .worker t => t < 16384
  | .feeder t => t < 16384
  | .sys chip k => chip < 64 && k < 2
  | .mgmt io k => io < 4 && k < 4

def State.tile (s : State) (t : Nat) : VTile := mget VTile.init0 s.tiles t
def State.setTile (s : State) (t : Nat) (x : VTile) : State := { s with tiles := mput s.tiles t x }
def State.chip (s : State) (n : Nat) : Chip := mget Chip.init0 s.chips n
def State.setChip (s : State) (n : Nat) (x : Chip) : State := { s with chips := mput s.chips n x }
def State.ptile (s : State) (p : Nat) : PTile := mget (PTile.init0 p) s.phys p
def State.setPtile (s : State) (p : Nat) (x : PTile) : State := { s with phys := mput s.phys p x }
def State.ctx (s : State) (n : Nat) : Ctx := mget Ctx.init0 s.ctxs n
def State.setCtx (s : State) (n : Nat) (x : Ctx) : State := { s with ctxs := mput s.ctxs n x }
def State.colE (s : State) (n : Nat) : ColEntry := mget ColEntry.init0 s.cols n
def State.link (s : State) (n : Nat) : Link := mget Link.init0 s.links n
def State.setLink (s : State) (n : Nat) (x : Link) : State := { s with links := mput s.links n x }
def State.setKern (s : State) (n : Nat) (x : Kernel) : State := { s with kernels := mput s.kernels n x }

/-- A core of the state. -/
def State.core (s : State) : CoreRef → Core
  | .worker t => (s.tile t).worker
  | .feeder t => (s.tile t).feeder
  | .sys chip k => if k = 0 then (s.chip chip).sys0 else (s.chip chip).sys1
  | .mgmt io k => mget (Core.init .unloaded) s.mgmts (4 * io + k)

/-- Replacing a core. -/
def State.setCore (s : State) (c : CoreRef) (x : Core) : State :=
  match c with
  | .worker t => s.setTile t { s.tile t with worker := x }
  | .feeder t => s.setTile t { s.tile t with feeder := x }
  | .sys chip k =>
    if k = 0 then s.setChip chip { s.chip chip with sys0 := x } else s.setChip chip { s.chip chip with sys1 := x }
  | .mgmt io k => { s with mgmts := mput s.mgmts (4 * io + k) x }

/-- Changing a core. -/
def State.modCore (s : State) (c : CoreRef) (f : Core → Core) : State := s.setCore c (f (s.core c))

/-- Changing a tile. -/
def State.modTile (s : State) (t : Nat) (f : VTile → VTile) : State := s.setTile t (f (s.tile t))

/-- Changing a chiplet. -/
def State.modChip (s : State) (n : Nat) (f : Chip → Chip) : State := s.setChip n (f (s.chip n))

/-- Changing a context. -/
def State.modCtx (s : State) (n : Nat) (f : Ctx → Ctx) : State := s.setCtx n (f (s.ctx n))

/-- Changing a kernel, if it exists. -/
def State.modKern (s : State) (n : Nat) (f : Kernel → Kernel) : State :=
  match mfind s.kernels n with
  | some k => s.setKern n (f k)
  | none => s

/-- The tile of a tile core. -/
def tileOf : CoreRef → Nat
  | .worker t => t
  | .feeder t => t
  | _ => 0

/-- The chiplet whose always-on domain or tiles hold the core. -/
def chipOfCore : CoreRef → Nat
  | .worker t => chipOf t
  | .feeder t => chipOf t
  | .sys chip _ => chip
  | .mgmt _ _ => 0

/-- A core's number among the agents that carry tags (16 R258). -/
def agentNo : CoreRef → Nat
  | .worker t => 2 * t
  | .feeder t => 2 * t + 1
  | .sys chip k => 40000 + 2 * chip + k
  | .mgmt io k => 41000 + 4 * io + k

/-- The context a tile core works for. -/
def State.ctxOfCore (s : State) (c : CoreRef) : Option Nat :=
  match c with
  | .worker t => (s.tile t).ctx
  | .feeder t => (s.tile t).ctx
  | _ => none

/-- The context record behind a tile, or the empty one. -/
def State.ctxOfTile (s : State) (t : Nat) : Ctx :=
  match (s.tile t).ctx with
  | some n => s.ctx n
  | none => Ctx.init0

/-- The panel-absolute tile of a partition coordinate (01 R20). -/
def absTile (x : Ctx) (vx vy : Nat) : Nat := 128 * (x.vy0 + vy) + (x.vx0 + vx)

/-- VY and VX of a tile within its context's partition, laid out as cr.vtile (02 R35). -/
def State.vtileBits (s : State) (t : Nat) : BitVec 16 :=
  let x := s.ctxOfTile t
  BitVec.ofNat 16 ((t / 128 - x.vy0) % 256 * 256 + (t % 128 - x.vx0) % 256)

/-- The virtual tiles of a context's partition (01 R19), in row-major order. -/
def ctxTiles (x : Ctx) : List Nat :=
  (rangeFrom 0 x.height).flatMap (fun vy => (rangeFrom 0 x.width).map (fun vx => absTile x vx vy))

/-- The compute chiplets of a context's partition. -/
def ctxChips (x : Ctx) : List Nat :=
  (rangeFrom (x.vy0 / 16) (x.height / 16)).flatMap (fun cy =>
    (rangeFrom (x.vx0 / 16) (x.width / 16)).map (fun cx => 8 * cy + cx))

/-- The two cores of a tile. -/
def tileCores (t : Nat) : List CoreRef := [.worker t, .feeder t]

/-- The physical tile behind a virtual tile, if a row serves it (01 R18, R22). -/
def State.physOf (s : State) (t : Nat) : Option Nat :=
  let r := ((s.colE (colOf t)).toList.getD (vrOf t) 31).toNat
  if r = 31 then none else some (272 * chipOf t + 16 * r + t % 16)

/-! ### Logs (16 R273-R275) -/

/-- Pieces of a DETAIL field at their bit positions of the record (bit 128 is the lowest). -/
def detail (l : List (Nat × Nat)) : BitVec 224 :=
  BitVec.ofNat 224 (l.foldl (fun a e => a + e.2 * 2 ^ (e.1 - 128)) 0)

/-- Folding a like event into a record of the last millisecond (R274). -/
def foldRec (kind : Nat) (vt : BitVec 16) (d : BitVec 224) (now : Nat) : List LogRec → Option (List LogRec)
  | [] => none
  | r :: rs =>
    if r.kind = kind ∧ r.vtile = vt ∧ r.detail = d ∧ now ≤ r.time + 1000000 then
      some ({ r with count := min (r.count + 1) 0xffff } :: rs)
    else (foldRec kind vt d now rs).map (r :: ·)

/-- Writing one record to a log of `cap` records (R273). -/
def logAdd (cap : Nat) (l : Log) (kind : Nat) (vt : BitVec 16) (core ctxn now : Nat) (d : BitVec 224)
    (trap : BitVec 128) : Log :=
  match foldRec kind vt d now l.recs with
  | some rs => { l with recs := rs, dirty := true }
  | none =>
    if l.widx - l.ridx < cap then
      { l with widx := l.widx + 1, dirty := true,
               recs := { kind := kind, count := 1, seq := BitVec.ofNat 32 l.widx, time := now, vtile := vt,
                         core := core, ctxn := ctxn, detail := d, trap := trap } :: l.recs }
    else { l with lost := l.lost + 1, dirty := true }

/-- A record in a context's error log. -/
def State.logCtx (s : State) (n kind : Nat) (vt : BitVec 16) (core : Nat) (d : BitVec 224) (trap : BitVec 128) :
    State :=
  s.modCtx n (fun x => { x with log := logAdd 16383 x.log kind vt core 0 s.time d trap })

/-- A record in the system event log. -/
def State.logSys (s : State) (kind core ctxn : Nat) (d : BitVec 224) : State :=
  { s with sysLog := logAdd 65535 s.sysLog kind 0 core ctxn s.time d 0 }

/-- A record in the error log of a tile's context. -/
def State.logTile (s : State) (t kind core : Nat) (d : BitVec 224) : State :=
  match (s.tile t).ctx with
  | some n => s.logCtx n kind (s.vtileBits t) core d 0
  | none => s

/-! ### Interrupt state of system and management cores (22 R385) -/

/-- Some ALERT has PEND 1 and names this core. -/
def State.thPending (s : State) (c : CoreRef) : Bool :=
  match c with
  | .mgmt io k => s.chips.any (fun e => e.2.pw.pend && e.2.pw.dio == io && e.2.pw.dcore == k)
  | _ => false

/-- The chiplet whose copy of cr.time a core reads. -/
def clockNo (c : CoreRef) : Nat :=
  match c with
  | .mgmt io _ => 64 + io
  | _ => chipOfCore c

/-- cr.time as a core reads it (18 R293). -/
def State.clock (s : State) (c : CoreRef) : Nat := s.time - min 2 (mget 0 s.lag (clockNo c))

/-- cr.time has reached CMP. -/
def State.tmPending (s : State) (c : CoreRef) : Bool := decide ((s.core c).timecmp.toNat ≤ s.clock c)

/-- MC is set, or an enabled bit of IPEND is set (R386, R389). -/
def State.wakeBit (s : State) (c : CoreRef) : Bool :=
  let x := s.core c
  x.mc || (x.ien.getLsbD 1 && s.thPending c) || (x.ien.getLsbD 2 && x.qe) || (x.ien.getLsbD 0 && s.tmPending c)

/-- Raising QE on a chiplet's active system core (R385). -/
def State.raiseQE (s : State) (chip : Nat) : State :=
  s.modCore (.sys chip (s.chip chip).active) (fun x => { x with qe := true })

/-- A wait on a BUSY entry (06 R123) of the instruction held at issue, or of a block entry. -/
def State.busyWait (s : State) (c : CoreRef) (va : W64) : State :=
  s.modCore c (fun x => { x with busyAt := some (va, match x.busyAt with
    | some (a, t) => if a = va then t else s.time
    | none => s.time) })

/-! ### Halting and machine checks (22 R386, R390, R391) -/

/-- A cr.mcause value. -/
def mcauseVal (kind code : Nat) (peer : Bool) (addr : W64) : W64 :=
  BitVec.ofNat 64 (kind * 2 ^ 60 + code * 2 ^ 56 + (if peer then 2 ^ 55 else 0) + addr.toNat % 2 ^ 53)

/-- Stopping a core for good (R390): a half-written journal record is discarded (28 R421); the active system core's
duties pass to the standby core, on which MC is raised; a management core's halt is logged. -/
def State.haltCore (s : State) (c : CoreRef) (cause : W64) : State :=
  let s := s.modCore c (fun x => { x with phase := .halted, half := [], mc := false })
  match c with
  | .sys chip k =>
    if (s.chip chip).active = k then
      let o := 1 - k
      let s := s.modChip chip (fun x => { x with active := o })
      -- a machine check under INH halts that core as well
      s.modCore (.sys chip o) (fun x => { x with mc := !x.inh, mcause := cause ||| (1 <<< 55),
                                                 phase := if x.inh then .halted else x.phase,
                                                 half := if x.inh then [] else x.half })
    else s
  | .mgmt io k => s.logSys 0x0026 4 0 (detail [(350, io), (348, k)])
  | _ => s

/-- Taking an interrupt (R386): the return block and the loop stack are kept in the normal bank, INH and LAST are set,
the handler bank is cleared and the vector's block is entered. -/
def Core.interrupt (x : Core) (vec : Nat) (ret : W64) : Core :=
  { x with retBlk := ret, inh := true, last := BitVec.ofNat 2 vec, sel := .hand,
           r := { x.r with hand := Bank.clear },
           mc := if vec = 3 then false else x.mc,
           phase := .entering (x.vec.toList.getD vec 0) .interrupt, half := if vec = 3 then [] else x.half }

/-- The header that follows the core's block (03 R46). -/
def Blk.next (b : Blk) : W64 :=
  let len := ((b.head >>> 48) &&& 0xff).toNat
  b.hdr + BitVec.ofNat 64 (8 + 4 * (len + len % 2))

/-- A machine check taken at once (R386, R391): under INH it halts the core. -/
def State.machineCheck (s : State) (c : CoreRef) (cause ret : W64) : State :=
  let s := s.modCore c (fun x => { x with mcause := cause })
  if (s.core c).inh then s.haltCore c cause
  else s.modCore c (fun x => (x.interrupt 3 ret))

/-! ### Routing tables (15 R249) -/

/-- A router's position: panel column 0-127 and physical row 0-135, counted southward. -/
def routerPos (p : Nat) : Nat × Nat := (16 * (p / 272 % 8) + p % 16, 17 * (p / 272 / 8) + p % 272 / 16)

/-- The router at a position. -/
def routerAt (x y : Nat) : Nat := 272 * (8 * (y / 17) + x / 16) + 16 * (y % 17) + x % 16

/-- The reset route, X first, then Y: 0 reached, 1 north, 2 east, 3 south, 4 west. -/
def resetRoute (p d : Nat) : Nat :=
  let q := routerPos p
  if q.1 < d % 128 then 2 else if d % 128 < q.1 then 4
  else if q.2 / 17 < d / 128 then 3 else if d / 128 < q.2 / 17 then 1 else 0

/-! Tables that lead around FENCED edges and dead routers, west-first (17 R280, 15 R249; log 62). A set of rows of one panel
column is a number: bit y stands for physical row y. `e`: the closed edges, 4 x chiplet + side; `dead`: the routers. -/

/-- The rows that satisfy a condition. -/
def rowSet (f : Nat → Bool) : Nat := (rangeFrom 0 136).foldl (fun m y => if f y then m + 2 ^ y else m) 0

/-- The chiplet at a position. -/
def chipAt (x y : Nat) : Nat := 8 * (y / 17) + x / 16

/-- Live routers of a column; hops open to the south, and to the east. -/
def liveRows (dead : List Nat) (x : Nat) : Nat := rowSet (fun y => !dead.contains (routerAt x y))
def southRows (e : List Nat) (x : Nat) : Nat := rowSet (fun y => !(y % 17 == 16 && e.contains (4 * chipAt x y + 2)))
def eastRows (e : List Nat) (x : Nat) : Nat := rowSet (fun y => !(x % 16 == 15 && e.contains (4 * chipAt x y + 1)))

/-- The rows of a column that hops north and south within it join to some rows of it. -/
def joinRows (live south : Nat) : Nat → Nat → Nat
  | 0, m => m
  | n + 1, m => joinRows live south n ((m ||| ((m &&& south) <<< 1) ||| ((m >>> 1) &&& south)) &&& live)

/-- From which rows of the columns x - k to x, the westmost first, hops north, south and east lead to chiplet row cy of column x. -/
def goodRows (e dead : List Nat) (x cy : Nat) : Nat → List Nat
  | 0 => [joinRows (liveRows dead x) (southRows e x) 136 (liveRows dead x &&& rowSet (fun y => y / 17 == cy))]
  | k + 1 =>
    let l := goodRows e dead x cy k
    let c := x - (k + 1)
    joinRows (liveRows dead c) (southRows e c) 136 (liveRows dead c &&& eastRows e c &&& l.headD 0) :: l

/-- How far off the first row of a set is, by hops in one direction; none where they do not reach it. -/
def seekRow (live south goal : Nat) (up : Bool) : Nat → Nat → Option Nat
  | 0, _ => none
  | n + 1, y =>
    if goal.testBit y then some 0
    else if up then
      if y = 0 || !south.testBit (y - 1) || !live.testBit (y - 1) then none
      else (seekRow live south goal up n (y - 1)).map (· + 1)
    else if !south.testBit y || !live.testBit (y + 1) then none
    else (seekRow live south goal up n (y + 1)).map (· + 1)

/-- The entry of a table that leads around them: west until hops north, south and east suffice; then to the nearest row of the
column from which the next column, or the destination, can be reached. -/
def detourRoute (e dead : List Nat) (p d : Nat) : Nat :=
  let x := (routerPos p).1
  let y := (routerPos p).2
  let dx := d % 128
  if x = dx ∧ y / 17 = d / 128 then 0
  else if dx < x then 4
  else
    let l := goodRows e dead dx (d / 128) (dx - x)
    if !(l.headD 0).testBit y then 4
    else
      let goal := if x = dx then rowSet (fun r => r / 17 == d / 128) else eastRows e x &&& (l.drop 1).headD 0
      if goal.testBit y then 2
      else match seekRow (liveRows dead x) (southRows e x) goal true 136 y, seekRow (liveRows dead x) (southRows e x) goal false 136 y with
        | some a, some b => if a ≤ b then 1 else 3
        | some _, none => 1
        | none, _ => 3

/-- Rows of a column from which such a table reaches a destination column, from the columns further west on. -/
def reachRows (e dead good : List Nat) : Nat → Nat
  | 0 => good.headD 0
  | x + 1 => liveRows dead (x + 1) &&& (good.getD (x + 1) 0 ||| (reachRows e dead good x &&& eastRows e x))

/-- Such a table reaches every destination from every live router. -/
def detourGood (e dead : List Nat) : Bool :=
  (rangeFrom 0 1024).all (fun d =>
    let good := goodRows e dead (d % 128) (d / 128) (d % 128)
    (rangeFrom 0 128).all (fun x => reachRows e dead good x == liveRows dead x))

/-- The entry of a router for a destination column 128 x cy + 16 x cx + col. -/
def State.route (s : State) (p d : Nat) : Nat :=
  match (s.ptile p).table, s.detour with
  | some l, _ => l.getD d 15
  | none, some (e, dead) => detourRoute e dead p d
  | none, none => resetRoute p d

/-- The next router in a direction, within the panel. -/
def stepDir (p dir : Nat) : Option Nat :=
  let q := routerPos p
  match dir with
  | 1 => if q.2 = 0 then none else some (routerAt q.1 (q.2 - 1))
  | 2 => if 127 ≤ q.1 then none else some (routerAt (q.1 + 1) q.2)
  | 3 => if 135 ≤ q.2 then none else some (routerAt q.1 (q.2 + 1))
  | 4 => if q.1 = 0 then none else some (routerAt (q.1 - 1) q.2)
  | _ => none

/-- More hops than a way through the panel can have. -/
def nHops : Nat := 17408

/-- The routers on the way to a destination column, from one on: to the one that delivers within the column. -/
def State.way (s : State) (d : Nat) : Nat → Nat → List Nat
  | 0, _ => []
  | n + 1, p => match stepDir p (s.route p d) with
    | some q => p :: State.way s d n q
    | none => [p]

/-- The die-to-die link between two routers next to each other (4 x chiplet + side, as in EvLink), unless they stand on one chiplet. -/
def linkBetween (p q : Nat) : Option Nat :=
  if p / 272 = q / 272 then none
  else
    let a := routerPos p
    let b := routerPos q
    some (4 * (p / 272) + (if b.2 < a.2 then 0 else if a.1 < b.1 then 1 else if a.2 < b.2 then 2 else 3))

/-- The die-to-die links on the way, each with the router behind it. -/
def State.crossings (s : State) (d p : Nat) : List (Nat × Nat) :=
  let w := s.way d nHops p
  (w.zip (w.drop 1)).filterMap (fun e => (linkBetween e.1 e.2).map (fun l => (l, e.2)))

/-- Traffic for a destination column passes a router, from another one on. -/
def State.passes (s : State) (d x p : Nat) : Bool := (s.way d nHops p).contains x

/-- RDEAD of a router. -/
def State.routerDead (s : State) (p : Nat) : Bool := (s.chip (p / 272)).defect.rdead.getLsbD (p % 272)

/-- The way leads through a router out of service, other than within the destination column, where the drift bus takes the last hop
(15 R248). -/
def State.deadWay (s : State) (d p : Nat) : Bool :=
  s.chips.any (fun h => h.2.defect.rdead != 0) && (s.way d nHops p).dropLast.any s.routerDead

/-- A router on the way holds new traffic for a destination: it is out of service, or its entry is about to change (15 R248, R250); while
the tables of the panel are to lead around a FENCED edge, what is to leave its chiplet waits (17 R280). -/
def State.wayHeld (s : State) (d p : Nat) : Bool :=
  s.deadWay d p || (!s.fenceDue.isEmpty && p / 272 != 8 * (d / 128) + d % 128 / 16) || (match s.rewrites with
    | (x, tab) :: _ => s.route x d != tab.getD d 15 && s.passes d x p
    | [] => false)

/-- The router that injects a tile's traffic, and the destination column of traffic for a tile (01 R21). -/
def State.routerOf (s : State) (t : Nat) : Nat := (s.physOf t).getD (272 * chipOf t + 16 * vrOf t + t % 16)
def destCol (t : Nat) : Nat := 128 * (chipOf t / 8) + t % 128

/-! ### Ending a task (10 R184) and trapping (02 R37, 10 R185-R187) -/

/-- An item goes on from the router where it stands: to the next die-to-die link of its way, whose next number it takes (17 R279), or to
its destination; or a router holds it. -/
def State.onward (s : State) (x : NetItem) : State × NetItem :=
  let d := destCol x.dst
  if s.wayHeld d x.hop then (s, { x with flit := none, parked := true })
  else match (s.crossings d x.hop).head? with
    | some (l, q) =>
      (s.setLink l { s.link l with tx := (s.link l).tx + 1 }, { x with flit := some (l, (s.link l).tx), hop := q, parked := false })
    | none => (s, { x with flit := none, parked := false })

/-- One more item of a channel between two tiles (07 R144): its number is the channel's next. `k`: the kernel it belongs to;
`n`: the flights of its core that issued before it are those numbered below n. -/
def State.sendAt (s : State) (src dst cls : Nat) (c : CoreRef) (id : Nat) (body : NetBody) (k : Option Nat) (n : Nat) :
    State :=
  let key := dst * 8 + cls
  let tl := s.tile src
  let seq := mget 0 tl.chOut key
  let s := s.setTile src { tl with chOut := mput tl.chOut key ((seq + 1) % 2 ^ 24) }
  let r := s.onward ⟨src, dst, cls, seq, c, id, body, k, n, none, s.routerOf src, false⟩
  { r.1 with net := r.1.net ++ [r.2] }

/-- The kernel whose task issues what a core issues now: of a stitch message, its sender's (07 R134). -/
def Core.kernNow (x : Core) : Option Nat :=
  if x.sel = .msg then x.msgRun.bind (·.1.kern) else x.task.map (·.kern)

/-- An item that its core sends now. -/
def State.sendItem (s : State) (src dst cls : Nat) (c : CoreRef) (id : Nat) (body : NetBody) : State :=
  s.sendAt src dst cls c id body (s.core c).kernNow (s.core c).nextId

/-! ### Results in flight, and what a release waits for (03 R57, 07 R141, R142) -/

/-- A flight with nothing awaited and no result yet. -/
def Flight.base : Flight :=
  { id := 0, bank := .norm, cls := .s, dst := 31, shape := .scalar 8 false, kind := .plain, res := none, acq := none,
    flags := 0, yund := false, lda := false, hold := false, flagger := false, kern := none, hdr := 0, word := 0,
    since := none, trs := [] }

/-- A flight of the accesses that the instruction at hand follows in program order: those of a stitch message are the
message's own (07 R135, R145). -/
def Core.mine (x : Core) (f : Flight) : Bool := (f.bank == .msg) == (x.sel == .msg)

/-- An access at a handle other than a store. -/
def RemOp.reads : RemOp → Bool
  | .store _ _ _ => false
  | _ => true

/-- A load: it writes nothing. -/
def RemOp.loads : RemOp → Bool
  | .load _ _ => true
  | _ => false

/-- An access of a system or management core other than a store. -/
def OwnOp.reads : OwnOp → Bool
  | .st _ _ _ => false
  | _ => true

/-- What a held access reads: its value is due. -/
def HeldOp.isRead : HeldOp → Bool
  | .ld _ _ => true
  | .atom _ => true
  | .bank _ _ op => op.reads
  | .acc _ _ _ op => op.reads
  | .grp _ _ => true
  | .launch _ _ _ _ _ => true
  | .own _ _ op => op.reads
  | _ => false

/-- A flight that is a read of memory, an atomic, or another access whose value or effect is still due. -/
def Flight.isAccess (f : Flight) : Bool :=
  match f.kind with
  | .plain => false
  | .halloc _ _ _ => false
  | .hwin _ _ _ _ _ => false
  | .xwait _ _ => false
  | .bwait => false
  | .tlbinv _ _ _ => false
  | _ => f.res.isNone

/-- A flight whose value is still due: a read or an atomic, or a wait that an answer ends. -/
def Flight.isRead (f : Flight) : Bool :=
  f.isAccess && (match f.kind with
    | .held h => h.op.isRead
    | .gate _ _ => false
    | _ => true)

/-- An access that has issued and is held. -/
def Flight.isHeld (f : Flight) : Bool :=
  match f.kind with
  | .held _ => true
  | _ => false

/-- Some earlier read, atomic or wait of the core does not have its value yet: no write may be performed (07 R143). -/
def Core.openAcc (x : Core) : Bool := x.flights.any (fun f => x.mine f && f.isRead)

/-- Some earlier access of the core is not performed yet. -/
def Core.openAny (x : Core) : Bool := x.flights.any (fun f => x.mine f && f.isAccess)

/-- A global load that does not have its value yet. -/
def Flight.isOpenLoad (f : Flight) : Bool :=
  match f.kind with
  | .load _ _ => f.res.isNone
  | .table _ _ _ _ _ _ => f.res.isNone
  | .window _ _ => f.res.isNone
  | .busy _ _ => f.res.isNone
  | .atomic _ => f.res.isNone
  | .held h => (match h.op with
    | .ld _ _ => true
    | .atom _ => true
    | _ => false)
  | _ => false

/-- An acquire of the core has not had its effect yet. -/
def Core.acqOpen (x : Core) : Bool := x.flights.any (fun f => x.mine f && f.acq.isSome)

/-- A later access of the core is held: behind an acquire that has not had its effect yet (R142), or among accesses that are
held already. -/
def Core.acqPending (x : Core) : Bool := x.flights.any (fun f => x.mine f && (f.acq.isSome || f.isHeld))

/-- Whether a core is the feeder. -/
def isFeeder (c : CoreRef) : Bool :=
  match c with
  | .feeder _ => true
  | _ => false

/-- A core's buffered stores. -/
def State.buffered (s : State) (c : CoreRef) : Bool :=
  match kindOf c with
  | .sysm => false
  | _ => (s.tile (tileOf c)).sbuf.any (fun e => e.feeder == isFeeder c)

/-- The store buffer of a core's tile holds a store of either core (07 R142). -/
def State.bufferedTile (s : State) (c : CoreRef) : Bool :=
  match kindOf c with
  | .sysm => false
  | _ => !(s.tile (tileOf c)).sbuf.isEmpty

/-- The flights of a core that issued before one of its own and are not a stitch message's (07 R135). -/
def Core.before (x : Core) (id : Nat) : List Flight := x.flights.filter (fun f => decide (f.id < id) && f.bank != .msg)

/-- What a core itself sends: remote accesses, messages and group requests, as opposed to an engine's multicasts. -/
def NetBody.ofCore : NetBody → Bool
  | .acc _ _ _ => true
  | .msg _ => true
  | .grp _ => true
  | _ => false

/-- Everything that travels between tiles, with what a drift holds (15 R240, R241). -/
def State.traffic (s : State) : List NetItem :=
  s.net ++ s.chips.flatMap (fun e => match e.2.drift with
    | some d => d.held ++ d.direct
    | none => [])

/-- A core's remote accesses, messages and group requests that their destination has not applied or queued. -/
def State.outgoing (s : State) (c : CoreRef) : Bool := s.traffic.any (fun i => decide (i.c = c) && i.body.ofCore)

/-- A scope of GROUP or more (R141). -/
def wide (scope : Nat) : Bool := 2 ≤ scope

/-- What a release at a place in program order waits for (R141): every read before it has its value, every write and atomic
before it is performed. With a wide scope the store buffer is drained: of the core's own stores up to it, and of all of the other
core's, which count as performed for TILE scope only and may be hb-before it, through an acquire for which it was itself held as
well. `id`: the place among the core's flights. -/
def State.relAt (s : State) (c : CoreRef) (id p : Nat) : Bool :=
  !((s.core c).before id).any (·.isAccess) &&
    !s.traffic.any (fun i => decide (i.c = c) && i.body.ofCore && decide (i.at' ≤ id)) &&
    !(wide p && kindOf c != .sysm && (s.tile (tileOf c)).sbuf.any (fun e => e.feeder != isFeeder c || decide (e.after ≤ id)))

/-- What a release that issues now waits for (R141). The release of a stitch message's instruction is the sender's (R145): it
follows the message's own accesses and everything that the sender made before MSEND. -/
def State.relReady (s : State) (c : CoreRef) (scope : Nat) : Bool :=
  let x := s.core c
  !x.openAny &&
    (if x.sel = .msg then (match x.msgRun with
      | some (m, _) => s.relAt m.c m.at' scope
      | none => true)
    else !s.outgoing c && !(wide scope && s.bufferedTile c))

/-- A flight enters the core's results in flight. -/
def Core.fly (x : Core) (f : Flight) : Core :=
  { x with nextId := x.nextId + 1,
           flights := x.flights ++ [{ f with id := x.nextId, bank := x.sel, kern := x.kernNow, hdr := x.blk.hdr, word := x.blk.widx }] }

/-- The channel that a held access will use (07 R144): destination tile and class. -/
def HeldOp.chan : HeldOp → Option (Nat × Nat)
  | .acc dst _ _ _ => some (dst, 0)
  | .grp dst _ => some (dst, 0)
  | .msg dst m => some (dst, m.cls)
  | _ => none

/-- A flight whose access is held for a channel, in tile issue order before a place. -/
def Flight.holdsChan (f : Flight) (ch : Nat × Nat) (ord : Nat) : Bool :=
  match f.kind with
  | .held h => h.op.chan == some ch && decide (h.ord < ord)
  | _ => false

/-- An earlier access of the tile to a channel is held: a later one follows it (07 R144). -/
def VTile.chanBefore (v : VTile) (ch : Nat × Nat) (ord : Nat) : Bool :=
  v.worker.flights.any (·.holdsChan ch ord) || v.feeder.flights.any (·.holdsChan ch ord)

/-- The same for an access that issues now. -/
def State.chanHeld (s : State) (c : CoreRef) (dst cls : Nat) : Bool :=
  (s.tile (tileOf c)).chanBefore (dst, cls) (s.tile (tileOf c)).order

/-- The home tile of a group (11 R192). -/
def groupHome (x : Ctx) (g : Nat) : Nat :=
  absTile x (g % max x.width 1) ((g / max x.width 1) % max x.height 1)

/-- The member index of a core's task in a group: of the task numbered `gen`. -/
def Core.memberAt (x : Core) (gen g : Nat) : Option Nat := (x.groups.find? (fun e => e.g == g && e.gen == gen)).map (·.m)

/-- The member index of the present task. -/
def Core.memberOf (x : Core) (g : Nat) : Option Nat := x.memberAt x.gen g

/-- The home tile of a group of the issuing tile's context. -/
def State.homeOf (s : State) (c : CoreRef) (g : Nat) : Nat := groupHome (s.ctxOfTile (tileOf c)) g

/-- A request to a group's home as a core makes it. -/
def State.groupReqOf (s : State) (c : CoreRef) (kind g : Nat) (arg : W64) : GReq :=
  { kind := kind, g := g, gen := (s.core c).gen, arg := arg }

/-- A request to a group's home tile: class-0 channel traffic (12 R208). -/
def State.groupSend (s : State) (c : CoreRef) (id kind g : Nat) (arg : W64) : State :=
  s.sendItem (tileOf c) (s.homeOf c g) 0 c id (.grp (s.groupReqOf c kind g arg))

/-- GLEAVE of a group (11 R195): the arrival it may count is a release, for which it is held; it is sent behind what its
channel holds already. -/
def State.gleave (s : State) (c : CoreRef) (g : Nat) : State :=
  if !s.relReady c 2 || s.chanHeld c (s.homeOf c g) 0 then
    let t := tileOf c
    let o := (s.tile t).order
    (s.modTile t (fun v => { v with order := o + 1 })).modCore c (·.fly
      { Flight.base with kind := .held ⟨.grp (s.homeOf c g) (s.groupReqOf c 1 g 0), some 2, o⟩ })
  else s.groupSend c 0 1 g 0

/-- The groups that requests of a core's present task ask to join, and have not joined yet. -/
def State.joining (s : State) (c : CoreRef) : List Nat :=
  let n := (s.core c).gen
  (s.traffic.filterMap (fun i => match i.body with
    | .grp r => if i.c = c ∧ r.kind = 0 ∧ r.gen = n then some r.g else none
    | _ => none)) ++
  ((s.core c).flights.filterMap (fun f => match f.kind with
    | .held h => (match h.op with
      | .grp _ r => if r.kind = 0 ∧ r.gen = n then some r.g else none
      | _ => none)
    | _ => none))

/-- Leaving every group a task belongs to or is joining, as by GLEAVE (11 R196). -/
def State.leaveGroups (s : State) (c : CoreRef) : State :=
  let x := s.core c
  let own := (x.groups.filter (fun e => e.gen == x.gen)).map (·.g)
  (own ++ (s.joining c).filter (fun g => !own.contains g)).foldl (fun s g => s.gleave c g) s

/-- One task of a kernel has ended: with the last one the kernel reaches its boundary (10 R186). -/
def Kernel.taskEnded (k : Kernel) : Kernel :=
  { k with left := k.left - 1,
           st := if k.left ≤ 1 ∧ (k.st = .placing ∨ k.st = .running) then .boundary else k.st }

/-- The end of a core's task: its flags are folded into the kernel status, it leaves its groups, the core is idle. -/
def State.endTask (s : State) (c : CoreRef) : State :=
  let x := s.core c
  let s := match x.task with
    | some t => s.modKern t.kern (fun k => { k with fflags := k.fflags ||| x.r.fflags, yund := k.yund || x.r.yund }.taskEnded)
    | none => s
  -- a request for which the core held issue is waited for no longer (11 R195, R196)
  let s := (s.modCore c (fun x => { x with flights := x.flights.filter (fun f => !(f.hold && f.kind == .await)) })).leaveGroups c
  -- accesses in flight run on, and order what the core does later; what they hold at issue ends with the task
  s.modCore c (fun x => { x with phase := .idle, task := none, blocked := false, awaits := false, began := none, resume := none,
                                 busyAt := none,
                                 flights := x.flights.map (fun f => { f with hold := false }),
                                 shadow := none, replay := [], replayTo := 0, msgRec := [], msgTo := 0 })

/-- cr.trap after a user trap: MSGCNT is kept (R37). -/
def trapWord (old : BitVec 128) (code word : Nat) (hdr faddr : W64) : BitVec 128 :=
  BitVec.ofNat 128 (old.toNat / 2 ^ 120 * 2 ^ 120 + code * 2 ^ 116 + word * 2 ^ 108 +
    hdr.toNat % 2 ^ 53 / 8 * 2 ^ 53 + faddr.toNat % 2 ^ 53)

/-- The reported trap of a kernel (10 R187): lowest (VY, VX, cr.taskid), worker before feeder; of equal ones the first to trap
(log 63). -/
def Kernel.trapped (k : Kernel) (key : Nat × Nat × Nat × Nat) (code word : Nat) : Kernel :=
  let lt (a b : Nat × Nat × Nat × Nat) : Bool :=
    a.1 < b.1 || (a.1 == b.1 && (a.2.1 < b.2.1 || (a.2.1 == b.2.1 && (a.2.2.1 < b.2.2.1 ||
      (a.2.2.1 == b.2.2.1 && a.2.2.2 < b.2.2.2)))))
  let k := { k with ntrap := min (k.ntrap + 1) 0xffffff, skind := 2 }
  let first := match k.trapAt with
    | some o => lt key o
    | none => true
  if first then { k with trapAt := some key, scode := code, trapCode := code, trapWord := word } else k

/-- A user trap (R37, R185, R309): cr.trap is written, the trap is recorded, the task ends. -/
def State.userTrap (s : State) (c : CoreRef) (code word : Nat) (hdr faddr : W64) : State :=
  let t := tileOf c
  let s := s.modCore c (fun x => { x with trap := trapWord x.trap code word hdr faddr })
  let x := s.core c
  let vt := s.vtileBits t
  let isF := kindOf c = .feeder
  let s := match (s.tile t).ctx with
    | some n => s.logCtx n 0x0001 vt (if isF then 1 else 0)
        (detail [(320, x.kreg.toNat % 2 ^ 32), (304, x.kreg.toNat / 2 ^ 32 % 2 ^ 16)]) x.trap
    | none => s
  let s := match x.task with
    | some r => s.modKern r.kern (fun k =>
        k.trapped (vt.toNat / 256, vt.toNat % 256, r.taskid, if isF then 1 else 0) code word)
    | none => s
  s.endTask c

/-- Taking a trap of R9 raised at a word of the core's block: a user trap on a tile core, a machine check of KIND 1 on
a system or management core, whose return block is the block that follows (22 R386, R391); where the trap has no faulting
address, cr.mcause names the block. -/
def State.takeTrap (s : State) (c : CoreRef) (code : Nat) (faddr : W64) : State :=
  let b := (s.core c).blk
  match kindOf c with
  | .sysm => s.machineCheck c (mcauseVal 1 code false (if faddr ≠ 0 then faddr else b.hdr)) b.next
  | _ => s.userTrap c code b.widx b.hdr faddr

/-- A trap found on a header (WORD 255, 03 R47): on a system or management core the return block is that header. -/
def State.headerTrap (s : State) (c : CoreRef) (code : Nat) (hdr faddr : W64) : State :=
  match kindOf c with
  | .sysm => s.machineCheck c (mcauseVal 1 code false (if code = 8 ∨ code = 9 then faddr else hdr)) hdr
  | _ => s.userTrap c code 255 hdr faddr

/-- A trap that names an earlier word of a block: BADTGT of a transfer of control, or a fault found late (03 R47,
06 R122). -/
def State.lateTrap (s : State) (c : CoreRef) (code word : Nat) (hdr faddr : W64) : State :=
  match kindOf c with
  | .sysm => s.machineCheck c (mcauseVal 1 code false (if code = 8 ∨ code = 9 ∨ code = 10 then faddr else hdr))
      ((s.core c).blk.next)
  | _ => s.userTrap c code word hdr faddr

/-- The return from an exception (22 R387): the normal bank and its loop stack are in use again, INH is clear, and the
return block is entered directly. -/
def Core.eret (x : Core) : Core :=
  { x with sel := .norm, inh := false, phase := .entering x.retBlk .direct }

/-! ### Stopping a context's work on faults (08 R153, R161, 16 R251) -/

/-- Error completion of a kernel when its context fails or is destroyed (10 R189): KIND 3 or 4, CODE 0, the other fields of the
status word as they stand (R187); its stores in the gate are discarded by the caller. The completion store itself is performed
by COMPLETION_STORE. -/
def Kernel.kill (k : Kernel) (kind : Nat) : Kernel :=
  if k.st = .complete then k
  else { k with st := .boundary, left := 0, skind := kind, scode := 0, boundaryDone := true }

/-- Pin counts of some frames one higher. -/
def State.pin (s : State) (l : List Nat) : State :=
  { s with pins := l.foldl (fun m f => mput m f (mget 0 m f + 1)) s.pins }

/-- Pin counts one lower; a count of 0 is not listed. -/
def State.unpin (s : State) (l : List Nat) : State :=
  { s with pins := l.foldl (fun m f => let k := mget 0 m f
                                       if k ≤ 1 then mdel m f else mput m f (k - 1)) s.pins }

/-- The frames that a transfer has pinned, once for each of its pages (06 R128). -/
def Xfer.frames (x : Xfer) : List Nat := x.pins.map (·.2)

/-- A core that nothing of a stopped context runs on. -/
def Core.drop (x : Core) : Core :=
  { x with phase := .idle, task := none, groups := [], flights := [], watches := [], sel := .norm, msgRun := none,
           blocked := false, awaits := false, began := none, resume := none, busyAt := none, shadow := none, replay := [],
           replayTo := 0, msgRec := [], msgTo := 0 }

/-- A drift without the traffic of some tiles. -/
def Drift.without (ts : List Nat) (d : Drift) : Drift :=
  { d with held := d.held.filter (fun i => !(ts.contains i.src)), direct := d.direct.filter (fun i => !(ts.contains i.src)) }

/-- The flags of a running task that a failure or destruction ends go to its kernel's status (10 R187, R189). -/
def State.keepFlags (s : State) (c : CoreRef) : State :=
  let x := s.core c
  match x.task with
  | some t => s.modKern t.kern (fun k => { k with fflags := k.fflags ||| x.r.fflags, yund := k.yund || x.r.yund })
  | none => s

/-- Nothing of a context runs: its tasks end, its transfers, engine commands and traffic are discarded, its transfers'
pins are released (06 R128). -/
def State.stopTiles (s : State) (x : Ctx) : State :=
  let ts := ctxTiles x
  let s := (ts.flatMap tileCores).foldl State.keepFlags s
  let s := ts.foldl (fun s t =>
    (s.unpin ((s.tile t).xfers.flatMap Xfer.frames)).modTile t (fun v =>
      { v with worker := v.worker.drop, feeder := v.feeder.drop, xfers := [], mq := [], dq := [], sbuf := [], msgs := [],
               wdq := [], fdq := [], waits := [] })) s
  { s with net := s.net.filter (fun i => !(ts.contains i.src)),
           chips := mmapv (fun (h : Chip) => { h with drift := h.drift.map (Drift.without ts) }) s.chips }

/-- A context enters FAILED (R161): nothing of it runs, its kernels receive error completions of KIND 3, its gated
stores are discarded, no rollback of it is due any more, and the failure is logged twice. Causes: 1 image, 2 lost line, 3 rollback failed, 4 immediate
rollback. -/
def State.failCtx (s : State) (n cause : Nat) : State :=
  let x := s.ctx n
  if x.st = .failed ∨ x.st = .destroyed then s
  else
    let s := if x.st = .saved ∨ x.out then s else s.stopTiles x
    let s := s.modCtx n (fun x =>
      { x with st := .failed, stopFor := none, stopRetry := false, waitSave := false, waitDebug := false, fault := false,
               waveRetry := false, parcel := [], out := x.out || x.st == .saved })
    let s := { s with kernels := mmapv (fun (k : Kernel) => if k.ctx = n then k.kill 3 else k) s.kernels,
                      chips := mmapv (fun (h : Chip) =>
                        { h with gate := h.gate.filter (fun g => g.ctx != n), zeph := h.zeph.filter (fun z => z.ctx != n) }) s.chips }
    let d := detail [(344, cause)]
    (s.logCtx n 0x000d 0 2 d 0).logSys 0x000d 2 n d

end Sys2Proof.Machine
end

