-- ==== Sys2Proof/Machine/Pages.lean ====
section
/-! DEFINITION. Physical memory at the home slices (06 R127, 16 R259-R261, R269) and translation (06 R118-R126, R426). -/

namespace Sys2Proof.Machine

/-! ### Home slices -/

/-- The quad range that holds a physical address, if it lies in this panel's HBM. -/
def State.rangeOf (s : State) (pa : Nat) : Option MapRange :=
  s.memMap.find? (fun r => r.base ≤ pa && pa < r.base + r.len)

/-- The address lies in this panel's HBM. -/
def State.inHbm (s : State) (pa : Nat) : Bool := (s.rangeOf pa).isSome

/-- Stack and channel of the unit that holds a line of a quad (R259): line n, stripe n div 3, channel group and row,
parity member, data slot. Member m is stack m mod 2 of chiplet 2 x quad + m div 2. -/
def unitOf (quad n : Nat) : Nat × Nat :=
  let st := n / 3
  let par := st / 32 % 4
  let sl := n % 3
  let m := if sl < par then sl else sl + 1
  (2 * (2 * quad + m / 2) + m % 2, st % 32)

/-- Bytes of a quad's data space that the ranges before one hold (R259). -/
def quadBefore (r : MapRange) : List MapRange → Nat
  | [] => 0
  | x :: l => if x = r then 0 else (if x.quad = r.quad then x.len else 0) + quadBefore r l

/-- The stack and channel behind a physical address. -/
def State.unitAt (s : State) (pa : Nat) : Option (Nat × Nat) :=
  (s.rangeOf pa).map (fun r => unitOf r.quad ((quadBefore r s.memMap + (pa - r.base)) / 256))

/-- The chiplet whose home slice serves a physical address. -/
def State.homeChip (s : State) (pa : Nat) : Option Nat := (s.unitAt pa).map (fun u => u.1 / 2)

/-- The router at which a core's accesses to memory enter the mesh: that of its tile, or the first of its chiplet. -/
def State.coreRouter (s : State) (c : CoreRef) : Nat :=
  match kindOf c with
  | .sysm => 272 * chipOfCore c
  | _ => s.routerOf (tileOf c)

/-- Accesses to memory wait: the way to a home slice on another chiplet crosses a link that carries no traffic, or a router out of
service (17 R277; 15 R248; log 15). -/
def State.memShut (s : State) (p : Nat) (pas : List Nat) : Bool :=
  !s.memMap.isEmpty && (pas.foldl (fun a x => setIns a (x / 256)) []).any (fun l => match s.homeChip (256 * l) with
    | some h => h != p / 272 && (let d := 128 * (h / 8) + 16 * (h % 8) + p % 16
                                 s.deadWay d p || (s.crossings d p).any (fun e => !(s.link e.1).carries))
    | none => false)

/-- The undo epoch of a context: the number of its lowest point whose cut has not been taken (R269, R270). -/
def Ctx.epoch (x : Ctx) : Nat :=
  match x.points with
  | p :: _ => p.num
  | [] => 0

/-- Undo records a log holds at most: 8 GiB of 256-byte lines (R269). -/
def undoCap : Nat := 2 ^ 25

/-- A context has recovery points: its writes are logged. -/
def State.logsUndo (s : State) (n : Nat) : Bool := !(s.ctx n).points.isEmpty

/-- The lines of some addresses. -/
def linesOf (l : List Nat) : List Nat := l.foldl (fun a x => setIns a (x / 256)) []

/-- The lines whose first write in the epoch needs a record (R269). -/
def State.undoNeeds (s : State) (n : Nat) (lines : List Nat) : List Nat :=
  if s.logsUndo n then
    lines.filter (fun l => match s.homeChip (256 * l) with
      | some h => !((s.chip h).undo.any (fun u => u.ctx == n && u.epoch == (s.ctx n).epoch && u.line == l))
      | none => false)
  else []

/-- Some undo log a write needs is full. -/
def State.undoFull (s : State) (n : Nat) (lines : List Nat) : Bool :=
  (s.undoNeeds n lines).any (fun l => match s.homeChip (256 * l) with
    | some h => undoCap ≤ (s.chip h).undo.length
    | none => false)

/-- The undo record of one line. -/
def State.undoLine (s : State) (n l : Nat) : State :=
  match s.homeChip (256 * l) with
  | some h =>
    let s' := s.modChip h (fun x => { x with undo := ⟨n, (s.ctx n).epoch, l, memReadN s.mem (256 * l) 256⟩ :: x.undo })
    -- an undo log that reaches 4 GiB starts a recovery wave at once in the context whose partition holds its chiplet (R266)
    if undoCap / 2 ≤ (s'.chip h).undo.length then
      { s' with ctxs := mmapv (fun (x : Ctx) =>
          if x.st != .destroyed && !x.out && (ctxChips x).contains h then { x with early := true } else x) s'.ctxs }
    else s'
  | none => s

/-- The zero-pending frame that covers an address: its chiplet, frame address and entry. -/
def State.zpAt (s : State) (pa : Nat) : Option (Nat × Nat × ZpE) :=
  match s.homeChip pa with
  | none => none
  | some _ =>
    (s.chips.findSome? (fun e => (e.2.zp.find? (fun z => z.1 ≤ pa && pa < z.1 + z.2.len)).map (fun z => (e.1, z.1, z.2))))

/-- Zeroing a line that is still zero-pending (R127). -/
def State.zpLine (s : State) (l : Nat) : State :=
  match s.zpAt (256 * l) with
  | some (h, f, z) =>
    if z.zeroed.contains l then s
    else
      let s := { s with mem := memWriteN s.mem (256 * l) (List.replicate 256 0) }
      s.modChip h (fun x => { x with zp := mput x.zp f { z with zeroed := setIns z.zeroed l } })
  | none => s

/-- Zeroing the pending lines that a flagged request touches. -/
def State.zpTouch (s : State) (flag : Bool) (pas : List Nat) : State :=
  if flag then (linesOf pas).foldl State.zpLine s else s

/-- The host port behind which an address outside this panel's HBM lies, if it is in a state (17 R277, R281). -/
def State.portIn (s : State) (st : LinkSt) (n pa : Nat) : Option Nat :=
  if s.memMap.isEmpty || s.inHbm pa then none
  else match Config.hostPort n pa with
    | some p => if (s.link (256 + p % 4)).st = st then some (p % 4) else none
    | none => none

/-- A flit of ours, with its payload in units of 16 bytes (17 R282). -/
def mkFlit (ty dst conn seq ack code : Nat) (payload : List Byte) : List Byte :=
  let b := natBytes 16 (ty * 2 ^ 120 + Config.selfPeer % 2 ^ 16 * 2 ^ 104 + dst % 2 ^ 16 * 2 ^ 88 + conn % 2 ^ 8 * 2 ^ 80 +
    seq % 2 ^ 24 * 2 ^ 56 + ack % 2 ^ 24 * 2 ^ 32 + min 14 ((payload.length + 15) / 16) * 2 ^ 24 + code % 2 ^ 8 * 2 ^ 16) ++
    (payload ++ List.replicate 224 0).take 224
  b ++ List.replicate 8 0 ++ natBytes 8 (Config.crc64 b).toNat

/-- A flit with a SEQ of its own leaves on connection k: it stands in the replay buffer until it is acknowledged (17 R279, R284). -/
def Conn.send (c : Conn) (k now ty ack code : Nat) (payload : List Byte) : Conn :=
  { c with tx := (c.tx + 1) % 2 ^ 24, unacked := c.unacked ++ [(c.tx, mkFlit ty c.peer k c.tx ack code payload)],
           since := if c.unacked.isEmpty then now else c.since }

/-- The connection over which a store leaves for a peer's memory (10 R188). -/
def State.peerOf (s : State) (n pa : Nat) : Option (Nat × Conn) :=
  if s.conns.isEmpty || s.inHbm pa then none
  else match Config.hostPort n pa, Config.connOf n pa with
    | none, some k => (mfind s.conns k).map (fun c => (k, c))
    | _, _ => none

/-- The bytes of one access written to memory. A posted write to a host port that is FENCED is discarded and logged as
PORTDOWN, one to a port in TRAINING waits in it; a store to a peer's memory leaves in a data flit. -/
def State.put (s : State) (n : Nat) (bytes : List (Nat × Byte)) : State :=
  let pa := (bytes.map (·.1)).headD 0
  match s.portIn .fenced n pa with
  | some p => if n < 256 then s.logCtx n 0x000a 0 5 (detail [(350, p)]) 0 else s
  | none =>
    if (s.portIn .training n pa).isSome then { s with outbox := s.outbox ++ [(n, bytes)] }
    else match s.peerOf n pa with
      | some (k, c) => { s with conns := mput s.conns k (c.send k s.time 0 c.rx 0 (Config.peerStore bytes)) }
      | none => { s with mem := memWriteL s.mem bytes }

/-- A write performed at its home slice for a context (07 R137): pending lines are zeroed, first writes of the epoch
are recorded, then the bytes are written. -/
def State.homeWrite (s : State) (n : Nat) (flag : Bool) (bytes : List (Nat × Byte)) : State :=
  let pas := bytes.map (·.1)
  let s := s.zpTouch flag pas
  let s := (s.undoNeeds n (linesOf pas)).foldl (fun s l => s.undoLine n l) s
  s.put n bytes

/-- Bytes at consecutive addresses. -/
def atAddr (a : Nat) : List Byte → List (Nat × Byte)
  | [] => []
  | b :: bs => (a, b) :: atAddr (a + 1) bs

/-! ### Page tables (06 R119, R120) -/

/-- The right an access needs at the leaf (R121); `user` asks for U as well; a prefetch needs neither. -/
structure Need where
  r : Bool
  w : Bool
  x : Bool
  user : Bool
deriving DecidableEq, Repr

/-- Who translates: the context, the tile whose L1 TLB it uses, the chiplet whose shared TLB it uses. -/
structure Agent where
  ctx : Nat
  tile : Option Nat
  chip : Nat
deriving DecidableEq, Repr

/-- The outcome of a translation: a physical address with the zero-pending flag; a wait on a BUSY entry; a wait for a place in
the zero-pending table, or in the undo log for the walker's write of A or D; or a fault. -/
inductive Xl where
  | ok (pa : Nat) (zp : Bool)
  | busy
  | full
  | page
  | prot
deriving DecidableEq, Repr

/-- Bit of a page-table entry. -/
def pbit (e k : Nat) : Bool := e / 2 ^ k % 2 = 1

/-- The frame address of an entry. -/
def pframe (e : Nat) : Nat := e / 2 ^ 13 % 2 ^ 37 * 2 ^ 13

/-- A present entry is malformed at its level (R120). -/
def State.malformed (s : State) (lv e : Nat) : Bool :=
  let leaf := pbit e 1
  let z := pbit e 63
  (e / 2 ^ 50 % 2 ^ 13 != 0) || (e / 2 ^ 9 % 2 ^ 4 != 0) || (leaf && lv == 3) || (!leaf && lv == 0) ||
  (leaf && lv == 1 && e / 2 ^ 13 % 2 ^ 10 != 0) || (leaf && lv == 2 && e / 2 ^ 13 % 2 ^ 20 != 0) ||
  (!leaf && (z || pbit e 7 || pbit e 6 || pbit e 5 || pbit e 4 || pbit e 3 || pbit e 2)) ||
  (leaf && z && !s.inHbm (pframe e))

/-- The result of a walk: the leaf's level, address and value, a BUSY entry, or nothing usable. -/
inductive Walk where
  | leaf (lv at' e : Nat)
  | busy
  | absent
deriving DecidableEq, Repr

/-- The table walk from a level down (R118, R124): entries are read at their home slices. -/
def State.walk (s : State) (va : Nat) : Nat → Nat → Walk
  | lv, tab =>
    let a := tab + 8 * (va / 2 ^ (13 + 10 * lv) % 1024)
    let e := memReadLE s.mem a 8
    if !pbit e 0 then (if pbit e 8 then .busy else .absent)
    else if s.malformed lv e then .absent
    else if pbit e 1 then .leaf lv a e
    else match lv with
      | 0 => .absent
      | k + 1 => State.walk s va k (pframe e)

/-- The rights an entry's low bits give. -/
def rightsOk (e : Nat) (n : Need) : Bool :=
  (!n.r || pbit e 2) && (!n.w || pbit e 3) && (!n.x || pbit e 4) && (!n.user || pbit e 5)

/-- The physical address of a virtual one under a leaf of a level. -/
def leafAddr (lv frame va : Nat) : Nat := frame + va % 2 ^ (13 + 10 * lv)

/-- A cached translation covers an address. -/
def TlbE.covers (t : TlbE) (ctx va : Nat) : Bool := t.ctx == ctx && t.vpn == va / 2 ^ (13 + 10 * t.level)

/-- Looking up the tile's TLB, then the chiplet's (R124). -/
def State.tlbFind (s : State) (g : Agent) (va : Nat) : Option TlbE :=
  let own := match g.tile with
    | some t => (s.tile t).tlb.find? (·.covers g.ctx va)
    | none => none
  match own with
  | some e => some e
  | none => (s.chip g.chip).tlb.find? (·.covers g.ctx va)

/-- Filling both TLBs, whose oldest entries give way. -/
def State.tlbFill (s : State) (g : Agent) (e : TlbE) : State :=
  let old (l : List TlbE) : List TlbE := l.filter (fun x => !(x.ctx == e.ctx && x.vpn == e.vpn && x.level == e.level))
  let s := match g.tile with
    | some t => s.modTile t (fun v => { v with tlb := (e :: old v.tlb).take 64 })
    | none => s
  s.modChip g.chip (fun c => { c with tlb := (e :: old c.tlb).take 16384 })

/-- The entry at an address is a present leaf that gives a frame with ZP 1. -/
def State.zpLeaf (s : State) (frame a : Nat) : Bool :=
  let e := memReadLE s.mem a 8
  pbit e 0 && pbit e 1 && pbit e 63 && pframe e == frame

/-- Entering a zero-pending frame in the table of the chiplet that is the home of its first line (R127; which chiplet's table
holds a frame whose lines are spread over several is the model's choice, log 51); none when the table is full. A stale cached
translation, whose leaf has no ZP any more, enters nothing. A frame that stands in the table already keeps its zeroed lines while
a leaf it was entered through still gives it with ZP; where none does, it has passed to another owner, and every line is pending
again. -/
def State.zpEnter (s : State) (frame leaf len : Nat) : Option State :=
  if !(memRead s.mem (leaf + 7)).getLsbD 7 then some s
  else match s.homeChip frame with
  | none => some s
  | some h =>
    match mfind (s.chip h).zp frame with
    | some z =>
      if z.leaves.contains leaf then some s
      else
        let z1 : ZpE := if z.leaves.any (s.zpLeaf frame) then { z with leaves := z.leaves ++ [leaf] } else ⟨[leaf], len, []⟩
        some (s.modChip h (fun x => { x with zp := mput x.zp frame z1 }))
    | none =>
      if 4096 ≤ (s.chip h).zp.length then none
      else some (s.modChip h (fun x => { x with zp := mput x.zp frame ⟨[leaf], len, []⟩ }))

/-- Translation of a virtual address (R118-R125): bits [63:53], the TLBs, the walk, the rights, A and D, whose write waits for
the undo log as any write does (16 R269). A cached entry that lacks a right, or D for a store, is looked up again (log 11). -/
def State.translate (s : State) (g : Agent) (va : W64) (n : Need) : State × Xl :=
  let a := va.toNat
  if 2 ^ 53 ≤ a then (s, .prot)
  else
    let hit := match s.tlbFind g a with
      | some e => if rightsOk e.bits.toNat n && (!n.w || e.bits.getLsbD 7) then some e else none
      | none => none
    match hit with
    | some e =>
      match (if e.zp then s.zpEnter e.frame e.leaf (2 ^ (13 + 10 * e.level)) else some s) with
      | some s1 => (s1, .ok (leafAddr e.level e.frame a) e.zp)
      | none => (s, .full)
    | none =>
      match s.walk a 3 (s.ctx g.ctx).root with
      | .busy => (s, .busy)
      | .absent => (s, .page)
      | .leaf lv at' e =>
        if !rightsOk e n then (s, .prot)
        else
          let want := (e % 256) ||| 0x40 ||| (if n.w then 0x80 else 0)
          if want ≠ e % 256 ∧ s.undoFull g.ctx (linesOf [at']) then (s, .full)
          else
          let s1 := if want = e % 256 then s else s.homeWrite g.ctx false [(at', BitVec.ofNat 8 want)]
          let z := pbit e 63
          let s2 := s1.tlbFill g ⟨g.ctx, lv, a / 2 ^ (13 + 10 * lv), pframe e, BitVec.ofNat 9 (e % 256 ||| want), z, at'⟩
          match (if z then s2.zpEnter (pframe e) at' (2 ^ (13 + 10 * lv)) else some s2) with
          | some s3 => (s3, .ok (leafAddr lv (pframe e) a) z)
          | none => (s, .full)

/-- The agent of a tile core. -/
def State.agentOf (s : State) (c : CoreRef) : Agent :=
  { ctx := (s.ctxOfCore c).getD 256, tile := some (tileOf c), chip := chipOf (tileOf c) }

/-- An agent that acts for a context without being one of its tasks (R426). -/
def sysAgent (n chip : Nat) : Agent := { ctx := n, tile := none, chip := chip }

/-! ### Address spaces of system and management cores (log 12) -/

/-- The memory a system or management core's plain addresses reach. -/
def State.ownMem (s : State) (c : CoreRef) : Mem :=
  match c with
  | .sys chip _ => (s.chip chip).aon
  | .mgmt io _ => mget [] s.mgmtMem io
  | _ => []

/-- Replacing that memory. -/
def State.setOwnMem (s : State) (c : CoreRef) (m : Mem) : State :=
  match c with
  | .sys chip _ => s.modChip chip (fun x => { x with aon := m })
  | .mgmt io _ => { s with mgmtMem := mput s.mgmtMem io m }
  | _ => s

/-- Where an address of such a core that names no register leads (log 12). -/
inductive OwnPa where
  | sram (a : Nat)
  | glob (pa : Nat)
  | absent
deriving DecidableEq, Repr

/-- Below 2^31 the core's own memory; above, what its own tables map (21 R364). -/
def ownPa (c : CoreRef) (a : Nat) : OwnPa :=
  if a < 2 ^ 31 then .sram a
  else match Config.ownMap (agentNo c) (a / 8192) with
    | some f => .glob (f * 8192 + a % 8192)
    | none => .absent

/-- The n bytes at such an address. -/
def State.ownRead (s : State) (c : CoreRef) (a n : Nat) : List Byte :=
  match ownPa c a with
  | .sram a => memReadN (s.ownMem c) a n
  | .glob pa => memReadN s.mem pa n
  | .absent => List.replicate n 0

/-- Writing bytes there. -/
def State.ownWrite (s : State) (c : CoreRef) (a : Nat) (bytes : List Byte) : State :=
  match ownPa c a with
  | .sram a => s.setOwnMem c (memWriteN (s.ownMem c) a bytes)
  | .glob pa => s.homeWrite 256 false (atAddr pa bytes)
  | .absent => s

/-! ### Instruction fetch (06 R122, 03 R44-R46) -/

/-- The outcome of fetching bytes. -/
inductive Fetched where
  | ok (bytes : List Byte)
  | wait
  | fault (code : Nat) (va : W64)
deriving Repr

/-- The 64 bytes of a line as a number, and back. -/
def lineBits (l : List Byte) : BitVec 512 := BitVec.ofNat 512 (leNat l)

/-- One 8-byte piece of code at an aligned address: through the instruction cache, which fills from the home slice. -/
def State.fetch8 (s : State) (c : CoreRef) (va : W64) : State × Fetched :=
  match kindOf c with
  | .sysm =>
    if 2 ^ 53 ≤ va.toNat then (s, .fault 9 va)
    else if ownPa c va.toNat = .absent then (s, .fault 8 va)
    else (s, .ok (s.ownRead c va.toNat 8))
  | _ =>
    let t := tileOf c
    match s.translate (s.agentOf c) va { r := false, w := false, x := true, user := true } with
    | (s, .ok pa z) =>
      let line := pa / 64
      match mfind (s.tile t).icache line with
      | some b => (s, .ok (natBytes 8 (b.toNat / 2 ^ (8 * (pa % 64)))))
      | none =>
        if s.memShut (s.coreRouter c) [pa] then (s, .wait) else
        let s := s.zpTouch z [pa]
        let b := lineBits (memReadN s.mem (64 * line) 64)
        (s.modTile t (fun v => { v with icache := lineFill v.icache line b }), .ok (natBytes 8 (b.toNat / 2 ^ (8 * (pa % 64)))))
    | (s, .busy) => (s.busyWait c va, .wait)
    | (s, .full) => (s, .wait)
    | (s, .page) => (s, .fault 8 va)
    | (s, .prot) => (s, .fault 9 va)

/-- Consecutive pieces of code. -/
def State.fetchN (s : State) (c : CoreRef) (va : W64) : Nat → State × Fetched
  | 0 => (s, .ok [])
  | n + 1 =>
    match s.fetch8 c va with
    | (s, .ok b) =>
      match State.fetchN s c (va + 8) n with
      | (s, .ok bs) => (s, .ok (b ++ bs))
      | r => r
    | r => r

/-- The 32-bit words of some bytes. -/
def wordsOf : List Byte → List W32
  | a :: b :: c :: d :: r => BitVec.ofNat 32 (leNat [a, b, c, d]) :: wordsOf r
  | _ => []

end Sys2Proof.Machine
end

