-- ==== Sys2Proof/Machine/Operands.lean ====
section
/-! DEFINITION. Operand and destination codes (02 R25-R29, 03 R52-R54), delivery of results (02 R27, 03 R55-R58), and
the issue of an instruction with its checks in their order (03 R67, R68, 02 R38, 16 R256). -/

namespace Sys2Proof.Machine

/-! ### Legal codes (02 R25, R28; 03 R52, R53) -/

/-- A scalar operand code exists on a core: pointers, cr.vtile and cr.taskarg do not on system and management cores. -/
def sLegal (k : CoreKind) (c : BitVec 6) : Bool :=
  let n := c.toNat
  n ≤ 31 || (32 ≤ n && n ≤ 39 && k != .sysm) || (40 ≤ n && n ≤ 46) || ((n == 47 || n == 48) && k != .sysm)

/-- A vector operand code (the worker alone reads one). -/
def vLegal (c : BitVec 6) : Bool := c.toNat ≤ 23 || 32 ≤ c.toNat

/-- A yarn operand code. -/
def yLegal (c : BitVec 6) : Bool := 16 ≤ c.toNat && c.toNat ≤ 23

/-- A scalar destination exists on a core. -/
def dLegal (k : CoreKind) (d : BitVec 5) : Bool :=
  let n := d.toNat
  n ≤ 16 || (17 ≤ n && n ≤ 24 && k != .sysm) || (25 ≤ n && n ≤ 28) || n == 31

/-- A vector or yarn destination. -/
def dvLegal (d : BitVec 5) : Bool := d.toNat ≤ 8 || d.toNat == 31

/-! ### Registers of a core -/

/-- A vector's elements changed one by one. -/
def vmap {α : Type} {n : Nat} (f : α → α) (v : Vector α n) : Vector α n := ⟨⟨v.toList.map f⟩, by simp⟩

/-- The element at an index, or a given one beyond the end. -/
def vget {α : Type} {n : Nat} (d : α) (v : Vector α n) (i : Nat) : α := v.toList.getD i d

/-- Replacing the element at an index; nothing beyond the end. -/
def vset {α : Type} {n : Nat} (v : Vector α n) (i : Nat) (x : α) : Vector α n := ⟨⟨v.toList.set i x⟩, by simp⟩

/-- The bank the core's instructions name. -/
def Core.bank (x : Core) : Bank :=
  match x.sel with
  | .norm => x.r.norm
  | .hand => x.r.hand
  | .msg => x.r.msg

/-- Replacing that bank. -/
def Core.setBank (x : Core) (b : Bank) : Core :=
  match x.sel with
  | .norm => { x with r := { x.r with norm := b } }
  | .hand => { x with r := { x.r with hand := b } }
  | .msg => { x with r := { x.r with msg := b } }

/-- A push: the write index moves on and its entry is replaced (R27). -/
def Ring.push {α : Type} (q : Ring α) (c : Cell α) : Ring α :=
  let w := (q.w + 1) % 16
  { e := vset q.e w c, w := w }

/-- The entry of an age, 0 the newest (R27). -/
def Ring.age {α : Type} (d : Cell α) (q : Ring α) (a : Nat) : Cell α := vget d q.e ((q.w + 16 - a % 16) % 16)

/-- A cell of an invalid zero. -/
def ic : Cell SVal := Cell.mk0 iz

/-- The cell behind a scalar code that names a register or a queue age. -/
def Core.sCell (x : Core) (n : Nat) : Cell SVal :=
  if n < 16 then x.bank.q.age ic n
  else if n < 32 then vget ic x.bank.s (n - 16)
  else if n < 40 then vget ic x.r.p (n - 32)
  else if n < 44 then vget ic x.bank.k (n - 40)
  else ic

/-- A cell's value at the present issue slot: a read that comes too early, or of a value still in flight, gives the
class's invalid zero (03 R56). -/
def Cell.now {α : Type} (c : Cell α) (slot : Nat) (z : α) : α :=
  if slot < c.ready || c.pend.isSome then z else c.val

/-- An operand an instruction reads: a scalar, vector or yarn code. -/
inductive Src where
  | s (c : BitVec 6)
  | v (c : BitVec 6)
  | y (c : BitVec 6)
deriving DecidableEq, Repr

/-- The cell of a vector code that names the vector queue or a named vector. -/
def Core.vCell (x : Core) (n : Nat) : Cell VVal :=
  if n < 16 then x.r.vq.age (Cell.mk0 vz) n else vget (Cell.mk0 vz) x.r.v (n - 16)

/-- The scalar code that a broadcast vector code stands for (R53). -/
def bcast (n : Nat) : Nat := if n < 48 then n - 16 else n - 48

/-- The operand's value is still in flight (03 R57). -/
def Core.srcPend (x : Core) : Src → Bool
  | .s c => (x.sCell c.toNat).pend.isSome
  | .v c => if 32 ≤ c.toNat then (x.sCell (bcast c.toNat)).pend.isSome else (x.vCell c.toNat).pend.isSome
  | .y c => (vget (Cell.mk0 yz) x.r.y (c.toNat - 16)).pend.isSome

/-- The operand is read too early (03 R56). -/
def Core.srcEarly (x : Core) : Src → Bool
  | .s c => x.blk.slot < (x.sCell c.toNat).ready
  | .v c => if 32 ≤ c.toNat then x.blk.slot < (x.sCell (bcast c.toNat)).ready else x.blk.slot < (x.vCell c.toNat).ready
  | .y c => x.blk.slot < (vget (Cell.mk0 yz) x.r.y (c.toNat - 16)).ready

/-- opnd: the value and validity of a scalar operand (R26, R52). -/
def State.rdS (s : State) (c : CoreRef) (f : BitVec 6) : SVal :=
  let x := s.core c
  let n := f.toNat
  if n = 44 then ⟨0, true⟩
  else if n = 45 then ⟨1, true⟩
  else if n = 46 then iz
  else if n = 47 then ⟨(s.vtileBits (tileOf c)).setWidth 64, true⟩
  else if n = 48 then ⟨x.taskarg, true⟩
  else (x.sCell n).now x.blk.slot iz

/-- A vector operand (R53): a broadcast scalar lends its low 32 bits and its V to every lane. -/
def State.rdV (s : State) (c : CoreRef) (f : BitVec 6) : VVal :=
  let x := s.core c
  let n := f.toNat
  if 32 ≤ n then
    let a := (x.sCell (bcast n)).now x.blk.slot iz
    Vector.replicate 16 ⟨a.v.setWidth 32, a.ok⟩
  else (x.vCell n).now x.blk.slot vz

/-- A yarn operand (R53). -/
def State.rdY (s : State) (c : CoreRef) (f : BitVec 6) : YVal :=
  let x := s.core c
  (vget (Cell.mk0 yz) x.r.y (f.toNat - 16)).now x.blk.slot yz

/-- The operand is valid; a vector operand is judged lane by lane and never suppresses the whole. -/
def State.srcOk (s : State) (c : CoreRef) : Src → Bool
  | .s f => (s.rdS c f).ok
  | .v _ => true
  | .y f => (s.rdY c f).ok

/-! ### Delivery (02 R27, R28) -/

/-- A scalar cell delivered to D: pushed, and written to the target it names. -/
def Core.putS (x : Core) (d : Nat) (c : Cell SVal) : Core :=
  if d = 31 then x
  else
    let b := { x.bank with q := x.bank.q.push c }
    if 1 ≤ d ∧ d ≤ 16 then x.setBank { b with s := vset b.s (d - 1) c }
    else if 17 ≤ d ∧ d ≤ 24 then
      let x := x.setBank b
      { x with r := { x.r with p := vset x.r.p (d - 17) c } }
    else if 25 ≤ d ∧ d ≤ 28 then
      let k : Cell SVal := { c with val := ⟨(c.val.v.setWidth 32).setWidth 64, c.val.ok⟩ }
      x.setBank { b with k := vset b.k (d - 25) k }
    else x.setBank b

/-- A vector cell delivered to D. -/
def Core.putV (x : Core) (d : Nat) (c : Cell VVal) : Core :=
  if d = 31 then x
  else
    let q := x.r.vq.push c
    if 1 ≤ d ∧ d ≤ 8 then { x with r := { x.r with vq := q, v := vset x.r.v (d - 1) c } }
    else { x with r := { x.r with vq := q } }

/-- A yarn cell delivered to D: yarn results have no queue. -/
def Core.putY (x : Core) (d : Nat) (c : Cell YVal) : Core :=
  if 1 ≤ d ∧ d ≤ 8 then { x with r := { x.r with y := vset x.r.y (d - 1) c } } else x

/-- A fixed-latency scalar result (03 R56). -/
def Core.outS (x : Core) (d : BitVec 5) (l : Nat) (v : SVal) : Core := x.putS d.toNat ⟨v, x.blk.slot + l, none⟩

/-- A fixed-latency vector result. -/
def Core.outV (x : Core) (d : BitVec 5) (l : Nat) (v : VVal) : Core := x.putV d.toNat ⟨v, x.blk.slot + l, none⟩

/-- A yarn result whose value is known at issue. -/
def Core.outY (x : Core) (d : BitVec 5) (l : Nat) (v : YVal) : Core := x.putY d.toNat ⟨v, x.blk.slot + l, none⟩

/-- A variable-latency operation enters the results in flight: its entry and its target wait for it (03 R57). -/
def Core.launch (x : Core) (cls : Cls) (d : BitVec 5) (f : Flight) : Core :=
  let id := x.nextId
  let x := match cls with
    | .s => x.putS d.toNat ⟨iz, 0, some id⟩
    | .v => x.putV d.toNat ⟨vz, 0, some id⟩
    | .y => x.putY d.toNat ⟨yz, 0, some id⟩
  x.fly { f with cls := cls, dst := d.toNat }

/-- Filling a cell that waits for a result. -/
def Cell.fill {α : Type} (id : Nat) (v : α) (c : Cell α) : Cell α :=
  if c.pend = some id then ⟨v, 0, none⟩ else c

/-- Filling the cells of a bank. -/
def Bank.fill (id : Nat) (v : SVal) (b : Bank) : Bank :=
  { b with q := { b.q with e := vmap (Cell.fill id v) b.q.e }, s := vmap (Cell.fill id v) b.s,
           k := vmap (Cell.fill id ⟨(v.v.setWidth 32).setWidth 64, v.ok⟩) b.k }

/-- Filling whatever waits for a result: an older result whose target was written since is dropped (03 R58). -/
def Regs.fill (id : Nat) (v : RVal) (r : Regs) : Regs :=
  match v with
  | .s a => { r with norm := r.norm.fill id a, hand := r.hand.fill id a, msg := r.msg.fill id a,
                     p := vmap (Cell.fill id a) r.p }
  | .v a => { r with vq := { r.vq with e := vmap (Cell.fill id a) r.vq.e }, v := vmap (Cell.fill id a) r.v }
  | .y a => { r with y := vmap (Cell.fill id a) r.y }

/-- Delivery of a result in flight, also to the values recorded for a replay (16 R256). -/
def Core.deliver (x : Core) (id : Nat) (v : RVal) : Core :=
  { x with r := x.r.fill id v, shadow := x.shadow.map (Regs.fill id v),
           replay := x.replay.map (fun e => { e with after := e.after.map (Regs.fill id v) }),
           msgRec := x.msgRec.map (fun e => { e with after := e.after.map (Regs.fill id v) }),
           flights := x.flights.filter (fun f => f.id != id) }

/-- A flight whose result is known: itself, or the CHKA that takes an LDA's value (21 R354). -/
def Flight.takes (f : Flight) (id : Nat) : Bool := f.id == id || f.kind == .chka id

/-- A watch whose LDA has its value. -/
def Watch.fill (id : Nat) (v : RVal) (w : Watch) : Watch :=
  match v with
  | .s a => if w.fid = id ∧ w.val = none then { w with val := some a } else w
  | _ => w

/-- A new watch replaces one with the same D, or the oldest of 16 (21 R353). -/
def Core.setWatch (x : Core) (w : Watch) : Core :=
  let l := x.watches.filter (fun o => o.d != w.d)
  { x with watches := (if 16 ≤ l.length then l.drop 1 else l) ++ [w] }

/-- The result is known: it will be delivered by the next completion of this flight. -/
def Core.resolve (x : Core) (id : Nat) (v : RVal) : Core :=
  { x with flights := x.flights.map (fun f => if f.takes id then { f with res := some v, kind := .plain } else f),
           watches := x.watches.map (Watch.fill id v),
           replay := x.replay.map (fun e => { e with watch := e.watch.map (Watch.fill id v) }) }

/-- A scalar invalid zero, a vector or a yarn one. -/
def zeroOf : Cls → RVal
  | .s => .s iz
  | .v => .v vz
  | .y => .y yz

/-! ### Issue (03 R67, R68) -/

/-- What an instruction does once it has issued. -/
inductive Act where
  /-- It has its effect; the next word follows. -/
  | done (s : State)
  /-- The same, with an effect that left the core or a value from outside, which a replay does not repeat (16 R256). -/
  | eff (s : State)
  /-- It is held at issue (03 R55). -/
  | wait (s : State)
  /-- It is held at issue for a result in flight of its core: the feeder runs stitch messages meanwhile (13 R222). -/
  | pend (s : State)
  /-- It traps, with the address for FADDR. -/
  | trap (code : Nat) (faddr : W64) (s : State)
  /-- Control passes to the block at an address (19 R301, R302). -/
  | go (t : W64) (s : State)
  /-- It ends its block in a way of its own (EXIT, SLEEP, HALT, ERET). -/
  | stop (s : State)

/-- The trap codes of cr.trap (02 R37). -/
abbrev ILLOP : Nat := 1
abbrev PRIV : Nat := 2
abbrev CLASS : Nat := 3
abbrev BADHDR : Nat := 4
abbrev BADTGT : Nat := 5
abbrev STALLSHORT : Nat := 6
abbrev LOOPDEPTH : Nat := 7
abbrev PAGE : Nat := 8
abbrev PROT : Nat := 9
abbrev ALIGN : Nat := 10
abbrev HNDL : Nat := 11
abbrev MSGILL : Nat := 12
abbrev NONREPRO : Nat := 13

/-- An instruction to issue: opcode, the field that R68 looks at as well, a register marked "sys" that it names, stall
count, words, the checks of R67 step 4, the operands it reads, those whose invalidity suppresses it, and whether it may
stand in a stitch message (R69). -/
structure Ins where
  opc : Nat
  aux : Bool := false
  sysReg : Bool := false
  st : BitVec 3
  n : Nat := 1
  legal : CoreKind → Bool
  srcs : List Src
  need : List Src
  msg : Bool := false
  dst : BitVec 5 := 0

/-- A tile core in the save handler runs in system mode (R68, 08 R157). -/
def Core.sysMode (x : Core) : Bool :=
  match x.phase with
  | .saving _ => true
  | _ => false

/-- R67 step 2 and R34: a system opcode, or a register marked "sys", in user mode. -/
def privBad (k : CoreKind) (sysMode : Bool) (i : Ins) : Bool :=
  k != .sysm && !sysMode && ((0x7a ≤ i.opc && i.opc ≤ 0x7e) || i.sysReg)

/-- R67 step 3: the opcode is not permitted on this kind of core (R68). -/
def classBad (k : CoreKind) (opc : Nat) (aux : Bool) : Bool :=
  match k with
  | .worker => false
  | .feeder => (0x40 ≤ opc && opc ≤ 0x67) || (0x73 ≤ opc && opc ≤ 0x75)
  | .sysm => opc == 0x07 || (0x30 ≤ opc && opc ≤ 0x35) || opc == 0x3a || opc == 0x3b || (opc == 0x3e && aux) ||
      (0x40 ≤ opc && opc ≤ 0x6d) || (0x70 ≤ opc && opc ≤ 0x76) || (opc == 0x77 && aux)

/-- The operand codes and destinations that a stitch message may use (R43, R350): queue ages and the constants. -/
def msgSrc : Src → Bool
  | .s c => c.toNat ≤ 15 || (44 ≤ c.toNat && c.toNat ≤ 46)
  | _ => false

/-- The encoding checks of R67, in order: none when all pass. -/
def encCheck (k : CoreKind) (sysMode : Bool) (i : Ins) : Option Nat :=
  if privBad k sysMode i then some PRIV
  else if classBad k i.opc i.aux then some CLASS
  else if !i.legal k then some ILLOP
  else none

/-- The end of a stitch message: the feeder's own bank and block are in use again (13 R222). -/
def Core.endMsg (x : Core) : Core :=
  { x with sel := .norm, blk := (x.msgRun.map (·.2)).getD Blk.none, msgRun := none, blocked := false,
           awaits := false, began := none, busyAt := none, msgRec := [], msgTo := 0 }

/-- Moving past an instruction: STALL slots stay empty (R55); a replay takes up an instruction that had begun (16 R256); past the last word the next header is entered (R46), or the
message ends. -/
def Core.advance (x : Core) (n : Nat) (st : BitVec 3) : Core :=
  let b := { x.blk with widx := x.blk.widx + n, slot := x.blk.slot + 1 + st.toNat }
  let x' := { x with blk := b, blocked := false, awaits := false, busyAt := none,
                     began := match x.resume with
                       | some (w, k) => if w = b.widx ∧ x.sel ≠ .msg then some k else none
                       | none => none }
  if b.words.length ≤ b.widx then
    (if x.sel = .msg then x'.endMsg
     else if x.phase = .running then { x' with phase := .entering x.blk.next .fall } else x')
  else x'

/-- The watch that the instruction at a word, which has just issued, has set. -/
def Core.newWatch (x : Core) (word : Nat) : Option Watch :=
  x.watches.find? (fun w => w.fid + 1 == x.nextId && x.flights.any (fun f => f.id == w.fid && f.word == word))

/-- Remembering the registers after an instruction whose effect was released (16 R256), and its watch (21 R366); a stitch message
is no part of the block and has a record of its own. -/
def Core.record (x : Core) (word : Nat) : Core :=
  if x.sel = .msg then { x with msgRec := x.msgRec ++ [⟨word, some x.r, none⟩] }
  else { x with replay := x.replay ++ [⟨word, some x.r, x.newWatch word⟩] }

/-- The record of what the core runs, of an instruction that a replay has reached and whose effect was released. -/
def Core.recorded (x : Core) : Option RepEntry :=
  if x.sel = .msg then (if x.blk.widx < x.msgTo then x.msgRec.find? (fun e => e.word == x.blk.widx) else none)
  else if x.blk.widx < x.replayTo then x.replay.find? (fun e => e.word == x.blk.widx) else none

/-- An instruction whose effect was released is replayed: its registers, and the watch it set; of a stitch message the message's own. -/
def Core.again (x : Core) (e : RepEntry) : Core :=
  if x.sel = .msg then { x with r := { x.r with msg := (e.after.getD x.r).msg } }
  else match e.watch with
  | some w => { x with r := e.after.getD x.r }.setWatch w
  | none => { x with r := e.after.getD x.r }

/-- A stitch message that breaks its restricted set is discarded (03 R69): MSGCNT, which saturates, and a record. -/
def State.discardMsg (s : State) (c : CoreRef) : State :=
  let x := s.core c
  match x.msgRun with
  | none => s
  | some (m, _) =>
    let cnt := x.trap.toNat / 2 ^ 120
    let trap := if cnt = 255 then x.trap else BitVec.ofNat 128 (x.trap.toNat + 2 ^ 120)
    let s := s.setCore c { x.endMsg with trap := trap }
    s.logTile (tileOf c) 0x0007 1 (detail [(336, (s.vtileBits m.src).toNat), (333, m.cls), (309, m.seq)])

/-- The state after an instruction of a core. A trap inside a stitch message, of whatever kind, discards the message (log 27). -/
def finish (c : CoreRef) (n : Nat) (st : BitVec 3) : Act → State
  | .done s => s.modCore c (·.advance n st)
  | .eff s => s.modCore c (fun x => (x.record x.blk.widx).advance n st)
  | .wait s => s.modCore c (fun x => { x with blocked := true, awaits := false })
  | .pend s => s.modCore c (fun x => { x with blocked := true, awaits := true })
  | .trap code a s => if (s.core c).sel = .msg then s.discardMsg c else s.takeTrap c code a
  | .go t s => s.modCore c (fun x =>
      { x with phase := .entering t (.branch x.blk.hdr x.blk.widx), blocked := false, awaits := false, began := none,
               resume := none, busyAt := none, replayTo := 0 })
  | .stop s => s.modCore c (fun x => { x with blocked := false, awaits := false, began := none, resume := none,
                                              busyAt := none, replayTo := 0 })

/-- Early reads are trapped: cr.check or the block's CHK bit (03 R45, R56). -/
def Core.checking (x : Core) : Bool := x.check || x.blk.head.getLsbD 3

/-- A GADV holds issue until its result has arrived (11 R195). -/
def Core.held (x : Core) : Bool := x.flights.any (fun f => x.mine f && f.hold)

/-- What a core does with an instruction (R67): the encoding checks, a wait for operands in flight (R57), the check of
early reads, suppression for an invalid operand (R38), then the instruction's own effect. In a replay, an instruction
whose effect was released is not performed again (16 R256). -/
def issueAct (i : Ins) (supp body : CoreRef → State → Act) (c : CoreRef) (s : State) : Act :=
  let x := s.core c
  if x.held then .pend s
  else match encCheck (kindOf c) x.sysMode i with
  | some code => .trap code 0 s
  | none =>
    if x.sel = .msg ∧ !(i.msg && i.srcs.all msgSrc && (i.dst = 0 || i.dst = 31)) then .trap ILLOP 0 s
    else match x.recorded with
      | some e => .done (s.setCore c (x.again e))
      | none =>
        if i.srcs.any x.srcPend then .pend s
        else if x.checking ∧ i.srcs.any x.srcEarly then .trap STALLSHORT 0 s
        else if i.need.all (s.srcOk c) then body c s
        else supp c s

/-- The core can issue: it runs a block, runs a message, or is in the save handler. -/
def Core.issues (x : Core) : Bool :=
  match x.phase with
  | .running => true
  | .saving _ => true
  | _ => x.sel == .msg

/-- A reported fault has stopped the context of a tile core until its rollback (16 R252). -/
def State.stopped (s : State) (c : CoreRef) : Bool :=
  match kindOf c with
  | .sysm => false
  | _ => (s.ctxOfTile (tileOf c)).fault

/-- Issue of an instruction at the core whose turn it is. A core that does not run issues nothing. -/
def issue (i : Ins) (supp body : CoreRef → State → Act) (s : State) : Host.Outcome State Fault Refusal :=
  if !coreExists s.cur then .fault .noSuchCore
  else if !(s.core s.cur).issues || s.stopped s.cur then .next s
  else .next (finish s.cur i.n i.st (issueAct i supp body s.cur s))

/-- Suppression of an instruction that delivers a fixed-latency scalar: an invalid zero (R38). -/
def suppS (d : BitVec 5) (l : Nat) (c : CoreRef) (s : State) : Act := .done (s.modCore c (·.outS d l iz))

/-- Suppression of an instruction that delivers nothing. -/
def suppNone (_c : CoreRef) (s : State) : Act := .done s

/-- Suppression of a variable-latency operation: an invalid zero of its class, delivered at once. -/
def suppVar (cls : Cls) (d : BitVec 5) (c : CoreRef) (s : State) : Act :=
  .eff (s.modCore c (fun x => x.launch cls d { Flight.base with res := some (zeroOf cls) }))

end Sys2Proof.Machine
end

