-- ==== Sys2Proof/Machine/Flags.lean ====
section
/-! DEFINITION. The sticky float flags (04 R100, R101) and the conditions of releases and acquires (07 R138, R141,
R142). -/

namespace Sys2Proof.Machine

/-- Flag bits of cr.fflags (02 R35): IV DZ OF UF NX. -/
abbrev fIV : BitVec 5 := 16
abbrev fDZ : BitVec 5 := 8
abbrev fOF : BitVec 5 := 4
abbrev fUF : BitVec 5 := 2
abbrev fNX : BitVec 5 := 1

/-- Raising flags: they are ORed in, never cleared. -/
def Core.raise (x : Core) (f : BitVec 5) : Core := { x with r := { x.r with fflags := x.r.fflags ||| f } }

/-- Raising flags at the completion of an earlier instruction: the state a replay starts from has them as well (04 R96,
16 R256). -/
def Core.raiseLate (x : Core) (f : BitVec 5) (y : Bool) : Core :=
  let g (r : Regs) : Regs := { r with fflags := r.fflags ||| f, yund := r.yund || y }
  { x with r := g x.r, shadow := x.shadow.map g, replay := x.replay.map (fun e => { e with after := e.after.map g }) }

/-- What an acquire of wide scope drops in the tile (R141): L1 lines and every line of its windows. -/
def VTile.invalidate (v : VTile) : VTile :=
  { v with l1 := [], handles := mmapv (fun (h : Handle) => if h.kind = 1 then { h with lines := [], data := [] } else h) v.handles }

/-- The effect of an acquire once it has its value (R142; 21 R353: it breaks the core's watches). -/
def State.acquire (s : State) (c : CoreRef) (scope : Nat) : State :=
  let s := s.modCore c (fun x => { x with watches := [] })
  match kindOf c with
  | .sysm => s
  | _ => if wide scope then s.modTile (tileOf c) VTile.invalidate else s

end Sys2Proof.Machine
end

