-- ==== Sys2Proof/Machine/Control.lean ====
section
/-! DEFINITION. Control instructions (19 R303-R309): NOP, the transfers of control, LOOP, EXIT, WAIT and TRAP. -/

namespace Sys2Proof.Machine

/-- The address 8 x n units from a block's header, n signed (R304, R306). -/
def relTarget {w : Nat} (hdr : W64) (o : BitVec w) : W64 := hdr + BitVec.ofInt 64 (8 * o.toInt)

/-- Writing s15 as CALL does: at latency 1, with no push (R304). -/
def Core.setLink (x : Core) (v : W64) : Core :=
  let b := x.bank
  x.setBank { b with s := vset b.s 15 ⟨⟨v, true⟩, x.blk.slot + 1, none⟩ }

/-- NOP (R303). -/
def execNop (st : BitVec 3) (s : State) : Host.Outcome State Fault Refusal :=
  issue { opc := 0x00, st := st, legal := fun _ => true, srcs := [], need := [], msg := true } suppNone
    (fun _ s => .done s) s

/-- BR (R304). -/
def execBr (st : BitVec 3) (o : BitVec 16) (s : State) : Host.Outcome State Fault Refusal :=
  issue { opc := 0x01, st := st, legal := fun _ => true, srcs := [], need := [] } suppNone
    (fun c s => .go (relTarget (s.core c).blk.hdr o) s) s

/-- A condition field: a scalar code, or 63 for "always" (03 R52). -/
def condLegal (k : CoreKind) (f : BitVec 6) : Bool := f.toNat == 63 || sLegal k f

/-- The operands a condition field reads. -/
def condSrcs (f : BitVec 6) : List Src := if f.toNat = 63 then [] else [.s f]

/-- BRV (R304): taken when the condition is valid, always for 63. -/
def execBrv (st : BitVec 3) (f : BitVec 6) (o : BitVec 16) (s : State) : Host.Outcome State Fault Refusal :=
  issue { opc := 0x02, st := st, legal := fun k => condLegal k f, srcs := condSrcs f, need := [] } suppNone
    (fun c s => if f.toNat = 63 ∨ (s.rdS c f).ok then .go (relTarget (s.core c).blk.hdr o) s else .done s) s

/-- BRN (R304): taken when the condition is invalid, never for 63. -/
def execBrn (st : BitVec 3) (f : BitVec 6) (o : BitVec 16) (s : State) : Host.Outcome State Fault Refusal :=
  issue { opc := 0x03, st := st, legal := fun k => condLegal k f, srcs := condSrcs f, need := [] } suppNone
    (fun c s => if f.toNat ≠ 63 ∧ !(s.rdS c f).ok then .go (relTarget (s.core c).blk.hdr o) s else .done s) s

/-- CALL (R304): s15 takes the address of the header after the block. -/
def execCall (st : BitVec 3) (o : BitVec 16) (s : State) : Host.Outcome State Fault Refusal :=
  issue { opc := 0x04, st := st, legal := fun _ => true, srcs := [], need := [] } suppNone
    (fun c s => .go (relTarget (s.core c).blk.hdr o) (s.modCore c (fun x => x.setLink x.blk.next))) s

/-- A transfer through a register (R305): the target must be 8-byte aligned, which is looked at once s15 is written;
A is read before. -/
def regTarget (link : Bool) (a : BitVec 6) (c : CoreRef) (s : State) : Act :=
  let t := (s.rdS c a).v
  let s := if link then s.modCore c (fun x => x.setLink x.blk.next) else s
  if t.toNat % 8 ≠ 0 then .trap BADTGT 0 s else .go t s

/-- BRX (R305). -/
def execBrx (st : BitVec 3) (a : BitVec 6) (s : State) : Host.Outcome State Fault Refusal :=
  issue { opc := 0x05, st := st, legal := fun k => sLegal k a, srcs := [.s a], need := [.s a] } suppNone (regTarget false a) s

/-- CALL through a register (R305). -/
def execCallThroughRegister (st : BitVec 3) (a : BitVec 6) (s : State) : Host.Outcome State Fault Refusal :=
  issue { opc := 0x05, st := st, legal := fun k => sLegal k a, srcs := [.s a], need := [.s a] } suppNone (regTarget true a) s

/-- RET (R305). -/
def execRet (st : BitVec 3) (a : BitVec 6) (s : State) : Host.Outcome State Fault Refusal :=
  issue { opc := 0x05, st := st, legal := fun k => sLegal k a, srcs := [.s a], need := [.s a] } suppNone (regTarget false a) s

/-- Writing a loop counter with no push. -/
def Core.setK (x : Core) (d : BitVec 5) (v : SVal) : Core :=
  let b := x.bank
  x.setBank { b with k := vset b.k (d.toNat - 25) ⟨v, 0, none⟩ }

/-- LOOP's effect (R306). -/
def loopBody (a : BitVec 6) (d : BitVec 5) (imm : BitVec 32) (c : CoreRef) (s : State) : Act :=
  let x := s.core c
  let n := s.rdS c a
  let exit := relTarget x.blk.hdr imm
  let cnt : W64 := (n.v.setWidth 32).setWidth 64
  if !n.ok then .go exit (s.setCore c (x.setK d iz))
  else if 4 ≤ x.bank.loops.length then .trap LOOPDEPTH 0 s
  else if cnt = 0 then .go exit (s.setCore c (x.setK d ⟨0, true⟩))
  else
    let y := x.setK d ⟨cnt, true⟩
    .go x.blk.next (s.setCore c (y.setBank { y.bank with loops := ⟨d.toNat - 25, x.blk.next, exit⟩ :: y.bank.loops }))

/-- LOOP (R306): an exit header that is the next header is illegal, as a field value is. -/
def execLoop (st : BitVec 3) (a : BitVec 6) (d : BitVec 5) (imm : BitVec 32) (s : State) :
    Host.Outcome State Fault Refusal :=
  let b := (s.core s.cur).blk
  issue { opc := 0x06, st := st, n := 2,
          legal := fun k => sLegal k a && 25 ≤ d.toNat && d.toNat ≤ 28 && relTarget b.hdr imm != b.next, srcs := [.s a],
          need := [] } suppNone (loopBody a d imm) s

/-- EXIT (10 R184): a task that leaves groups makes a release first (11 R195, R196). -/
def execExit (st : BitVec 3) (s : State) : Host.Outcome State Fault Refusal :=
  issue { opc := 0x07, st := st, legal := fun _ => true, srcs := [], need := [] } suppNone
    (fun c s => .stop (s.endTask c)) s

/-- A flight that WAIT.all waits for: a result in flight, or a store, atomic or remote access; MSEND, GLEAVE and GAUGE are none. -/
def Flight.waited (f : Flight) : Bool :=
  match f.kind with
  | .held h => (match h.op with
    | .msg _ _ => false
    | .grp _ r => r.kind != 1 && r.kind != 3
    | _ => true)
  | _ => true

/-- A flight whose result is awaited, as opposed to a store that is to be performed. -/
def Flight.isResult (f : Flight) : Bool :=
  match f.kind with
  | .held h => h.op.isRead
  | .launch _ => false
  | .gate _ _ => false
  | _ => true

/-- A remote access of the core is on its way, or not applied yet. -/
def State.accOut (s : State) (c : CoreRef) : Bool :=
  s.traffic.any (fun i => decide (i.c = c) && (match i.body with
    | .acc _ _ _ => true
    | _ => false))

/-- WAIT.all (R308): the feeder runs stitch messages while it waits for a result (13 R222). -/
def execWaitAll (st : BitVec 3) (s : State) : Host.Outcome State Fault Refusal :=
  issue { opc := 0x08, st := st, legal := fun _ => true, srcs := [], need := [] } suppNone
    (fun c s =>
      let l := (s.core c).flights.filter Flight.waited
      if l.isEmpty && !s.buffered c && !s.accOut c then .done s
      else if l.any Flight.isResult then .pend s else .wait s) s

/-- WAIT.time (R308). -/
def execWaitTime (st : BitVec 3) (a : BitVec 6) (s : State) : Host.Outcome State Fault Refusal :=
  issue { opc := 0x08, st := st, legal := fun k => sLegal k a, srcs := [.s a], need := [.s a] } suppNone
    (fun c s => if (s.rdS c a).v.toNat ≤ s.clock c then .done s else .wait s) s

/-- TRAP (R309): the trap whose code is the immediate, 1-14. It has no faulting address: FADDR is 0, and cr.mcause of a system
or management core names the block (22 R391). -/
def execTrap (st : BitVec 3) (i : BitVec 11) (s : State) : Host.Outcome State Fault Refusal :=
  issue { opc := 0x09, st := st, legal := fun _ => 1 ≤ i.toNat && i.toNat ≤ 14, srcs := [], need := [] } suppNone
    (fun c s => .trap i.toNat (if kindOf c = .sysm then (s.core c).blk.hdr else 0) s) s

end Sys2Proof.Machine
end

