-- ==== Sys2Proof/Machine/Blocks.lean ====
section
/-! DEFINITION. The memory-mapped registers of system and management cores: the core block (22 R385), the slot block
(28 R418-R420) and the power and thermal blocks (18 R285, R286), with the actions their stores take. -/

namespace Sys2Proof.Machine

/-! ### Placement of a queue (09 R164, R173) -/

/-- The chiplet that serves a queue's home position. -/
def State.queueHome (s : State) (q : Queue) : Nat :=
  let x := s.ctx q.ctxn
  8 * (x.vy0 / 16 + q.hcy) + (x.vx0 / 16 + q.hcx)

/-- A context whose queues are not parked (R173). -/
def Ctx.live (x : Ctx) : Bool := x.st == .running || x.st == .debugging

/-- A context is resident: the chiplets of its partition are its own, and its queues have a home there (R173; 28 R419). -/
def Ctx.resident (x : Ctx) : Bool := !x.out && x.st != .saved && x.st != .destroyed

/-- The slot of a chiplet that holds a queue. -/
def Chip.slotOf (h : Chip) (q : Nat) : Option Nat := (h.slots.find? (fun e => e.2.q == q)).map (·.1)

/-- A slot of this panel holds the queue. -/
def State.mapped (s : State) (q : Nat) : Bool := s.chips.any (fun e => (e.2.slotOf q).isSome)

/-- Setting the pending-kick bit of a queue on a chiplet (R169): the time since it was last set from clear is kept, and
QE is raised on the active system core. -/
def State.setPkb (s : State) (chip q : Nat) : State :=
  let h := s.chip chip
  let h := match mfind h.pkb q with
    | some _ => h
    | none => { h with pkb := mput h.pkb q s.time }
  (s.setChip chip h).raiseQE chip

/-! ### The slot block (28 R418-R420) -/

/-- STATE of a slot. -/
def SlotSt.code : SlotSt → Nat
  | .mapping => 1
  | .active => 2
  | .idle => 3
  | .unmapping => 4

/-- SLOTn as it reads; 0 when FREE. -/
def Chip.slotWord (h : Chip) (n : Nat) : W64 :=
  match mfind h.slots n with
  | some x => BitVec.ofNat 64 (x.st.code * 2 ^ 32 + x.prio % 8 * 2 ^ 16 + x.q)
  | none => 0

/-- A point of a context is SEALED or MERGED (16 R265): the points before the oldest one kept are merged into it. -/
def Ctx.pointSealed (x : Ctx) (n : Nat) : Bool :=
  x.points.any (fun p => p.num == n && (p.st == .sealed || p.st == .merged)) ||
    (!x.points.isEmpty && x.points.all (fun p => decide (n < p.num)))

/-- The cut time of a point. -/
def Ctx.cutOf (x : Ctx) (n : Nat) : Nat := ((x.points.find? (fun p => p.num == n)).map (·.cut)).getD 0

/-- The oldest sealed point that still has stores in a chiplet's gate. -/
def State.oldestSealed (s : State) (chip : Nat) : Option GateE :=
  ((s.chip chip).gate.filter (fun g => (s.ctx g.ctx).pointSealed g.tag)).foldl (fun o g =>
    match o with
    | none => some g
    | some b =>
      let u := (s.ctx g.ctx).cutOf g.tag
      let v := (s.ctx b.ctx).cutOf b.tag
      if u < v ∨ (u = v ∧ g.tag < b.tag) then some g else some b) none

/-- GSEAL (R418). -/
def State.gseal (s : State) (chip : Nat) : W64 :=
  match s.oldestSealed chip with
  | some g => BitVec.ofNat 64 (2 ^ 63 + g.ctx * 2 ^ 32 + g.tag % 2 ^ 32)
  | none => 0

/-- PKBd (R418). -/
def Chip.pkbWord (h : Chip) (d : Nat) : W64 :=
  BitVec.ofNat 64 ((rangeFrom 0 64).foldl (fun a j => if (mfind h.pkb (64 * d + j)).isSome then a + 2 ^ j else a) 0)

/-- A slot enters UNMAPPING (R172). -/
def Slot.unmap (x : Slot) (noBit : Bool) : Slot := { x with st := .unmapping, noBit := noBit, unmapReq := false }

/-- A fresh slot in MAPPING. -/
def Slot.mk0 (q prio now : Nat) : Slot :=
  { st := .mapping, q := q, prio := prio, since := now, noBit := false, unmapReq := false }

/-- Recording the outcome of a CMD; a refused one is logged (R419). -/
def State.cmdDone (s : State) (chip st : Nat) (w : W64) : State :=
  let s := s.modChip chip (fun h => { h with cmdst := BitVec.ofNat 2 st })
  if st = 2 then s.logSys 0x0027 2 0 (detail [(288, w.toNat)]) else s

/-- The queue exists and is disabled. -/
def State.queueOff (s : State) (q : Nat) : Bool :=
  match mfind s.queues q with
  | some qu => !qu.en
  | none => false

/-- MAP of a queue to a slot (R419). -/
def State.cmdMap (s : State) (chip n prio q : Nat) (w : W64) : State :=
  let h := s.chip chip
  match mfind h.slots n with
  | some x =>
    if x.q = q then s.cmdDone chip 1 w
    else if s.queueOff q then (s.setChip chip { h with pkb := mdel h.pkb q }).cmdDone chip 2 w
    else s.cmdDone chip 2 w
  | none =>
    match mfind s.queues q with
    | none => s.cmdDone chip 2 w
    | some qu =>
      if !qu.en then (s.setChip chip { h with pkb := mdel h.pkb q }).cmdDone chip 2 w
      else if s.queueHome qu = chip ∧ (s.ctx qu.ctxn).resident ∧ !s.mapped q then
        (s.setChip chip { h with slots := mput h.slots n (Slot.mk0 q (max prio qu.maxprio) s.time) }).cmdDone chip 0 w
      else s.cmdDone chip 2 w

/-- UNMAP of a slot (R419). A store that names a MAPPING slot which holds the queue is not performed before the load
(State.cmdWaits). -/
def State.cmdUnmap (s : State) (chip n q : Nat) (w : W64) : State :=
  let h := s.chip chip
  match mfind h.slots n with
  | none => s.cmdDone chip 1 w
  | some x =>
    if x.st = .unmapping then s.cmdDone chip 1 w
    else if x.q ≠ q then s.cmdDone chip 2 w
    else if x.st = .mapping then s
    else (s.setChip chip { h with slots := mput h.slots n (x.unmap false) }).cmdDone chip 0 w

/-- PRIO of a slot (R419). -/
def State.cmdPrio (s : State) (chip n prio q : Nat) (w : W64) : State :=
  let h := s.chip chip
  match mfind h.slots n with
  | some x =>
    if x.q ≠ q then s.cmdDone chip 2 w
    else if x.prio = prio then s.cmdDone chip 1 w
    else (s.setChip chip { h with slots := mput h.slots n { x with prio := prio } }).cmdDone chip 0 w
  | none => s.cmdDone chip 2 w

/-- A field of a word. -/
def wf (w : W64) (lo n : Nat) : Nat := w.toNat / 2 ^ lo % 2 ^ n

/-- A store to CMD (R418, R419). -/
def State.cmdWrite (s : State) (chip : Nat) (w : W64) : State :=
  if wf w 54 6 ≠ 0 ∨ wf w 43 5 ≠ 0 ∨ wf w 16 24 ≠ 0 then s.cmdDone chip 2 w
  else match wf w 60 4 with
    | 1 => s.cmdMap chip (wf w 48 6) (wf w 40 3) (wf w 0 16) w
    | 2 => s.cmdUnmap chip (wf w 48 6) (wf w 0 16) w
    | 3 => s.cmdPrio chip (wf w 48 6) (wf w 40 3) (wf w 0 16) w
    | _ => s.cmdDone chip 2 w

/-- A store to CMD that waits for the load of a slot: UNMAP of a MAPPING slot that holds QUEUE (R419). -/
def State.cmdWaits (s : State) (chip : Nat) (w : W64) : Bool :=
  wf w 60 4 == 2 && wf w 54 6 == 0 && wf w 43 5 == 0 && wf w 16 24 == 0 && (match mfind (s.chip chip).slots (wf w 48 6) with
    | some x => x.st == .mapping && x.q == wf w 0 16
    | none => false)

/-- Insertion of a gate store before others of its tag: from the last arrival to the first this gives tag order, and arrival
order within one tag (R420). -/
def insGate (g : GateE) : List GateE → List GateE
  | [] => [g]
  | x :: r => if g.tag ≤ x.tag then g :: x :: r else x :: insGate g r

/-- A store that leaves the gate is made; the kernel it completes is COMPLETE once both its stores have left. -/
def State.gateOut (s : State) (chip : Nat) (g : GateE) : State :=
  let s := s.put g.ctx (atAddr g.pa (natBytes 8 g.v.toNat))
  match g.kern with
  | some k =>
    if (s.chip chip).gate.any (fun o => o.kern == some k) then s
    else s.modKern k (fun x => { x with st := .complete })
  | none => s

/-- A store to GREL (R420): the stores held for the context with a tag at or below POINT leave, if POINT is sealed. -/
def State.grelWrite (s : State) (chip : Nat) (w : W64) : State :=
  let n := wf w 32 8
  let p := wf w 0 32
  if wf w 40 24 ≠ 0 ∨ !(s.ctx n).pointSealed p then s
  else
    let h := s.chip chip
    let out (g : GateE) : Bool := g.ctx == n && g.tag ≤ p
    let l := (h.gate.filter out).foldr insGate []
    let s := s.setChip chip { h with gate := h.gate.filter (fun g => !out g) }
    l.foldl (fun s g => s.gateOut chip g) s

/-! ### The power and thermal block (18 R285, R286, R291) -/

/-- EFF (R286). -/
def PowerBlk.eff (p : PowerBlk) : Nat := max p.swl (max p.capl p.thl)

/-- GUST as GATE reads it. -/
def Gust.code : Gust → Nat
  | .quiet => 0
  | .notified => 1
  | .ready => 2

/-- A gust notice cause (R291): QUIET moves to NOTIFIED, NOTIFIED stays, READY restarts its settle time. -/
def PowerBlk.notice (p : PowerBlk) (now : Nat) : PowerBlk :=
  match p.gust with
  | .quiet => { p with gust := .notified, gustAt := now }
  | .notified => p
  | .ready => { p with gustAt := now }

/-- A notice cause on a chiplet. -/
def State.gustNotice (s : State) (chip : Nat) : State :=
  s.modChip chip (fun h => { h with pw := h.pw.notice s.time })

/-- A register of the power and thermal block. -/
def PowerBlk.read (p : PowerBlk) (off : Nat) : W64 :=
  BitVec.ofNat 64 (match off with
    | 0x000 => p.hot % 2 ^ 9 * 2 ^ 16 + (BitVec.ofInt 16 p.tmax).toNat
    | 0x008 => p.dio % 4 * 2 ^ 22 + p.dcore % 4 * 2 ^ 20 + (if p.pend then 2 ^ 17 else 0) + (if p.en then 2 ^ 16 else 0) +
        p.thresh.toNat
    | 0x010 => p.eff % 8 * 2 ^ 16 + p.thl % 8 * 2 ^ 12 + p.capl % 8 * 2 ^ 8 + p.swl % 8
    | 0x018 => p.act % 2 ^ 12 * 2 ^ 16 + p.set % 2 ^ 12
    | 0x020 => p.avglim % 2 ^ 16 * 2 ^ 32 + p.pklim % 2 ^ 16
    | 0x028 => p.integ.avg % 2 ^ 16 * 2 ^ 32 + p.integ.pk % 2 ^ 16
    | 0x030 => p.setmv % 2 ^ 10 * 2 ^ 16 + p.mv % 2 ^ 10
    | 0x038 => p.gust.code * 2 ^ 32 + (if p.gen then 1 else 0)
    | _ => 0)

/-- A write of SET (R285, R288): outside 900-2200 it is ignored, within it is rounded down. -/
def PowerBlk.setFreq (p : PowerBlk) (f : Nat) : PowerBlk :=
  if 900 ≤ f ∧ f ≤ 2200 then { p with set := f / 100 * 100 } else p

/-- Clearing PEND (R285: write 1 clears). -/
def PowerBlk.clearPend (p : PowerBlk) : PowerBlk := { p with pend := false }

/-- A register write of the power and thermal block. -/
def PowerBlk.write (p : PowerBlk) (off : Nat) (w : W64) : PowerBlk :=
  match off with
  | 0x008 =>
    let p := if wf w 17 1 = 1 then p.clearPend else p
    { p with dio := wf w 22 2, dcore := wf w 20 2, en := wf w 16 1 == 1, thresh := BitVec.ofNat 16 (wf w 0 16) }
  | 0x010 => { p with swl := wf w 0 3 }
  | 0x018 => p.setFreq (wf w 0 12)
  | 0x020 =>
    let p := if wf w 32 16 ≤ 780 then { p with avglim := wf w 32 16 } else p
    if wf w 0 16 ≤ 900 then { p with pklim := wf w 0 16 } else p
  | 0x038 => { p with gen := wf w 0 1 == 1 }
  | _ => p

/-! ### The core block (22 R385) -/

/-- A register of the core block. -/
def State.coreBlk (s : State) (c : CoreRef) (off : Nat) : W64 :=
  let x := s.core c
  if off < 0x20 then vget 0 x.vec (off / 8)
  else match off with
    | 0x20 => x.timecmp
    | 0x28 => BitVec.ofNat 64 ((if x.mc then 8 else 0) + (if x.qe then 4 else 0) + (if s.thPending c then 2 else 0) +
        (if s.tmPending c then 1 else 0))
    | 0x30 => BitVec.ofNat 64 ((if x.inh then 2 ^ 63 else 0) + x.ien.toNat * 2 ^ 8 + x.last.toNat)
    | _ => 0

/-- A write to the core block. -/
def Core.blkWrite (x : Core) (off : Nat) (w : W64) : Core :=
  if off < 0x20 then { x with vec := vset x.vec (off / 8) (BitVec.ofNat 64 (w.toNat / 8 % 2 ^ 50 * 8)) }
  else match off with
    | 0x20 => { x with timecmp := w }
    | 0x28 => if wf w 2 1 = 1 then { x with qe := false } else x
    | _ => x

/-! ### Addresses of the blocks -/

/-- What an address of a system or management core names. -/
inductive Place where
  | coreB (off : Nat)
  | slotB (off : Nat)
  | powerB (chip off : Nat)
  | plain
deriving DecidableEq, Repr

/-- The place behind an address (R285, R385, R418): the slot block is a system core's. -/
def placeOf (c : CoreRef) (a : Nat) : Place :=
  if 0x1ffe0000000000 ≤ a ∧ a < 0x1ffe0000000040 then .coreB (a - 0x1ffe0000000000)
  else if 0x1fff0000000000 ≤ a ∧ a < 0x1fff0000400000 then
    .powerB ((a - 0x1fff0000000000) / 0x10000) ((a - 0x1fff0000000000) % 0x10000)
  else match c with
    | .sys _ _ => if 0x1ffd0000000000 ≤ a ∧ a < 0x1ffd0000003000 then .slotB (a - 0x1ffd0000000000) else .plain
    | _ => .plain

/-- A read of an 8-byte register. -/
def State.placeRead (s : State) (c : CoreRef) : Place → W64
  | .coreB off => s.coreBlk c off
  | .powerB chip off => (s.chip chip).pw.read off
  | .slotB off =>
    let chip := chipOfCore c
    if off < 0x200 then (s.chip chip).slotWord (off / 8)
    else if off = 0x208 then ((s.chip chip).cmdst).setWidth 64
    else if off = 0x218 then s.gseal chip
    else if 0x1000 ≤ off then (s.chip chip).pkbWord ((off - 0x1000) / 8)
    else 0
  | .plain => 0

/-- A write of an 8-byte register. -/
def State.placeWrite (s : State) (c : CoreRef) (p : Place) (w : W64) : State :=
  match p with
  | .coreB off => s.modCore c (·.blkWrite off w)
  | .powerB chip off => s.modChip chip (fun h => { h with pw := h.pw.write off w })
  | .slotB off =>
    if off = 0x200 then s.cmdWrite (chipOfCore c) w
    else if off = 0x210 then s.grelWrite (chipOfCore c) w
    else s
  | .plain => s

/-! ### Plain memory of these cores and the journal (28 R421) -/

/-- The journal ring of a system core: 64 KiB at cr.jbase (09 R177). -/
def State.inJournal (s : State) (c : CoreRef) (a : Nat) : Bool :=
  match c with
  | .sys _ _ =>
    let j := (s.core c).jbase.toNat
    j ≤ a && a < j + 65536
  | _ => false

/-- An 8-byte store at an address is that of the upper half of a journal record. -/
def State.upperHalf (s : State) (c : CoreRef) (a n : Nat) : Bool :=
  n == 8 && s.inJournal c a && (a - (s.core c).jbase.toNat) % 16 == 8

/-- The upper half of a record is held back. -/
def Core.holdHalf (x : Core) (a : Nat) (w : W64) : Core := { x with half := mput x.half a w }

/-- The bytes that a store makes: that of the lower half of a record takes the upper half that is held back. -/
def State.withHalf (s : State) (c : CoreRef) (a : Nat) (bytes : List Byte) : State × List Byte :=
  if s.inJournal c a ∧ bytes.length = 8 then
    match mfind (s.core c).half (a + 8) with
    | some v => (s.modCore c (fun x => { x with half := mdel x.half (a + 8) }), bytes ++ natBytes 8 v.toNat)
    | none => (s, bytes)
  else (s, bytes)

/-- An 8-byte store to the journal ring: the upper half of a record is held until the lower half is stored, and both
are then written in one step. -/
def State.journalStore (s : State) (c : CoreRef) (a : Nat) (w : W64) : State :=
  if s.upperHalf c a 8 then s.modCore c (·.holdHalf a w)
  else
    let r := s.withHalf c a (natBytes 8 w.toNat)
    r.1.ownWrite c a r.2

/-! ### Accesses of these cores that have issued (21 R347; 28 R421) -/

/-- The kind of bytes an address names and its number among them: two accesses meet where these do. -/
def ownKey (c : CoreRef) (a : Nat) : Nat × Nat :=
  match placeOf c a, ownPa c a with
  | .plain, .sram k => (0, k)
  | .plain, .glob k => (1, k)
  | _, _ => (2, a)

/-- Two accesses share a byte. -/
def ownMeets (c : CoreRef) (a n b m : Nat) : Bool :=
  let x := ownKey c a
  let y := ownKey c b
  x.1 == y.1 && decide (x.2 < y.2 + m ∧ y.2 < x.2 + n)

/-- An access to the slot block or to the journal ring: these are performed in program order (28 R421). -/
def State.ownOrdered (s : State) (c : CoreRef) (a : Nat) : Bool :=
  s.inJournal c a || (match placeOf c a with
    | .slotB _ => true
    | _ => false)

/-- A flight holds an access of such a core that one to n bytes at an address follows: they share a byte, or both are ordered. -/
def State.ownAfter (s : State) (c : CoreRef) (a n : Nat) (f : Flight) : Bool :=
  match f.kind with
  | .held ⟨.own b m _, _, _⟩ => ownMeets c a n b m || (s.ownOrdered c a && s.ownOrdered c b)
  | _ => false

/-- The value that a register or memory gives to a load of n bytes. -/
def State.ownLoad (s : State) (c : CoreRef) (a n : Nat) : List Byte :=
  match placeOf c a with
  | .plain => s.ownRead c a n
  | p => natBytes n (s.placeRead c p).toNat

/-- A store of such a core is performed. -/
def State.ownStore (s : State) (c : CoreRef) (a : Nat) (bytes : List Byte) : State :=
  match placeOf c a with
  | .plain => s.ownWrite c a bytes
  | p => s.placeWrite c p (BitVec.ofNat 64 (leNat bytes))

end Sys2Proof.Machine
end

