-- ==== Sys2Proof/Machine/Integer.lean ====
section
/-! DEFINITION. Integer, immediate and validity instructions (19 R310-R315) and pointer instructions (R316-R319). -/

namespace Sys2Proof.Machine

/-! ### Operations on 64-bit values (R310, R311) -/

/-- A valid value. -/
def valid (v : W64) : SVal := ⟨v, true⟩

/-- Number of one bits among the low n. -/
def popN (x : Nat) : Nat → Nat
  | 0 => 0
  | n + 1 => (if x.testBit n then 1 else 0) + popN x n

/-- Number of zero bits below the lowest one bit, looking at n bits from bit k on. -/
def ctzN (x k : Nat) : Nat → Nat
  | 0 => 0
  | n + 1 => if x.testBit k then 0 else 1 + ctzN x (k + 1) n

/-- Leading zero bits of 64. -/
def clz64 (x : W64) : W64 := if x = 0 then 64 else BitVec.ofNat 64 (63 - x.toNat.log2)

/-- The high half of a signed product. -/
def mulHigh (a b : W64) : W64 := BitVec.ofInt 64 (a.toInt * b.toInt / 2 ^ 64)

/-- The high half of an unsigned product. -/
def mulHighU (a b : W64) : W64 := BitVec.ofNat 64 (a.toNat * b.toNat / 2 ^ 64)

/-- A division: invalid zero for a divisor of zero (R311). -/
def divOp (f : W64 → W64 → W64) (a b : W64) : SVal := if b = 0 then iz else valid (f a b)

/-- A shift or rotate amount: b[5:0]. -/
def amt (b : W64) : Nat := b.toNat % 64

/-- The conditions of TEST (R314) at a width; none for a reserved code. -/
def testCond {w : Nat} (f : Nat) (a b : BitVec w) : Option Bool :=
  match f with
  | 0 => some (a == b)
  | 1 => some (a != b)
  | 2 => some (a.slt b)
  | 3 => some (b.sle a)
  | 4 => some (a.ult b)
  | 5 => some (b.ule a)
  | 6 => some (b.slt a)
  | 7 => some (a.sle b)
  | 8 => some (b.ult a)
  | 9 => some (a.ule b)
  | 10 => some (a &&& b != 0)
  | 11 => some (a &&& b == 0)
  | _ => none

/-! ### The shapes of issue -/

/-- A fixed-latency operation of two scalars. -/
def int2 (opc l : Nat) (f : W64 → W64 → W64) (st : BitVec 3) (a b : BitVec 6) (d : BitVec 5) (s : State) :
    Host.Outcome State Fault Refusal :=
  issue { opc := opc, st := st, legal := fun k => sLegal k a && sLegal k b && dLegal k d, srcs := [.s a, .s b],
          need := [.s a, .s b], msg := true, dst := d } (suppS d l)
    (fun c s => .done (s.modCore c (·.outS d l (valid (f (s.rdS c a).v (s.rdS c b).v))))) s

/-- A fixed-latency operation of one scalar. -/
def int1 (opc l : Nat) (f : W64 → W64) (st : BitVec 3) (a : BitVec 6) (d : BitVec 5) (s : State) :
    Host.Outcome State Fault Refusal :=
  issue { opc := opc, st := st, legal := fun k => sLegal k a && dLegal k d, srcs := [.s a], need := [.s a],
          msg := true, dst := d } (suppS d l)
    (fun c s => .done (s.modCore c (·.outS d l (valid (f (s.rdS c a).v))))) s

/-- A division or remainder: variable latency (R311). -/
def intVar (f : W64 → W64 → SVal) (st : BitVec 3) (a b : BitVec 6) (d : BitVec 5) (s : State) :
    Host.Outcome State Fault Refusal :=
  issue { opc := 0x10, st := st, legal := fun k => sLegal k a && sLegal k b && dLegal k d, srcs := [.s a, .s b],
          need := [.s a, .s b], msg := true, dst := d } (suppVar .s d)
    (fun c s => .eff (s.modCore c (fun x => x.launch .s d
      { Flight.base with res := some (.s (f (s.rdS c a).v (s.rdS c b).v)) }))) s

/-- An operation with an immediate (R312). -/
def intImm (opc l : Nat) (f : W64 → W64) (st : BitVec 3) (a : BitVec 6) (d : BitVec 5) (s : State) :
    Host.Outcome State Fault Refusal :=
  issue { opc := opc, st := st, legal := fun k => sLegal k a && dLegal k d, srcs := [.s a], need := [.s a],
          msg := true, dst := d } (suppS d l)
    (fun c s => .done (s.modCore c (·.outS d l (valid (f (s.rdS c a).v))))) s

/-! ### The integer family (R310) -/

/-- ADD (R310). -/
def execAdd (st : BitVec 3) (a b : BitVec 6) (d : BitVec 5) (s : State) : Host.Outcome State Fault Refusal :=
  int2 0x10 1 (fun a b => a + b) st a b d s

/-- SUB (R310). -/
def execSub (st : BitVec 3) (a b : BitVec 6) (d : BitVec 5) (s : State) : Host.Outcome State Fault Refusal :=
  int2 0x10 1 (fun a b => a - b) st a b d s

/-- MUL (R310). -/
def execMul (st : BitVec 3) (a b : BitVec 6) (d : BitVec 5) (s : State) : Host.Outcome State Fault Refusal :=
  int2 0x10 3 (fun a b => a * b) st a b d s

/-- MULH (R310). -/
def execMulh (st : BitVec 3) (a b : BitVec 6) (d : BitVec 5) (s : State) : Host.Outcome State Fault Refusal :=
  int2 0x10 3 (fun a b => mulHigh a b) st a b d s

/-- MULHU (R310). -/
def execMulhu (st : BitVec 3) (a b : BitVec 6) (d : BitVec 5) (s : State) : Host.Outcome State Fault Refusal :=
  int2 0x10 3 (fun a b => mulHighU a b) st a b d s

/-- DIV (R310, R311). -/
def execDiv (st : BitVec 3) (a b : BitVec 6) (d : BitVec 5) (s : State) : Host.Outcome State Fault Refusal :=
  intVar (divOp (fun a b => BitVec.ofInt 64 (a.toInt.tdiv b.toInt))) st a b d s

/-- DIVU (R310, R311). -/
def execDivu (st : BitVec 3) (a b : BitVec 6) (d : BitVec 5) (s : State) : Host.Outcome State Fault Refusal :=
  intVar (divOp (fun a b => BitVec.ofNat 64 (a.toNat / b.toNat))) st a b d s

/-- REM (R310, R311). -/
def execRem (st : BitVec 3) (a b : BitVec 6) (d : BitVec 5) (s : State) : Host.Outcome State Fault Refusal :=
  intVar (divOp (fun a b => BitVec.ofInt 64 (a.toInt.tmod b.toInt))) st a b d s

/-- REMU (R310, R311). -/
def execRemu (st : BitVec 3) (a b : BitVec 6) (d : BitVec 5) (s : State) : Host.Outcome State Fault Refusal :=
  intVar (divOp (fun a b => BitVec.ofNat 64 (a.toNat % b.toNat))) st a b d s

/-- AND (R310). -/
def execAnd (st : BitVec 3) (a b : BitVec 6) (d : BitVec 5) (s : State) : Host.Outcome State Fault Refusal :=
  int2 0x10 1 (fun a b => a &&& b) st a b d s

/-- OR (R310). -/
def execOr (st : BitVec 3) (a b : BitVec 6) (d : BitVec 5) (s : State) : Host.Outcome State Fault Refusal :=
  int2 0x10 1 (fun a b => a ||| b) st a b d s

/-- XOR (R310). -/
def execXor (st : BitVec 3) (a b : BitVec 6) (d : BitVec 5) (s : State) : Host.Outcome State Fault Refusal :=
  int2 0x10 1 (fun a b => a ^^^ b) st a b d s

/-- ANDN (R310). -/
def execAndn (st : BitVec 3) (a b : BitVec 6) (d : BitVec 5) (s : State) : Host.Outcome State Fault Refusal :=
  int2 0x10 1 (fun a b => a &&& ~~~b) st a b d s

/-- SHL (R310). -/
def execShl (st : BitVec 3) (a b : BitVec 6) (d : BitVec 5) (s : State) : Host.Outcome State Fault Refusal :=
  int2 0x10 1 (fun a b => a <<< amt b) st a b d s

/-- SHR (R310). -/
def execShr (st : BitVec 3) (a b : BitVec 6) (d : BitVec 5) (s : State) : Host.Outcome State Fault Refusal :=
  int2 0x10 1 (fun a b => a >>> amt b) st a b d s

/-- SRA (R310). -/
def execSra (st : BitVec 3) (a b : BitVec 6) (d : BitVec 5) (s : State) : Host.Outcome State Fault Refusal :=
  int2 0x10 1 (fun a b => a.sshiftRight (amt b)) st a b d s

/-- ROL (R310). -/
def execRol (st : BitVec 3) (a b : BitVec 6) (d : BitVec 5) (s : State) : Host.Outcome State Fault Refusal :=
  int2 0x10 1 (fun a b => a.rotateLeft (amt b)) st a b d s

/-- ROR (R310). -/
def execRor (st : BitVec 3) (a b : BitVec 6) (d : BitVec 5) (s : State) : Host.Outcome State Fault Refusal :=
  int2 0x10 1 (fun a b => a.rotateRight (amt b)) st a b d s

/-- MIN (R310). -/
def execMin (st : BitVec 3) (a b : BitVec 6) (d : BitVec 5) (s : State) : Host.Outcome State Fault Refusal :=
  int2 0x10 1 (fun a b => if a.sle b then a else b) st a b d s

/-- MAX (R310). -/
def execMax (st : BitVec 3) (a b : BitVec 6) (d : BitVec 5) (s : State) : Host.Outcome State Fault Refusal :=
  int2 0x10 1 (fun a b => if b.sle a then a else b) st a b d s

/-- MINU (R310). -/
def execMinu (st : BitVec 3) (a b : BitVec 6) (d : BitVec 5) (s : State) : Host.Outcome State Fault Refusal :=
  int2 0x10 1 (fun a b => if a.ule b then a else b) st a b d s

/-- MAXU (R310). -/
def execMaxu (st : BitVec 3) (a b : BitVec 6) (d : BitVec 5) (s : State) : Host.Outcome State Fault Refusal :=
  int2 0x10 1 (fun a b => if b.ule a then a else b) st a b d s

/-- CLZ (R310). -/
def execClz (st : BitVec 3) (a : BitVec 6) (d : BitVec 5) (s : State) : Host.Outcome State Fault Refusal :=
  int1 0x10 1 clz64 st a d s

/-- CTZ (R310). -/
def execCtz (st : BitVec 3) (a : BitVec 6) (d : BitVec 5) (s : State) : Host.Outcome State Fault Refusal :=
  int1 0x10 1 (fun a => BitVec.ofNat 64 (ctzN a.toNat 0 64)) st a d s

/-- POP (R310). -/
def execPop (st : BitVec 3) (a : BitVec 6) (d : BitVec 5) (s : State) : Host.Outcome State Fault Refusal :=
  int1 0x10 1 (fun a => BitVec.ofNat 64 (popN a.toNat 64)) st a d s

/-- MOV (R310). -/
def execMov (st : BitVec 3) (a : BitVec 6) (d : BitVec 5) (s : State) : Host.Outcome State Fault Refusal :=
  int1 0x10 1 (fun a => a) st a d s

/-! ### Immediates (R312, R313) -/

/-- ADDI (R312): the immediate is sign-extended. -/
def execAddi (st : BitVec 3) (a : BitVec 6) (d : BitVec 5) (i : BitVec 11) (s : State) : Host.Outcome State Fault Refusal :=
  intImm 0x11 1 (fun a => a + i.signExtend 64) st a d s

/-- MULI (R312): the immediate is sign-extended. -/
def execMuli (st : BitVec 3) (a : BitVec 6) (d : BitVec 5) (i : BitVec 11) (s : State) : Host.Outcome State Fault Refusal :=
  intImm 0x12 3 (fun a => a * i.signExtend 64) st a d s

/-- ANDI (R312): the immediate is sign-extended. -/
def execAndi (st : BitVec 3) (a : BitVec 6) (d : BitVec 5) (i : BitVec 11) (s : State) : Host.Outcome State Fault Refusal :=
  intImm 0x13 1 (fun a => a &&& i.signExtend 64) st a d s

/-- ORI (R312): the immediate is sign-extended. -/
def execOri (st : BitVec 3) (a : BitVec 6) (d : BitVec 5) (i : BitVec 11) (s : State) : Host.Outcome State Fault Refusal :=
  intImm 0x14 1 (fun a => a ||| i.signExtend 64) st a d s

/-- XORI (R312): the immediate is sign-extended. -/
def execXori (st : BitVec 3) (a : BitVec 6) (d : BitVec 5) (i : BitVec 11) (s : State) : Host.Outcome State Fault Refusal :=
  intImm 0x15 1 (fun a => a ^^^ i.signExtend 64) st a d s

/-- SHLI (R312). -/
def execShli (st : BitVec 3) (a : BitVec 6) (d : BitVec 5) (i : BitVec 6) (s : State) : Host.Outcome State Fault Refusal :=
  intImm 0x16 1 (fun a => a <<< i.toNat) st a d s

/-- SHRI (R312). -/
def execShri (st : BitVec 3) (a : BitVec 6) (d : BitVec 5) (i : BitVec 6) (s : State) : Host.Outcome State Fault Refusal :=
  intImm 0x17 1 (fun a => a >>> i.toNat) st a d s

/-- SRAI (R312). -/
def execSrai (st : BitVec 3) (a : BitVec 6) (d : BitVec 5) (i : BitVec 6) (s : State) : Host.Outcome State Fault Refusal :=
  intImm 0x18 1 (fun a => a.sshiftRight i.toNat) st a d s

/-- LI (R313): the sign-extended immediate. -/
def execLi (st : BitVec 3) (d : BitVec 5) (imm : BitVec 32) (s : State) : Host.Outcome State Fault Refusal :=
  issue { opc := 0x19, st := st, n := 2, legal := fun k => dLegal k d, srcs := [], need := [], msg := true, dst := d }
    suppNone (fun c s => .done (s.modCore c (·.outS d 1 (valid (imm.signExtend 64))))) s

/-- LIH (R313): the immediate above the low half of A. -/
def execLih (st : BitVec 3) (a : BitVec 6) (d : BitVec 5) (imm : BitVec 32) (s : State) :
    Host.Outcome State Fault Refusal :=
  issue { opc := 0x1a, st := st, n := 2, legal := fun k => sLegal k a && dLegal k d, srcs := [.s a], need := [.s a],
          msg := true, dst := d } (suppS d 1)
    (fun c s => .done (s.modCore c (·.outS d 1 (valid (imm ++ (s.rdS c a).v.setWidth 32))))) s

/-! ### Validity (R314, R315) -/

/-- TEST (R314): A where the condition holds, else invalid zero. -/
def execTest (st : BitVec 3) (a b : BitVec 6) (d : BitVec 5) (f : BitVec 5) (s : State) :
    Host.Outcome State Fault Refusal :=
  issue { opc := 0x20, st := st, legal := fun k => sLegal k a && sLegal k b && dLegal k d && f.toNat < 12,
          srcs := [.s a, .s b], need := [.s a, .s b], msg := true, dst := d } (suppS d 1)
    (fun c s => .done (s.modCore c (·.outS d 1
      (if testCond f.toNat (s.rdS c a).v (s.rdS c b).v = some true then s.rdS c a else iz)))) s

/-- An instruction that reads validity as data: its operands are waited for and checked, none suppresses it. -/
def validity (opc : Nat) (srcs : List Src) (leg : CoreKind → Bool) (f : CoreRef → State → SVal) (st : BitVec 3)
    (d : BitVec 5) (s : State) : Host.Outcome State Fault Refusal :=
  issue { opc := opc, st := st, legal := fun k => leg k && dLegal k d, srcs := srcs, need := [], msg := true,
          dst := d } suppNone (fun c s => .done (s.modCore c (·.outS d 1 (f c s)))) s

/-- FILL (R315): a if valid, else b. -/
def execFill (st : BitVec 3) (a b : BitVec 6) (d : BitVec 5) (s : State) : Host.Outcome State Fault Refusal :=
  validity 0x21 [.s a, .s b] (fun k => sLegal k a && sLegal k b)
    (fun c s => if (s.rdS c a).ok then s.rdS c a else s.rdS c b) st d s

/-- KEEP (R315): a if both are valid, else invalid zero. -/
def execKeep (st : BitVec 3) (a b : BitVec 6) (d : BitVec 5) (s : State) : Host.Outcome State Fault Refusal :=
  validity 0x22 [.s a, .s b] (fun k => sLegal k a && sLegal k b)
    (fun c s => if (s.rdS c a).ok && (s.rdS c b).ok then s.rdS c a else iz) st d s

/-- VALID (R315): valid 1 or valid 0. -/
def execValid (st : BitVec 3) (a : BitVec 6) (d : BitVec 5) (s : State) : Host.Outcome State Fault Refusal :=
  validity 0x23 [.s a] (fun k => sLegal k a) (fun c s => valid (if (s.rdS c a).ok then 1 else 0)) st d s

/-- KILL (R315): invalid zero. -/
def execKill (st : BitVec 3) (a : BitVec 6) (d : BitVec 5) (s : State) : Host.Outcome State Fault Refusal :=
  validity 0x24 [.s a] (fun k => sLegal k a) (fun _ _ => iz) st d s

/-! ### Pointers (02 R30, R31; 19 R316-R319) -/

/-- Fields of a pointer (R30). -/
def pVY (p : W64) : Nat := p.toNat / 2 ^ 56
def pVX (p : W64) : Nat := p.toNat / 2 ^ 48 % 256
def pH (p : W64) : Nat := p.toNat / 2 ^ 40 % 256
def pWALK (p : W64) : Nat := p.toNat / 2 ^ 32 % 256
def pOFF (p : W64) : Nat := p.toNat % 2 ^ 32

/-- A pointer of its fields. -/
def mkPtr (vy vx h walk off : Nat) : W64 :=
  BitVec.ofNat 64 (vy % 256 * 2 ^ 56 + vx % 256 * 2 ^ 48 + h % 256 * 2 ^ 40 + walk % 256 * 2 ^ 32 + off % 2 ^ 32)

/-- The extent of a handle in bytes (05 R103): rows times row bytes. -/
def elemBytes (fmt : Nat) : Nat := [1, 1, 2, 4, 8, 4, 2, 2, 1, 1, 5].getD fmt 0

/-- Row bytes of a format and a number of columns. -/
def rowBytes (fmt cols : Nat) : Nat := if fmt = 10 then cols / 8 * 5 else cols * elemBytes fmt

/-- The extent of a handle. -/
def Handle.extent (h : Handle) : Nat := h.rows * rowBytes h.fmt h.cols

/-- The pointer after a post-increment by a signed amount (R31), given the handle's extent in the issuing tile, if it
is allocated there, and the partition's width. -/
def postinc (p : W64) (inc : Int) (ext : Option Nat) (width : Nat) : SVal :=
  let off : Int := pOFF p
  if pWALK p = 0 then ⟨mkPtr (pVY p) (pVX p) (pH p) 0 ((off + inc) % 2 ^ 32).toNat, true⟩
  else match ext with
    | none => ⟨p, false⟩
    | some e =>
      let t := off + inc
      let n := Int.fdiv t e
      let o := (t - n * e).toNat
      if pWALK p = 1 then
        let c := (pVX p : Int) + n
        if c < 0 ∨ 255 < c then ⟨mkPtr (pVY p) (c % 256).toNat (pH p) 1 o, false⟩
        else ⟨mkPtr (pVY p) c.toNat (pH p) 1 o, true⟩
      else if pWALK p = 2 then
        let c := (pVY p : Int) + n
        if c < 0 ∨ 255 < c then ⟨mkPtr (c % 256).toNat (pVX p) (pH p) 2 o, false⟩
        else ⟨mkPtr c.toNat (pVX p) (pH p) 2 o, true⟩
      else
        let c0 := (pVX p : Int) + n
        let dy := Int.fdiv c0 width
        let c := c0 - dy * width
        let y := (pVY p : Int) + dy
        if c < 0 ∨ 255 < c ∨ y < 0 ∨ 255 < y then ⟨mkPtr (y % 256).toNat (c % 256).toNat (pH p) 3 o, false⟩
        else ⟨mkPtr y.toNat c.toNat (pH p) 3 o, true⟩

/-- The extent that a post-increment of a tile reads: of a handle of its own table that is
allocated, or STALE (R31 does not say; log 25). -/
def State.extentIn (s : State) (t h : Nat) : Option Nat :=
  match mfind (s.tile t).handles h with
  | some x => if x.st = .freeing then none else some x.extent
  | none => none

/-- postinc of R31 as an access or PINC of a core makes it. -/
def State.postincOf (s : State) (c : CoreRef) (p : W64) (inc : Int) : SVal :=
  let t := tileOf c
  postinc p inc (s.extentIn t (pH p)) (s.ctxOfTile t).width

/-- An operation on pointers: opcodes 0x30-0x35, never in a stitch message. -/
def ptrOp (opc : Nat) (srcs : List Src) (leg : CoreKind → Bool) (f : CoreRef → State → SVal) (st : BitVec 3)
    (d : BitVec 5) (s : State) : Host.Outcome State Fault Refusal :=
  issue { opc := opc, st := st, legal := leg, srcs := srcs, need := srcs } (suppS d 1)
    (fun c s => .done (s.modCore c (·.outS d 1 (f c s)))) s

/-- A destination that names a pointer. -/
def dPtr (d : BitVec 5) : Bool := 17 ≤ d.toNat && d.toNat ≤ 24

/-- PSET (R316). -/
def execPset (st : BitVec 3) (a : BitVec 6) (d : BitVec 5) (s : State) : Host.Outcome State Fault Refusal :=
  ptrOp 0x30 [.s a] (fun k => sLegal k a && dPtr d) (fun c s => s.rdS c a) st d s

/-- PINC (R317): a copy of a pointer after a post-increment, which may leave it invalid with the fields it has (R31); WALK above 3
traps ILLOP. -/
def execPinc (st : BitVec 3) (a : BitVec 6) (d : BitVec 5) (i : BitVec 11) (s : State) :
    Host.Outcome State Fault Refusal :=
  issue { opc := 0x31, st := st, legal := fun _ => 32 ≤ a.toNat && a.toNat ≤ 39 && dPtr d, srcs := [.s a],
          need := [.s a] } (suppS d 1)
    (fun c s =>
      let p := (s.rdS c a).v
      if 3 < pWALK p then .trap ILLOP 0 s
      else .done (s.modCore c (·.outS d 1 (s.postincOf c p i.toInt)))) s

/-- PHND (R318): H from b[7:0]. -/
def execPhnd (st : BitVec 3) (a b : BitVec 6) (d : BitVec 5) (s : State) : Host.Outcome State Fault Refusal :=
  ptrOp 0x32 [.s a, .s b] (fun k => sLegal k a && sLegal k b && dLegal k d)
    (fun c s =>
      let p := (s.rdS c a).v
      valid (mkPtr (pVY p) (pVX p) ((s.rdS c b).v.toNat % 256) (pWALK p) (pOFF p))) st d s

/-- PXY (R318): VX from b[7:0], VY from b[15:8]. -/
def execPxy (st : BitVec 3) (a b : BitVec 6) (d : BitVec 5) (s : State) : Host.Outcome State Fault Refusal :=
  ptrOp 0x33 [.s a, .s b] (fun k => sLegal k a && sLegal k b && dLegal k d)
    (fun c s =>
      let p := (s.rdS c a).v
      let b := (s.rdS c b).v.toNat
      valid (mkPtr (b / 256 % 256) (b % 256) (pH p) (pWALK p) (pOFF p))) st d s

/-- POFF (R318): OFF from b[31:0]. -/
def execPoff (st : BitVec 3) (a b : BitVec 6) (d : BitVec 5) (s : State) : Host.Outcome State Fault Refusal :=
  ptrOp 0x34 [.s a, .s b] (fun k => sLegal k a && sLegal k b && dLegal k d)
    (fun c s =>
      let p := (s.rdS c a).v
      valid (mkPtr (pVY p) (pVX p) (pH p) (pWALK p) ((s.rdS c b).v.toNat % 2 ^ 32))) st d s

/-- PGET (R319): one field, zero-extended. -/
def execPget (st : BitVec 3) (a : BitVec 6) (d : BitVec 5) (f : BitVec 5) (s : State) :
    Host.Outcome State Fault Refusal :=
  ptrOp 0x35 [.s a] (fun k => sLegal k a && dLegal k d && f.toNat < 5)
    (fun c s =>
      let p := (s.rdS c a).v
      valid (BitVec.ofNat 64 (match f.toNat with
        | 0 => pVY p
        | 1 => pVX p
        | 2 => pH p
        | 3 => pWALK p
        | _ => pOFF p))) st d s

end Sys2Proof.Machine
end

