-- ==== Sys2Proof/Machine/Soft.lean ====
section
/-! DEFINITION. Arithmetic to the bit (04 R77-R100): the formats, rounding, the basic operations, conversions, 2^x, the
FP4 block format, the quantiser and the exact sums of a matrix pass. Every result is a pair of bits and flags. -/

namespace Sys2Proof.Machine

/-! ### Formats (R78) -/

/-- A floating-point format: exponent bits, fraction bits, bias; E4M3 has no infinity and keeps its top binade. -/
structure Fmt where
  eb : Nat
  fb : Nat
  bias : Nat
  e4 : Bool
deriving DecidableEq, Repr

def Fmt.fp32 : Fmt := ⟨8, 23, 127, false⟩
def Fmt.fp16 : Fmt := ⟨5, 10, 15, false⟩
def Fmt.bf16 : Fmt := ⟨8, 7, 127, false⟩
def Fmt.e4m3 : Fmt := ⟨4, 3, 7, true⟩
def Fmt.e5m2 : Fmt := ⟨5, 2, 15, false⟩

/-- The bits of the format below the sign. -/
def Fmt.signPos (f : Fmt) : Nat := f.eb + f.fb

/-- The bits of the largest finite magnitude. -/
def Fmt.maxBits (f : Fmt) : Nat := if f.e4 then 0x7e else (2 ^ f.eb - 1) * 2 ^ f.fb - 1

/-- The bits of +infinity, where the format has it. -/
def Fmt.infBits (f : Fmt) : Nat := (2 ^ f.eb - 1) * 2 ^ f.fb

/-- The canonical quiet NaN (R79). -/
def Fmt.nan (f : Fmt) : Nat := if f.e4 then 0x7f else f.infBits + 2 ^ (f.fb - 1)

/-- The bits of a signed magnitude. -/
def Fmt.signed (f : Fmt) (neg : Bool) (mag : Nat) : Nat := (if neg then 2 ^ f.signPos else 0) + mag

/-- What a code stands for: a NaN, an infinity, or (−1)^neg × m × 2^e. -/
inductive FVal where
  | nan (signalling : Bool)
  | inf (neg : Bool)
  | fin (neg : Bool) (m : Nat) (e : Int)
deriving DecidableEq, Repr

/-- Reading a code (R78, R79); bits above the format are ignored (R80). -/
def Fmt.val (f : Fmt) (x : Nat) : FVal :=
  let neg := x / 2 ^ f.signPos % 2 = 1
  let ex := x / 2 ^ f.fb % 2 ^ f.eb
  let fr := x % 2 ^ f.fb
  if f.e4 ∧ x % 0x80 = 0x7f then .nan false
  else if !f.e4 ∧ ex = 2 ^ f.eb - 1 then
    if fr = 0 then .inf neg else .nan (decide (fr < 2 ^ (f.fb - 1)))
  else if ex = 0 then .fin neg fr (1 - f.bias - f.fb)
  else .fin neg (2 ^ f.fb + fr) ((ex : Int) - f.bias - f.fb)

/-- Bits and flags. -/
structure FRes where
  bits : Nat
  flags : BitVec 5
deriving DecidableEq, Repr

/-! ### Rounding (R83-R85) -/

/-- Whether a magnitude that lies `rem` above a multiple of 2^sh, whose quotient is q, is rounded up. Modes: 0 nearest
even, 1 toward zero, 2 toward +infinity, 3 toward −infinity. -/
def roundUp (rm : Nat) (neg : Bool) (q rem sh : Nat) : Bool :=
  match rm with
  | 0 => 2 ^ sh < 2 * rem || (2 * rem == 2 ^ sh && q % 2 == 1)
  | 1 => false
  | 2 => !neg && rem != 0
  | _ => neg && rem != 0

/-- m × 2^e as a multiple of 2^qe, rounded, and whether that was inexact. -/
def roundAt (rm : Nat) (neg : Bool) (m : Nat) (e qe : Int) : Nat × Bool :=
  if qe ≤ e then (m * 2 ^ (e - qe).toNat, false)
  else
    let sh := (qe - e).toNat
    let q := m / 2 ^ sh
    let rem := m % 2 ^ sh
    (if roundUp rm neg q rem sh then q + 1 else q, rem != 0)

/-- The overflow results of R85. -/
def Fmt.over (f : Fmt) (rm : Nat) (neg : Bool) : Nat :=
  f.signed neg (if f.e4 then 0x7e
    else match rm with
      | 0 => f.infBits
      | 1 => f.maxBits
      | 2 => if neg then f.maxBits else f.infBits
      | _ => if neg then f.infBits else f.maxBits)

/-- rnd of R321: the exact real (−1)^neg × m × 2^e, m not 0, rounded once, with its flags. UF is raised when the
result is tiny after rounding and inexact (R84). -/
def Fmt.round (f : Fmt) (rm : Nat) (neg : Bool) (m : Nat) (e : Int) : FRes :=
  let top : Int := (m.log2 : Int) + e
  let emin : Int := 1 - f.bias
  let qe : Int := max top emin - f.fb
  let r := roundAt rm neg m e qe
  let mag := (qe + f.fb + f.bias - 1).toNat * 2 ^ f.fb + r.1
  if f.maxBits < mag then ⟨f.over rm neg, fOF ||| fNX⟩
  else
    let un := roundAt rm neg m e (top - f.fb)
    let tiny := decide (top < emin) && !(decide (top = emin - 1) && un.1 == 2 ^ (f.fb + 1))
    ⟨f.signed neg mag, if r.2 then (if tiny then fUF ||| fNX else fNX) else 0⟩

/-- The same for any magnitude: an exact zero keeps the sign given. -/
def Fmt.rnd (f : Fmt) (rm : Nat) (neg : Bool) (m : Nat) (e : Int) : FRes :=
  if m = 0 then ⟨f.signed neg 0, 0⟩ else f.round rm neg m e

/-- The sign of a sum of opposite signs that is exactly zero (R83; log 20). -/
def zeroNeg (rm : Nat) : Bool := rm == 3

/-- The sum of two finite values, rounded; two zeros of one sign keep it (log 20). -/
def Fmt.addFin (f : Fmt) (rm : Nat) (n1 : Bool) (m1 : Nat) (e1 : Int) (n2 : Bool) (m2 : Nat) (e2 : Int) : FRes :=
  let e := min e1 e2
  let a : Int := m1 * 2 ^ (e1 - e).toNat
  let b : Int := m2 * 2 ^ (e2 - e).toNat
  let t : Int := (if n1 then -a else a) + (if n2 then -b else b)
  if t = 0 then ⟨f.signed (if m1 = 0 ∧ m2 = 0 ∧ n1 = n2 then n1 else zeroNeg rm) 0, 0⟩
  else f.round rm (decide (t < 0)) t.natAbs e

/-- A NaN result, with IV when some operand is signalling or the operation itself is invalid. -/
def Fmt.nanRes (f : Fmt) (iv : Bool) : FRes := ⟨f.nan, if iv then fIV else 0⟩

/-- A signalling NaN. -/
def FVal.snan : FVal → Bool
  | .nan b => b
  | _ => false

/-- Any NaN. -/
def FVal.isNan : FVal → Bool
  | .nan _ => true
  | _ => false

/-- The value with its sign turned; a NaN stays. -/
def FVal.neg : FVal → FVal
  | .nan b => .nan b
  | .inf n => .inf (!n)
  | .fin n m e => .fin (!n) m e

/-- The exact product: a value, with IV raised by a signalling NaN or 0 × infinity. -/
def FVal.mul (a b : FVal) : FVal × Bool :=
  match a, b with
  | .nan s, y => (.nan false, s || y.snan)
  | x, .nan s => (.nan false, s || x.snan)
  | .inf n, .inf k => (.inf (n != k), false)
  | .inf n, .fin k m _ => if m = 0 then (.nan false, true) else (.inf (n != k), false)
  | .fin k m _, .inf n => if m = 0 then (.nan false, true) else (.inf (n != k), false)
  | .fin n m e, .fin k m' e' => (.fin (n != k) (m * m') (e + e'), false)

/-- A value rounded to a format. -/
def Fmt.ofVal (f : Fmt) (rm : Nat) (iv : Bool) : FVal → FRes
  | .nan s => f.nanRes (iv || s)
  | .inf n => if f.e4 then ⟨0x7f, fIV⟩ else ⟨f.signed n f.infBits, if iv then fIV else 0⟩
  | .fin n m e => f.rnd rm n m e

/-- a + b (R322). -/
def Fmt.add (f : Fmt) (rm : Nat) (a b : FVal) : FRes :=
  match a, b with
  | .nan s, y => f.nanRes (s || y.snan)
  | x, .nan s => f.nanRes (s || x.snan)
  | .inf n, .inf k => if n = k then ⟨f.signed n f.infBits, 0⟩ else f.nanRes true
  | .inf n, .fin _ _ _ => ⟨f.signed n f.infBits, 0⟩
  | .fin _ _ _, .inf n => ⟨f.signed n f.infBits, 0⟩
  | .fin n m e, .fin k m' e' => f.addFin rm n m e k m' e'

/-! ### The operations on FP32 (R322-R326) -/

abbrev F32 := Fmt.fp32

/-- FADD. -/
def fAdd (rm a b : Nat) : FRes := F32.add rm (F32.val a) (F32.val b)

/-- FSUB: FADD with b negated. -/
def fSub (rm a b : Nat) : FRes := F32.add rm (F32.val a) (F32.val b).neg

/-- FMUL. -/
def fMul (rm a b : Nat) : FRes :=
  let p := (F32.val a).mul (F32.val b)
  F32.ofVal rm p.2 p.1

/-- FFMA (R324): 0 × infinity gives NaN and IV even beside a quiet NaN. -/
def fFma (rm a b c : Nat) : FRes :=
  let p := (F32.val a).mul (F32.val b)
  let c := F32.val c
  if p.1.isNan then F32.nanRes (p.2 || c.snan) else F32.add rm p.1 c

/-- The exact quotient m / m' x 2^e to more bits than any format needs, its lowest bit telling that more follows. -/
def quot (m m' : Nat) (e : Int) : Nat × Int :=
  let k := 65 + m'.log2
  let q := m * 2 ^ k / m'
  (2 * q + (if m * 2 ^ k % m' = 0 then 0 else 1), e - k - 1)

/-- Division (R322). -/
def divVal (rm : Nat) (a b : FVal) : FRes :=
  match a, b with
  | .nan s, y => F32.nanRes (s || y.snan)
  | x, .nan s => F32.nanRes (s || x.snan)
  | .inf _, .inf _ => F32.nanRes true
  | .inf n, .fin k _ _ => ⟨F32.signed (n != k) F32.infBits, 0⟩
  | .fin n _ _, .inf k => ⟨F32.signed (n != k) 0, 0⟩
  | .fin n m e, .fin k m' e' =>
    if m' = 0 then (if m = 0 then F32.nanRes true else ⟨F32.signed (n != k) F32.infBits, fDZ⟩)
    else if m = 0 then ⟨F32.signed (n != k) 0, 0⟩
    else
      let q := quot m m' (e - e')
      F32.round rm (n != k) q.1 q.2

/-- FDIV. -/
def fDiv (rm a b : Nat) : FRes := divVal rm (F32.val a) (F32.val b)

/-- The integer part of a square root, bit by bit from bit n down. -/
def isqrt (x : Nat) : Nat → Nat → Nat
  | 0, r => r
  | n + 1, r => isqrt x n (if (r + 2 ^ n) * (r + 2 ^ n) ≤ x then r + 2 ^ n else r)

/-- FSQRT (R322). -/
def fSqrt (rm a : Nat) : FRes :=
  match F32.val a with
  | .nan s => F32.nanRes s
  | .inf n => if n then F32.nanRes true else ⟨F32.infBits, 0⟩
  | .fin n m e =>
    if m = 0 then ⟨F32.signed n 0, 0⟩
    else if n then F32.nanRes true
    else
      let odd := (e % 2).toNat
      let x := m * 2 ^ (80 + odd)
      let r := isqrt x 56 0
      F32.round rm false (2 * r + (if r * r = x then 0 else 1)) ((e - odd) / 2 - 41)

/-- The order of FP32 codes that are not NaNs: −0 and +0 together. -/
def fKey (a : Nat) : Int :=
  let m : Int := a % 2 ^ 31
  if a / 2 ^ 31 % 2 = 1 then -m else m

/-- The order with −0 below +0 (R323). -/
def fKey0 (a : Nat) : Int :=
  let m : Int := a % 2 ^ 31
  if a / 2 ^ 31 % 2 = 1 then -m - 1 else m

/-- FMIN and FMAX (R323). -/
def fMinMax (takeMax : Bool) (a b : Nat) : FRes :=
  let x := F32.val a
  let y := F32.val b
  let fl : BitVec 5 := if x.snan || y.snan then fIV else 0
  if x.isNan && y.isNan then ⟨F32.nan, fl⟩
  else if x.isNan then ⟨b, fl⟩
  else if y.isNan then ⟨a, fl⟩
  else ⟨if (if takeMax then fKey0 b ≤ fKey0 a else fKey0 a ≤ fKey0 b) then a else b, fl⟩

/-- The class mask of FCLASS (R325). -/
def fClass (a : Nat) : Nat :=
  match F32.val a with
  | .nan s => if s then 0x100 else 0x200
  | .inf n => if n then 0x001 else 0x080
  | .fin n m _ =>
    if m = 0 then (if n then 0x008 else 0x010)
    else if m < 2 ^ 23 then (if n then 0x004 else 0x020)
    else (if n then 0x002 else 0x040)

/-- The conditions of FTEST (R326), with the flags they raise; none for a reserved code. -/
def fCond (f a b : Nat) : Option (Bool × BitVec 5) :=
  let x := F32.val a
  let y := F32.val b
  let un := x.isNan || y.isNan
  let sig : BitVec 5 := if x.snan || y.snan then fIV else 0
  let any : BitVec 5 := if un then fIV else 0
  match f with
  | 0 => some (!un && fKey a == fKey b, sig)
  | 1 => some (un || fKey a != fKey b, sig)
  | 2 => some (!un && decide (fKey a < fKey b), any)
  | 3 => some (!un && decide (fKey a ≤ fKey b), any)
  | 4 => some (!un && decide (fKey b < fKey a), any)
  | 5 => some (!un && decide (fKey b ≤ fKey a), any)
  | 6 => some (un, sig)
  | 7 => some (!un, sig)
  | _ => none

/-! ### Conversions (R86, R327, R328) -/

/-- A value converted to a signed integer of w bits. -/
def toIntFmt (w rm : Nat) (v : FVal) : Int × BitVec 5 :=
  let hi : Int := 2 ^ (w - 1) - 1
  let lo : Int := -2 ^ (w - 1)
  match v with
  | .nan _ => (0, fIV)
  | .inf n => (if n then lo else hi, fIV)
  | .fin n m e =>
    let r := roundAt rm n m e 0
    let i : Int := if n then -(r.1 : Int) else r.1
    if hi < i then (hi, fIV) else if i < lo then (lo, fIV) else (i, if r.2 then fNX else 0)

/-- The format behind a code of R63, if it is a floating one. -/
def fmtCode : Nat → Option Fmt
  | 0 => some Fmt.fp32
  | 1 => some Fmt.fp16
  | 2 => some Fmt.bf16
  | 3 => some Fmt.e4m3
  | 4 => some Fmt.e5m2
  | _ => none

/-- A 64-bit result and flags. -/
abbrev CRes := W64 × BitVec 5

/-- The conversion of an operand between formats (R327, R328): none for codes the instruction does not allow. -/
def convert (src dst rm : Nat) (a : W64) : CRes :=
  let ofI (i : Int) : CRes :=
    match fmtCode dst with
    | some f =>
      let r := f.rnd rm (decide (i < 0)) i.natAbs 0
      (BitVec.ofNat 64 r.bits, r.flags)
    | none =>
      if dst = 5 then
        if i < -2 ^ 31 then (BitVec.ofInt 64 (-2 ^ 31), fIV)
        else if 2 ^ 31 - 1 < i then (BitVec.ofInt 64 (2 ^ 31 - 1), fIV)
        else (BitVec.ofInt 64 i, 0)
      else (BitVec.ofInt 64 i, 0)
  match fmtCode src with
  | some f =>
    let v := f.val (a.toNat % 2 ^ (f.signPos + 1))
    match fmtCode dst with
    | some g =>
      let r := g.ofVal rm false v
      (BitVec.ofNat 64 r.bits, r.flags)
    | none =>
      let r := toIntFmt (if dst = 5 then 32 else 64) rm v
      (BitVec.ofInt 64 r.1, r.2)
  | none => ofI (if src = 5 then (a.setWidth 32).toInt else a.toInt)

/-! ### Two to a power, and the reciprocal (R97) -/

/-- The product of the lower bounds of 2^(2^−k) over the one bits of the fraction F (bit n − 1 first), from the
current bound c of 2^(2^−k) at p fraction bits. -/
def expMul (p fr : Nat) : Nat → Nat → Nat → Nat
  | 0, _, r => r
  | n + 1, c, r =>
    let c' := isqrt (c * 2 ^ p) (p + 2) 0
    expMul p fr n c' (if fr / 2 ^ n % 2 = 1 then r * c' / 2 ^ p else r)

/-- A lower bound of 2^(F / 2^50) at p fraction bits; the value lies less than 2^10 units above it. -/
def expLow (p fr : Nat) : Nat := expMul p fr 50 (2 * 2 ^ p) (2 ^ p)

/-- 2^(k + F / 2^50) rounded from the lower and from the upper end of an enclosure of p fraction bits. -/
def expRounds (p fr : Nat) (k : Int) : FRes × FRes :=
  (F32.round 0 false (2 * expLow p fr + 1) (k - p - 1), F32.round 0 false (2 * (expLow p fr + 1024) + 1) (k - p - 1))

/-- VEXP2 of one lane. For |x| below 2^−26 the result rounds to 1; otherwise x has at most 50 fraction bits. An enclosure of 128
fraction bits decides the rounding of 2^x, or one of 1,024 (log 6). -/
def fExp2 (a : Nat) : FRes :=
  match F32.val a with
  | .nan s => F32.nanRes s
  | .inf n => ⟨if n then 0 else F32.infBits, 0⟩
  | .fin n m e =>
    if m = 0 then ⟨0x3f800000, 0⟩
    else
      let top : Int := (m.log2 : Int) + e
      if top < -26 then ⟨0x3f800000, fNX⟩
      else if 7 < top ∨ (top = 7 ∧ !n) then (if n then ⟨0, fUF ||| fNX⟩ else ⟨F32.infBits, fOF ||| fNX⟩)
      else
        -- x in units of 2^-50
        let x : Int := (m : Int) * 2 ^ (e + 50).toNat
        let x := if n then -x else x
        let k := Int.fdiv x (2 ^ 50)
        let fr := (x - k * 2 ^ 50).toNat
        if fr = 0 then F32.round 0 false 1 k
        else
          let r := expRounds 128 fr k
          if r.1 = r.2 then r.1 else (expRounds 1024 fr k).1

/-- VRCP of one lane: 1 / x. -/
def fRcp (a : Nat) : FRes := divVal 0 (.fin false 1 0) (F32.val a)

/-! ### The FP4 block format and the quantiser (R88-R92) -/

/-- E2M1 magnitudes in halves (R88). -/
def e2m1 (c : Nat) : Nat := [0, 1, 2, 3, 4, 6, 8, 12].getD (c % 8) 0

/-- An E3M5 scale in units of 2^−7 (R89); 0xff is the invalid-block code. -/
def e3m5 (c : Nat) : Nat := if c / 32 = 0 then c % 32 else (32 + c % 32) * 2 ^ (c / 32 - 1)

/-- |x| of a finite FP32 code in units of 2^−149. -/
def mag149 (x : Nat) : Nat :=
  let ex := x / 2 ^ 23 % 256
  if ex = 0 then x % 2 ^ 23 else (2 ^ 23 + x % 2 ^ 23) * 2 ^ (ex - 1)

/-- A scale in units of 2^−149. -/
def scale149 (c : Nat) : Nat := e3m5 c * 2 ^ 142

/-- The smallest code from s on, n codes, whose scale reaches a sixth of a; 0xfe if none does. -/
def scaleFrom (a : Nat) : Nat → Nat → Nat
  | 0, _ => 0xfe
  | n + 1, s => if a ≤ 6 * scale149 s then s else scaleFrom a n (s + 1)

/-- The bump loop (R92): at most `n` more bumps. -/
def bump (x : List Nat) : Nat → Nat → Nat
  | 0, s => s
  | n + 1, s => if x.any (fun m => 6 * scale149 s < m) ∧ s + 32 ≤ 0xfe then bump x n (s + 32) else s

/-- round_e2m1 (R92): the quotient m / d, at most 6, rounded among the magnitudes from code c on (n codes are left);
the quotient is not negative, so toward +infinity is upward. -/
def roundE2m1 (rm m d : Nat) : Nat → Nat → Nat × Bool
  | 0, c => (c, false)
  | n + 1, c =>
    let lo := e2m1 c * d
    let hi := e2m1 (c + 1) * d
    if 2 * m = lo then (c, false)
    else if 2 * m < hi then
      let up := match rm with
        | 0 => lo + hi < 4 * m || (4 * m == lo + hi && c % 2 == 1)
        | 2 => true
        | _ => false
      (if up then c + 1 else c, true)
    else roundE2m1 rm m d n (c + 1)

/-- One element of the quantiser: its code and flags. -/
def quantOne (rm s x : Nat) : Nat × BitVec 5 :=
  let m := mag149 x
  let d := scale149 s
  let sg := x / 2 ^ 31 % 2 * 8
  if 6 * d < m then (sg + 7, fOF ||| fNX)
  else
    let r := roundE2m1 rm m d 7 0
    (sg + r.1, (if r.2 then fNX else 0) ||| (if r.1 = 0 ∧ m ≠ 0 then fUF else 0))

/-- The quantiser (R92): eight codes, the scale code, and the flags. -/
def quantise (x : List Lane) (rm : Nat) : List Nat × Nat × BitVec 5 :=
  let b := x.map (fun l => l.v.toNat)
  if x.any (fun l => !l.ok) then (List.replicate 8 0, 0xff, 0)
  else if b.any (fun v => v / 2 ^ 23 % 256 == 255) then (List.replicate 8 0, 0xff, fIV)
  else
    let amax := b.foldl (fun m v => max m (v % 2 ^ 31)) 0
    if amax = 0 then (b.map (fun v => v / 2 ^ 31 % 2 * 8), 0, 0)
    else
      let s0 := scaleFrom (mag149 (amax / 2 ^ 18 * 2 ^ 18)) 254 1
      let s := bump (b.map mag149) 2 s0
      let r := b.map (quantOne rm s)
      (r.map (·.1), s, r.foldl (fun f e => f ||| e.2) 0)

/-- The block record (R90): four bytes of codes and the scale. -/
def blockRecord (q : List Nat × Nat × BitVec 5) : List Byte :=
  let c (i : Nat) : Nat := q.1.getD i 0
  [c 0 + 16 * c 1, c 2 + 16 * c 3, c 4 + 16 * c 5, c 6 + 16 * c 7, q.2.1].map (BitVec.ofNat 8)

/-! ### Matrix sums (R93-R96) -/

/-- An element of a pass: invalid, or a value. -/
abbrev MEl := Option FVal

/-- Element j of an FP4 row of block records: its E2M1 value times the block scale. -/
def fp4El (row : Nat → Byte) (j : Nat) : MEl :=
  let r := j / 8 * 5
  let sc := (row (r + 4)).toNat
  if sc = 0xff then none
  else
    let c := (row (r + j % 8 / 2)).toNat / 16 ^ (j % 2) % 16
    some (.fin (c / 8 % 2 = 1) (e2m1 c * e3m5 sc) (-8))

/-- Element j of a row in a format of the format context: 0 FP4, 1 E4M3, 2 E5M2, 3 BF16. -/
def ctxEl (f : Nat) (row : Nat → Byte) (j : Nat) : MEl :=
  match f with
  | 0 => fp4El row j
  | 1 => some (Fmt.e4m3.val (row j).toNat)
  | 2 => some (Fmt.e5m2.val (row j).toNat)
  | _ => some (Fmt.bf16.val ((row (2 * j)).toNat + 256 * (row (2 * j + 1)).toNat))

/-- The exact sum of products so far: a finite part in units of 2^−266, the infinities seen, a NaN, and IV. -/
structure MSum where
  s : Int
  pinf : Bool
  ninf : Bool
  nan : Bool
  iv : Bool
deriving DecidableEq, Repr

/-- Adding one product. -/
def MSum.add (t : MSum) (a b : FVal) : MSum :=
  let p := a.mul b
  let t := { t with iv := t.iv || p.2 }
  match p.1 with
  | .nan _ => { t with nan := true }
  | .inf n => if n then { t with ninf := true } else { t with pinf := true }
  | .fin n m e => { t with s := t.s + (if n then -1 else 1) * ((m : Int) * 2 ^ (e + 266).toNat) }

/-- The sum of n products from depth k on; none when some element is invalid. -/
def matSum (a b : Nat → MEl) : Nat → Nat → MSum → Option MSum
  | 0, _, t => some t
  | n + 1, k, t =>
    match a k, b k with
    | some x, some y => matSum a b n (k + 1) (t.add x y)
    | _, _ => none

/-- The value of S, with IV for infinities of both signs. -/
def MSum.val (t : MSum) : FVal × Bool :=
  if t.nan then (.nan false, t.iv || (t.pinf && t.ninf))
  else if t.pinf && t.ninf then (.nan false, true)
  else if t.pinf then (.inf false, t.iv)
  else if t.ninf then (.inf true, t.iv)
  else (.fin (decide (t.s < 0)) t.s.natAbs (-266), t.iv)

/-- One pass onto an accumulator element (R93 steps 3 and 4, R95): S times the two band scales rounded once, then
added; none where the element becomes invalid. -/
def passEl (sum : Option MSum) (ba bb : Option (BitVec 16)) (acc : Option Nat) : Option FRes :=
  match sum, ba, bb, acc with
  | some t, some x, some y, some o =>
    let s := t.val
    let p1 := s.1.mul (Fmt.bf16.val x.toNat)
    let p2 := p1.1.mul (Fmt.bf16.val y.toNat)
    let p := F32.ofVal 0 (s.2 || p1.2 || p2.2) p2.1
    let r := fAdd 0 o p.bits
    some ⟨r.bits, p.flags ||| r.flags⟩
  | _, _, _, _ => none

end Sys2Proof.Machine
end

