-- ==== Sys2Proof/Machine/Access.lean ====
section
/-! DEFINITION. The shared operations of memory accesses: sizes and ordering bits (03 R64, R65), the checks of 21 R345,
the store buffer, L1 and load forwarding (07 R142), handle banks and full/empty bits (05 R110-R114), atomics (R356), and
load watches (R353). -/

namespace Sys2Proof.Machine

/-! ### Sizes and ordering bits -/

/-- Size and sign extension of a scalar load (R346). -/
def lsize (w : BitVec 3) : Option (Nat × Bool) :=
  match w.toNat with
  | 0 => some (1, false)
  | 1 => some (2, false)
  | 2 => some (4, false)
  | 3 => some (8, false)
  | 4 => some (1, true)
  | 5 => some (2, true)
  | 6 => some (4, true)
  | _ => none

/-- Size of a scalar store. -/
def ssize (w : BitVec 3) : Option Nat := if w.toNat < 4 then some (2 ^ w.toNat) else none

/-- Element size and sign extension of a vector load (R346). -/
def vsize (w : BitVec 3) : Option (Nat × Bool) :=
  match w.toNat with
  | 0 => some (1, false)
  | 1 => some (2, false)
  | 2 => some (4, false)
  | 4 => some (1, true)
  | 5 => some (2, true)
  | _ => none

/-- Element size of a vector store. -/
def vssize (w : BitVec 3) : Option Nat := if w.toNat < 3 then some (2 ^ w.toNat) else none

/-- An ordering bit with its scope (R65): scope 6 and 7 do not exist, a scope without the bit is not legal. -/
def ordLegal (bit : BitVec 1) (p : BitVec 3) : Bool := p.toNat ≤ 5 && (bit == 1 || p == 0)

/-- The scope of an ordering bit that is set. -/
def ordOf (bit : BitVec 1) (p : BitVec 3) : Option Nat := if bit = 1 then some p.toNat else none

/-- A global base (R345). -/
def gBase (b : BitVec 6) : Bool := b.toNat ≤ 31

/-- A pointer base. -/
def pBase (b : BitVec 6) : Bool := 32 ≤ b.toNat && b.toNat ≤ 39

/-! ### Values from bytes -/

/-- The scalar of some bytes. -/
def scalarOf (n : Nat) (sx : Bool) (l : List Byte) : W64 :=
  if sx then BitVec.ofInt 64 (BitVec.ofNat (8 * n) (leNat l)).toInt else BitVec.ofNat 64 (leNat l)

/-- A yarn as YLD takes it (14 R228): N above 64, or a one bit below the known prefix, gives an invalid yarn. N stands in
bits [70:64] and BITS in [63:0] (02 R33). -/
def yarnOf (l : List Byte) : YVal :=
  let x := leNat l
  let n := x / 2 ^ 64 % 2 ^ 8
  if 64 < n then yz else if x % 2 ^ 64 % 2 ^ (64 - n) ≠ 0 then yz else ⟨BitVec.ofNat 128 x, true⟩

/-- The result a load makes of its bytes, each with its validity. -/
def Shape.make (sh : Shape) (l : List (Byte × Bool)) : RVal :=
  match sh with
  | .scalar n sx => .s (if l.all (·.2) then valid (scalarOf n sx (l.map (·.1))) else iz)
  | .vector e sx => .v (vecMk (fun i =>
      let b := (l.drop (i * e)).take e
      if b.all (·.2) then ⟨(scalarOf e sx (b.map (·.1))).setWidth 32, true⟩ else ⟨0, false⟩))
  | .yarn => .y (if l.all (·.2) then yarnOf (l.map (·.1)) else yz)

/-- The bytes one address of a load asks for, which are its alignment as well (21 R345). -/
def Shape.per : Shape → Nat → Nat
  | .scalar n _, _ => n
  | .vector e _, k => if k = 1 then 16 * e else e
  | .yarn, _ => 16

/-- The class of a shape. -/
def Shape.cls : Shape → Cls
  | .scalar _ _ => .s
  | .vector _ _ => .v
  | .yarn => .y

/-- The low n bytes of a scalar. -/
def scalarBytes (n : Nat) (v : W64) : List (Nat × Byte) := atAddr 0 (natBytes n v.toNat)

/-- The bytes of the valid lanes, by offset. -/
def laneBytes (e : Nat) (v : VVal) : List (Nat × Byte) :=
  (rangeFrom 0 16).flatMap (fun i =>
    let x := vget ⟨0, false⟩ v i
    if x.ok then atAddr (i * e) (natBytes e x.v.toNat) else [])

/-- Some lane is valid. -/
def anyLane (v : VVal) : Bool := v.toList.any (·.ok)

/-! ### Delivering a variable-latency result -/

/-- A result already known, delivered by its completion. -/
def State.known (s : State) (c : CoreRef) (d : BitVec 5) (v : RVal) (acq : Option Nat) : State :=
  s.modCore c (fun x => x.launch (match v with | .s _ => .s | .v _ => .v | .y _ => .y) d
    { Flight.base with res := some v, acq := acq })

/-- The same of an instruction that can raise a flag (04 R101). -/
def State.knownFlag (s : State) (c : CoreRef) (d : BitVec 5) (v : SVal) : State :=
  s.modCore c (fun x => x.launch .s d { Flight.base with res := some (.s v), flagger := true })

/-- A result awaited. -/
def State.await (s : State) (c : CoreRef) (d : BitVec 5) (sh : Shape) (k : FKind) (acq : Option Nat) : State :=
  s.modCore c (fun x => x.launch sh.cls d { Flight.base with shape := sh, kind := k, acq := acq })

/-- The cached translation that an address of an agent has just used: its leaf's level and its page number at that level. -/
def State.trOf (s : State) (g : Agent) (va : W64) : Nat × Nat :=
  match s.tlbFind g va.toNat with
  | some e => (e.level, e.vpn)
  | none => (0, va.toNat / 8192)

/-- Changing the flight just launched. -/
def Core.modNew (x : Core) (f : Flight → Flight) : Core :=
  { x with flights := x.flights.map (fun g => if g.id + 1 = x.nextId then f g else g) }

/-- The flight just launched has had its addresses translated (06 R126). -/
def State.markVa (s : State) (c : CoreRef) (vas : List W64) : State :=
  s.modCore c (·.modNew (fun f => { f with trs := vas.map (s.trOf (s.agentOf c)) }))

/-- The flight just launched waits on a BUSY entry from now on (06 R123). -/
def State.markBusy (s : State) (c : CoreRef) : State := s.modCore c (·.modNew (fun f => { f with since := some s.time }))

/-- An access that issues and is not performed yet (07 R142, R143). -/
def State.hold (s : State) (c : CoreRef) (d : BitVec 5) (sh : Shape) (op : HeldOp) (rel acq : Option Nat) : State :=
  let o := (s.tile (tileOf c)).order
  (s.modTile (tileOf c) (fun v => { v with order := o + 1 })).await c d sh (.held ⟨op, rel, o⟩) acq

/-- The same as the outcome of an instruction; the instructions of a stitch message are run one after the other, and wait. -/
def holdAct (s : State) (c : CoreRef) (d : BitVec 5) (sh : Shape) (op : HeldOp) (rel acq : Option Nat) : Act :=
  if (s.core c).sel = .msg then .wait s else .eff (s.hold c d sh op rel acq)

/-- Invalid zero of a shape's class. -/
def Shape.zero (sh : Shape) : RVal := zeroOf sh.cls

/-! ### The store buffer and L1 (07 R142) -/

/-- The newest buffered byte at a physical address, if there is one. -/
def sbufByte (l : List SBEntry) (pa : Nat) : Option Byte :=
  l.foldl (fun o e => match (e.bytes.find? (fun b => b.1 == pa)) with
    | some b => some b.2
    | none => o) none

/-- A byte of an L1 line, if the line is present. -/
def l1Byte (m : SMap (BitVec 512)) (pa : Nat) : Option Byte :=
  (mfind m (pa / 64)).map (fun b => BitVec.ofNat 8 (b.toNat / 2 ^ (8 * (pa % 64))))

/-- What a tile sees of some bytes without asking the home slice. -/
def VTile.snap (v : VTile) (useL1 : Bool) (pas : List Nat) : List LByte :=
  pas.map (fun a => ⟨a, match sbufByte v.sbuf a with
    | some b => some b
    | none => if useL1 then l1Byte v.l1 a else none⟩)

/-- A line with one byte replaced. -/
def lineSet (b : BitVec 512) (k : Nat) (x : Byte) : BitVec 512 :=
  let n := b.toNat
  BitVec.ofNat 512 (n - n / 2 ^ (8 * k) % 256 * 2 ^ (8 * k) + x.toNat * 2 ^ (8 * k))

/-- Updating the L1 copies of some bytes. -/
def l1Update (m : SMap (BitVec 512)) (bytes : List (Nat × Byte)) : SMap (BitVec 512) :=
  bytes.foldl (fun m e => match mfind m (e.1 / 64) with
    | some b => mput m (e.1 / 64) (lineSet b (e.1 % 64) e.2)
    | none => m) m

/-- Dropping the L1 copies of the lines that hold some addresses. -/
def l1Drop (m : SMap (BitVec 512)) (pas : List Nat) : SMap (BitVec 512) :=
  m.filter (fun e => !(pas.any (fun a => a / 64 == e.1)))

/-- A line of L1 as a fill makes it: memory overlaid by the tile's buffered bytes. -/
def State.l1Line (s : State) (t line : Nat) : BitVec 512 :=
  lineBits ((rangeFrom (64 * line) 64).map (fun a => (sbufByte (s.tile t).sbuf a).getD (memRead s.mem a)))

/-- Filling a line of a tile's L1 from its home slice. -/
def State.l1Fill (s : State) (t line : Nat) : State :=
  let b := s.l1Line t line
  s.modTile t (fun v => { v with l1 := if (mfind v.l1 line).isSome then mput v.l1 line b else lineFill v.l1 line b })

/-! ### Watches (R353) -/

/-- Breaking the watches of a core that some bytes overlap, by their physical or by their virtual addresses. -/
def Core.breakW (x : Core) (pas vas : List Nat) : Core :=
  { x with watches := x.watches.filter (fun w => !(w.pas.any pas.contains || (rangeFrom w.a.toNat w.n).any vas.contains)) }

/-- Breaking the watches of both cores of the issuing tile, or of the core itself outside the tiles. -/
def State.breakW (s : State) (c : CoreRef) (pas vas : List Nat) : State :=
  match kindOf c with
  | .sysm => s.modCore c (·.breakW pas vas)
  | _ => s.modTile (tileOf c) (fun v => { v with worker := v.worker.breakW pas vas, feeder := v.feeder.breakW pas vas })

/-! ### Addresses (R345) -/

/-- The right an access needs; a tile core in user mode needs U as well (06 R121). -/
def State.needOf (s : State) (c : CoreRef) (r w : Bool) : Need := ⟨r, w, false, !(s.core c).sysMode⟩

/-- The outcome of the checks of a global address: the physical bytes with the zero-pending flag, a wait, or a trap. -/
inductive GChk where
  | ok (pas : List Nat) (zp : Bool)
  | busy
  | hold
  | bad (code : Nat) (va : W64)
deriving Repr

/-- The translation of an address meets a BUSY entry now. -/
def State.isBusy (s : State) (c : CoreRef) (va : W64) : Bool :=
  s.walk va.toNat 3 (s.ctx ((s.ctxOfCore c).getD 256)).root == .busy

/-- The checks have passed. -/
def GChk.isOk : GChk → Bool
  | .ok _ _ => true
  | _ => false

/-- The checks of one global address of n bytes (R345): bits [63:53], alignment, translation and rights. -/
def State.gcheck (s : State) (g : Agent) (nd : Need) (n align : Nat) (va : W64) : State × GChk :=
  if 2 ^ 53 ≤ va.toNat then (s, .bad PROT va)
  else if va.toNat % align ≠ 0 then (s, .bad ALIGN va)
  else match s.translate g va nd with
    | (s, .ok pa z) => (s, .ok (rangeFrom pa n) z)
    | (s, .busy) => (s, .busy)
    | (s, .full) => (s, .hold)
    | (s, .page) => (s, .bad PAGE va)
    | (s, .prot) => (s, .bad PROT va)

/-- The checks of several addresses in order: the first that fails decides. -/
def State.gchecks (s : State) (g : Agent) (nd : Need) (n align : Nat) : List W64 → State × GChk
  | [] => (s, .ok [] false)
  | va :: r =>
    match s.gcheck g nd n align va with
    | (s, .ok p z) =>
      match State.gchecks s g nd n align r with
      | (s, .ok q y) => (s, .ok (p ++ q) (z || y))
      | o => o
    | o => o

/-! ### Loads of global memory -/

/-- A load: the bytes per address, the alignment, the shape, the destination, the scope of an acquire, and whether it is
LDA's. -/
structure LoadReq where
  n : Nat
  align : Nat
  sh : Shape
  d : BitVec 5
  acq : Option Nat
  lda : Bool

/-- Recording LDA's watch for the flight about to be launched. -/
def State.ldaWatch (s : State) (c : CoreRef) (q : LoadReq) (va : W64) (pas : List Nat) (v : Option RVal) : State :=
  if q.lda then s.modCore c (fun x => x.setWatch
    { d := q.d.toNat, a := va, n := q.n, pas := pas, fid := x.nextId,
      val := match v with
        | some (.s a) => some a
        | _ => none })
  else s

/-- Marking the flight just launched as LDA's. -/
def Core.markLda (x : Core) (b : Bool) : Core := x.modNew (fun f => { f with lda := b })

/-- The result of a load whose bytes are known, if they all are. -/
def bytesKnown (sh : Shape) (l : List LByte) : Option RVal :=
  if l.all (fun b => b.v.isSome) then some (sh.make (l.map (fun b => (b.v.getD 0, true)))) else none

/-- The checks of an access of a system or management core (log 12): the code of the trap, if there is one. -/
def ownCheck (c : CoreRef) (a n align : Nat) : Option Nat :=
  if 2 ^ 53 ≤ a then some PROT
  else if a % align ≠ 0 ∨ (placeOf c a ≠ .plain ∧ n ≠ 8) then some ALIGN
  else if placeOf c a = .plain ∧ ownPa c a = .absent then some PAGE
  else none

/-- An address of the core block. -/
def isCoreB (c : CoreRef) (a : Nat) : Bool :=
  match placeOf c a with
  | .coreB _ => true
  | _ => false

/-- An access of a system or management core issues, and is performed later (03 R57; 27 R415; log 12). -/
def State.ownIssue (s : State) (c : CoreRef) (d : BitVec 5) (sh : Shape) (a n : Nat) (op : OwnOp) (rel acq : Option Nat) : State :=
  s.await c d sh (.held ⟨.own a n op, rel, 0⟩) acq

/-- A load of a system or management core. Its own core block answers at once. -/
def State.ownLd (s : State) (c : CoreRef) (q : LoadReq) (va : W64) : Act :=
  let a := va.toNat
  match ownCheck c a q.n q.align with
  | some code => if q.lda then .eff (s.known c q.d q.sh.zero none) else .trap code va s
  | none =>
    if isCoreB c a && !(s.core c).acqPending then
      let v := q.sh.make ((s.ownLoad c a q.n).map (fun b => (b, true)))
      .eff ((s.ldaWatch c q va (rangeFrom a q.n) (some v)).known c q.d v q.acq)
    else .eff (((s.ldaWatch c q va (rangeFrom a q.n) none).ownIssue c q.d q.sh a q.n .ld none q.acq).modCore c (·.markLda q.lda))

/-- The bytes of a load whose home slice is asked: those of L1 lines are known, every other is read when the home slice serves
it, under the tile's buffered stores of that moment, so that no unit of R132 is read in two parts. -/
def VTile.ask (v : VTile) (useL1 : Bool) (pas : List Nat) : List LByte :=
  pas.map (fun a => ⟨a, if useL1 then l1Byte v.l1 a else none⟩)

/-- The home slice's part of a load that passed its checks: buffered bytes and L1 lines serve it at once; otherwise, or when an
earlier load of the core is still open, its home slice does. -/
def State.loadGo (s : State) (c : CoreRef) (q : LoadReq) (vas : List W64) (pas : List Nat) (z : Bool) : State :=
  let va := vas.headD 0
  let free := !(s.core c).flights.any Flight.isOpenLoad
  let l := (s.tile (tileOf c)).snap free pas
  match (if free then bytesKnown q.sh l else none) with
  | some v => (s.ldaWatch c q va pas (some v)).known c q.d v q.acq
  | none => (((s.ldaWatch c q va pas none).await c q.d q.sh (.load ((s.tile (tileOf c)).ask free pas) z) q.acq).modCore c
    (·.markLda q.lda)).markVa c vas

/-- A load of global memory (R347): its checks are made as it issues; it is performed at once, or held behind an acquire or
another held access; a translation that meets a BUSY entry (06 R123) or a full table (R127) is awaited; LDA never traps. -/
def State.loadGlobal (s : State) (c : CoreRef) (q : LoadReq) (vas : List W64) : Act :=
  let va0 := vas.headD 0
  match kindOf c with
  | .sysm => s.ownLd c q va0
  | _ =>
    match s.gchecks (s.agentOf c) (s.needOf c true false) q.n q.align vas with
    | (s, .bad code va) =>
      if q.lda then .eff (s.known c q.d q.sh.zero none) else .trap code va s
    | (s, .hold) => .eff ((s.await c q.d q.sh (.busy vas none) q.acq).modCore c (·.markLda q.lda))
    | (s, .busy) => .eff (((s.await c q.d q.sh (.busy vas none) q.acq).modCore c (·.markLda q.lda)).markBusy c)
    | (s, .ok pas z) =>
      if (s.core c).acqPending then
        .eff ((((s.ldaWatch c q va0 pas none).hold c q.d q.sh (.ld pas z) none q.acq).modCore c (·.markLda q.lda)).markVa c vas)
      else .eff (s.loadGo c q vas pas z)

/-! ### Stores of global memory -/

/-- The physical address of a queue's NOTIFY word, where its context's tables map it. -/
def State.notifyPa (s : State) (q : Queue) : Option Nat :=
  match s.walk (q.base + 16) 3 (s.ctx q.ctxn).root with
  | .leaf lv _ e => some (leafAddr lv (pframe e) (q.base + 16))
  | _ => none

/-- The queues whose NOTIFY word some bytes touch, under whatever address they are stored (09 R169). -/
def State.notifyOf (s : State) (pas : List Nat) : List Nat :=
  (s.queues.filter (fun e => match s.notifyPa e.2 with
    | some p => pas.any (fun a => decide (p ≤ a ∧ a < p + 8))
    | none => false)).map (·.1)

/-- A flight carries a tag that is outstanding (16 R258): of an atomic, or of a store that kicks. LAUNCH's atomic comes before its
kick. -/
def Flight.tagged (f : Flight) : Bool :=
  f.res.isNone && (match f.kind with
    | .atomic _ => true
    | .busy _ (some _) => true
    | .launch l => l.idx == 0 || l.kick
    | .held h => (match h.op with
      | .atom _ => true
      | .st _ _ _ k _ => !k.isEmpty
      | .win _ _ _ _ k _ => !k.isEmpty
      | .done _ _ _ k _ => !k.isEmpty
      | .launch _ _ _ _ _ => true
      | .own a _ op => (match op with
        | .ld => false
        | .st _ k _ => !k.isEmpty
        | .atom _ => decide (2 ^ 31 ≤ a)
        | .image _ _ _ => true)
      | _ => false)
    | _ => false)

/-- Atomics and kicks of a core that are outstanding (16 R258). -/
def State.tagged (s : State) (c : CoreRef) : Nat :=
  (s.core c).flights.countP Flight.tagged +
  (match kindOf c with
    | .sysm => 0
    | _ => (s.tile (tileOf c)).sbuf.countP (fun e => e.feeder == isFeeder c && !e.kick.isEmpty))

/-- The next sequence number of a core's tags. -/
def Core.nextSeq (x : Core) : Core := { x with seq := x.seq + 1 }

/-- The last n elements of a list. -/
def lastN {α : Type} (n : Nat) (l : List α) : List α := l.drop (l.length - n)

/-- A tag joins the last 64 of an agent at a home slice, with the result that was returned to it (16 R258). -/
def State.putTag (s : State) (chip agent seq : Nat) (v : W64) : State :=
  s.modChip chip (fun h => { h with tags := mput h.tags agent (lastN 64 (mget [] h.tags agent ++ [(seq, v)])) })

/-- The recorded result of a tag among an agent's last 64. -/
def State.tagOf (s : State) (chip agent seq : Nat) : Option W64 :=
  ((mget [] (s.chip chip).tags agent).find? (fun t => t.1 == seq)).map (·.2)

/-- The home slice of a NOTIFY word forwards a kick whose tag it has not seen (09 R169), to every queue whose word that is. -/
def State.kickAt (s : State) (pa : Nat) (qs : List Nat) (agent seq : Nat) : State :=
  if qs.isEmpty then s
  else
    let chip := (s.homeChip pa).getD 0
    match s.tagOf chip agent seq with
    | some _ => s
    | none =>
      let s' := s.putTag chip agent seq 0
      { s' with kicks := s'.kicks ++ qs.map (fun q => ⟨q, agent, seq⟩) }

/-- A store enters the tile's store buffer; the tile's own L1 copies are updated. `n`: the flights of its core that issued
before it are those numbered below n; `k`: its kernel; `u`: the bytes of a unit in which it is performed (R132); `w`: the window
it is made through; `trs`: the translations it has used. -/
def State.sbufPut (s : State) (c : CoreRef) (bytes : List (Nat × Byte)) (u : Nat) (zp : Bool) (kick : List Nat) (seq n : Nat)
    (k w : Option Nat) (trs : List (Nat × Nat)) : State :=
  s.modTile (tileOf c) (fun v =>
    { v with sbuf := v.sbuf ++ [⟨bytes, isFeeder c, n, seq, kick, zp, false, false, k, u, w, v.order, trs⟩],
             l1 := l1Update v.l1 bytes })

/-- The part of a store of n bytes at its issue: watches are broken, a kick takes its tag's number. -/
def State.storeIssue (s : State) (c : CoreRef) (pas : List Nat) (va : W64) (n : Nat) (kick : List Nat) : State :=
  let s := s.breakW c pas (rangeFrom va.toNat n)
  if kick.isEmpty then s else s.modCore c Core.nextSeq

/-- A store of n bytes at an address that issues and enters the store buffer at once; through a window it uses the frame that the
window has pinned, no translation. -/
def State.bufStore (s : State) (c : CoreRef) (va : W64) (n : Nat) (bytes : List (Nat × Byte)) (u : Nat) (zp : Bool)
    (kick : List Nat) (w : Option Nat) : State :=
  let x := s.core c
  (s.storeIssue c (bytes.map (·.1)) va n kick).sbufPut c bytes u zp kick x.seq.toNat x.nextId x.kernNow w
    (if w.isSome then [] else [s.trOf (s.agentOf c) va])

/-- A store that must be held: an acquire or an earlier read of its core does not have its value yet (07 R142, R143), or its
own release waits. -/
def State.storeHeld (s : State) (c : CoreRef) (rel : Option Nat) : Bool :=
  (s.core c).acqPending || (s.core c).openAcc || (match rel with
    | some p => !s.relReady c p
    | none => false)

/-- A store of a system or management core. Its own core block takes it at once; the upper half of a journal record is held back,
and the store of the lower half takes it with it (28 R421). -/
def State.ownSt (s : State) (c : CoreRef) (va : W64) (n align : Nat) (bytes : List Byte) (rel : Option Nat) : Act :=
  let a := va.toNat
  match ownCheck c a n align with
  | some code => .trap code va s
  | none =>
    let kick := match ownPa c a with
      | .glob pa => if placeOf c a = .plain then s.notifyOf (rangeFrom pa n) else []
      | _ => []
    if !kick.isEmpty && decide (32 ≤ s.tagged c) then .wait s
    else
      let s := s.storeIssue c (rangeFrom a n) va n kick
      if s.upperHalf c a n then .eff (s.modCore c (·.holdHalf a (BitVec.ofNat 64 (leNat bytes))))
      else if isCoreB c a && !s.storeHeld c rel then .eff (s.ownStore c a bytes)
      else
        let r := s.withHalf c a bytes
        .eff (r.1.ownIssue c 31 (.scalar 8 false) a r.2.length (.st r.2 kick ((s.core c).seq.toNat - 1)) rel none)

/-- A store of n bytes of global memory of which the listed offsets are written, in units of u bytes (R347, R132): it enters
the store buffer, or is held. -/
def State.storeGlobal (s : State) (c : CoreRef) (va : W64) (n align u : Nat) (data : List (Nat × Byte))
    (rel : Option Nat) : Act :=
  match kindOf c with
  | .sysm => s.ownSt c va n align (data.map (·.2)) rel
  | _ =>
    match s.gcheck (s.agentOf c) (s.needOf c false true) n align va with
    | (s, .bad code va) => .trap code va s
    | (s, .hold) => .wait s
    | (s, .busy) => .wait (s.busyWait c va)
    | (s, .ok pas z) =>
      let bytes := data.map (fun e => (pas.headD 0 + e.1, e.2))
      let kick := s.notifyOf (bytes.map (·.1))
      if !kick.isEmpty && decide (32 ≤ s.tagged c) then .wait s
      else if s.storeHeld c rel then
        .eff (((s.storeIssue c (bytes.map (·.1)) va n kick).hold c 31 (.scalar 8 false)
          (.st bytes u z kick (s.core c).seq.toNat) rel none).markVa c [va])
      else .eff (s.bufStore c va n bytes u z kick none)

/-! ### Handles (05 R110, R117) -/

/-- How a handle is reached. -/
inductive Path where
  | loc
  | fe
  | amol
  | msg
deriving DecidableEq, Repr

/-- A path that R110 allows to a handle, local or remote. -/
def pathOk (h : Handle) (p : Path) (remote : Bool) : Bool :=
  let plainScr := h.level == 0 && h.kind == 0
  (match p with
    | .loc => plainScr || (h.level == 0 && h.kind == 1) || h.level == 1
    | _ => plainScr) && (!remote || plainScr || h.level == 1)

/-- The handle of a tile's table that accesses may name: ALLOCATED or STALE. -/
def State.handleIn (s : State) (t h : Nat) : Option Handle :=
  match mfind (s.tile t).handles h with
  | some x => if x.st = .freeing then none else some x
  | none => none

/-- The tile a pointer names. -/
def State.ptrTile (s : State) (c : CoreRef) (p : W64) : Nat := absTile (s.ctxOfTile (tileOf c)) (pVX p) (pVY p)

/-- The checks of a pointer access (R345): none when all pass. -/
def State.pcheck (s : State) (c : CoreRef) (p : W64) (n align : Nat) (path : Path) : Option Nat :=
  let t := tileOf c
  let x := s.ctxOfTile t
  if 3 < pWALK p then some ILLOP
  else if x.width ≤ pVX p ∨ x.height ≤ pVY p then some PROT
  else match s.handleIn t (pH p) with
    | none => some HNDL
    | some h =>
      if !pathOk h path (s.ptrTile c p != t) then some HNDL
      else if h.extent < pOFF p + n then some HNDL
      else if pOFF p % align ≠ 0 then some ALIGN
      else none

/-- Writing a pointer register as a post-increment does: at latency 1, with no push (R348). -/
def Core.setP (x : Core) (code : Nat) (v : SVal) : Core :=
  { x with r := { x.r with p := vset x.r.p (code - 32) ⟨v, x.blk.slot + 1, none⟩ } }

/-- The post-increment that Q asks for. -/
def State.postinc (s : State) (c : CoreRef) (b : BitVec 6) (q : BitVec 2) (n : Nat) : State :=
  let p := (s.rdS c b).v
  match q.toNat with
  | 1 => s.modCore c (·.setP b.toNat (s.postincOf c p n))
  | 2 => s.modCore c (·.setP b.toNat (s.postincOf c p (-(n : Int))))
  | _ => s

/-! ### Footprints (07 R136, 13 R214) -/

/-- The footprints that stand on a tile's scoreboard, in issue order. -/
def VTile.feet (v : VTile) : List (Nat × Foot) :=
  v.xfers.map (fun x => (x.order, x.foot)) ++ v.mq.map (fun m => (m.order, m.foot)) ++ v.dq.map (fun m => (m.order, m.foot))

/-- Two ranges share a 16-byte granule (R214). -/
def Rng.near (a b : Rng) : Bool :=
  a.h == b.h && decide (a.lo < a.hi ∧ b.lo < b.hi ∧ a.lo / 16 ≤ (b.hi - 1) / 16 ∧ b.lo / 16 ≤ (a.hi - 1) / 16)

/-- A local access to a range must wait for an engine command that issued before a place in tile issue order: their granules
overlap and one of them writes (R214). -/
def VTile.engineBefore (v : VTile) (ord : Nat) (r : Rng) (isWrite : Bool) : Bool :=
  v.feet.any (fun f => decide (f.1 < ord) && (f.2.write.any r.near || (isWrite && f.2.reads.any r.near)))

/-- The same for an access made now. -/
def VTile.engineHolds (v : VTile) (r : Rng) (isWrite : Bool) : Bool :=
  v.feet.any (fun f => f.2.write.any r.near || (isWrite && f.2.reads.any r.near))

/-! ### Handle banks -/

/-- The granules that a range of bytes touches. -/
def granules (off n : Nat) : List Nat := if n = 0 then [] else rangeFrom (off / 16) ((off + n - 1) / 16 - off / 16 + 1)

/-- A bank that holds some bytes of a handle of a tile is in retention: an access waits for the exit (16 R254). -/
def State.sleeps (s : State) (t h off n : Nat) : Bool :=
  match s.physOf t with
  | some p => (granules off n).any (fun g => (s.ptile p).retention.contains (Config.bankOf h g))
  | none => false

/-- An access to a range of a tile's own bank must wait: for an engine command (R214), or for its bank. -/
def State.bankHeld (s : State) (t : Nat) (r : Rng) (isWrite : Bool) : Bool :=
  (s.tile t).engineHolds r isWrite || s.sleeps t r.h r.lo (r.hi - r.lo)

/-- A window that has lost a pin to a forced page is STALE, also once HFREE has made it FREEING (R106, R115, 06 R131). -/
def Handle.isStale (h : Handle) : Bool := h.st == .stale || (h.kind == 1 && decide (h.pins.length * 8192 < h.extent))

/-- The bytes of a handle with their validity: a STALE window and an invalid ACC element read invalid. -/
def Handle.read (h : Handle) (off n : Nat) : List (Byte × Bool) :=
  (rangeFrom off n).map (fun o => (memRead h.data o, !h.isStale && !(h.level == 1 && h.inval.contains (o / 4))))

/-- A handle with some bytes written: their granules are dirty (16 R268), their ACC elements valid (22 R375), and their
granules full where asked (R112). -/
def Handle.write (h : Handle) (bytes : List (Nat × Byte)) (setFull : Bool) : Handle :=
  let gs := bytes.foldl (fun a e => setIns a (e.1 / 16)) []
  { h with data := memWriteL h.data bytes,
           inval := h.inval.filter (fun e => !(bytes.any (fun b => b.1 / 4 == e))),
           dirty := gs.foldl setIns h.dirty,
           full := if setFull && h.level == 0 && h.kind == 0 then gs.foldl setIns h.full else h.full }

/-- Changing one handle of a tile. -/
def State.modHandle (s : State) (t h : Nat) (f : Handle → Handle) : State :=
  match mfind (s.tile t).handles h with
  | some x => s.modTile t (fun v => { v with handles := mput v.handles h (f x) })
  | none => s

/-- Granules that must be full are. -/
def Handle.allFull (h : Handle) (off n : Nat) : Bool := (granules off n).all h.full.contains

/-- A waiting consuming load that comes before a place in issue order shares a granule with a range (R113). -/
def sharesWait (l : List WaitE) (ord h off n : Nat) : Bool :=
  l.any (fun w => w.h == h && decide (w.ord < ord ∧ w.off / 16 ≤ (off + n - 1) / 16 ∧ off / 16 ≤ (w.off + w.n - 1) / 16))

/-- A flight holds a consuming load of its own tile that waits behind an acquire or a footprint. -/
def Flight.heldWait (f : Flight) : Option WaitE :=
  match f.kind with
  | .held ⟨.bank h off (.load n fe), _, o⟩ => if fe = 0 then none else some ⟨.worker 0, f.id, h, off, n, fe == 2, o⟩
  | _ => none

/-- A consuming load must wait for an earlier one of either core, or from another tile, with which it shares a granule: they are
served in issue order (R113). -/
def VTile.consumeAhead (v : VTile) (ord h off n : Nat) : Bool :=
  sharesWait v.waits ord h off n || sharesWait ((v.worker.flights ++ v.feeder.flights).filterMap Flight.heldWait) ord h off n

/-- A consuming load enters the wait list, at a place in issue order. -/
def State.putWait (s : State) (t : Nat) (w : WaitE) : State :=
  s.modTile t (fun v => { v with waits := v.waits ++ [w], order := max v.order (w.ord + 1) })

/-- Emptying the granules of a range. -/
def Handle.empty (h : Handle) (off n : Nat) : Handle :=
  { h with full := h.full.filter (fun g => !(granules off n).contains g) }

/-- Serving a consuming load: all its granules are read in one step, and emptied for .fec. -/
def State.consume (s : State) (t h off n : Nat) (fec : Bool) : State × List (Byte × Bool) :=
  match mfind (s.tile t).handles h with
  | some x => (if fec then s.modHandle t h (·.empty off n) else s, x.read off n)
  | none => (s, List.replicate n (0, false))

/-! ### Loads and stores through a pointer (R348) -/

/-- A window line that a range needs is absent. -/
def Handle.lineAbsent (h : Handle) (off : Nat) : Bool := h.kind == 1 && !h.isStale && !h.lines.contains (off / 64)

/-- The line of a window under a store, where it is present. -/
def Handle.writeLine (h : Handle) (bytes : List (Nat × Byte)) : Handle :=
  match bytes with
  | [] => h
  | b :: _ => if h.lineAbsent b.1 then h else h.write bytes false

/-- The global bytes behind a range of a window: those of the frames it has pinned. -/
def VTile.winPas (v : VTile) (h off n : Nat) : List Nat :=
  match mfind v.handles h with
  | some x => if x.kind = 1 then rangeFrom (x.pins.getD (off / 8192) 0 + off % 8192) n else []
  | none => []

/-- The global bytes of an open read or atomic of a tile; none where translation is still awaited. -/
def Flight.pas (f : Flight) (v : VTile) : Option (List Nat) :=
  match f.kind with
  | .load l _ => some (l.map (·.pa))
  | .table _ _ _ _ _ (some r) => some (r.1.map (·.pa))
  | .atomic a => some (rangeFrom a.pa a.n)
  | .window h off => some (v.winPas h off (f.shape.per 1))
  | .held h => (match h.op with
    | .ld l _ => some l
    | .launch _ _ l _ _ => some l
    | .atom a => some (rangeFrom a.pa a.n)
    | .bank g off (.load n _) => some (v.winPas g off n)
    | _ => some [])
  | _ => none

/-- A read whose value is due: of global memory, or of a handle behind which it may lie. -/
def Flight.isOpenRead (f : Flight) : Bool :=
  f.isOpenLoad || (match f.kind with
    | .held ⟨.bank _ _ (.load _ _), _, _⟩ => true
    | _ => false)

/-- An earlier open read or atomic of the core may touch some addresses: it is performed first (07 R143). -/
def State.earlier (s : State) (c : CoreRef) (id : Nat) (pas : List Nat) : Bool :=
  (s.core c).flights.any (fun f => decide (f.id < id) && f.isOpenRead && (match f.pas (s.tile (tileOf c)) with
    | some l => l.any pas.contains
    | none => true))

/-- A load of a window goes to global memory: its line is absent, or an earlier read of its bytes is still open. -/
def State.winFetch (s : State) (c : CoreRef) (id : Nat) (h : Handle) (g off n : Nat) : Bool :=
  h.lineAbsent off || (h.kind == 1 && !h.isStale && s.earlier c id ((s.tile (tileOf c)).winPas g off n))

/-- A load of n bytes through a checked pointer. `fe`: 0 none, 1 .fe, 2 .fec. -/
def State.loadPtr (s : State) (c : CoreRef) (p : W64) (n : Nat) (fe : Nat) (sh : Shape) (d : BitVec 5)
    (acq : Option Nat) : State :=
  let t := tileOf c
  let dst := s.ptrTile c p
  if dst ≠ t then
    let id := (s.core c).nextId
    (s.await c d sh .await acq).sendItem t dst 0 c id (.acc (pH p) (pOFF p) (.load n fe))
  else match mfind (s.tile t).handles (pH p) with
    | none => s.known c d sh.zero acq
    | some h =>
      if fe ≠ 0 then
        let o := (s.tile t).order
        if h.allFull (pOFF p) n && !(s.tile t).consumeAhead o (pH p) (pOFF p) n then
          let r := s.consume t (pH p) (pOFF p) n (fe == 2)
          r.1.known c d (sh.make r.2) acq
        else
          let id := (s.core c).nextId
          (s.await c d sh .await acq).putWait t ⟨c, id, pH p, pOFF p, n, fe == 2, o⟩
      else if s.winFetch c (s.core c).nextId h (pH p) (pOFF p) n then s.await c d sh (.window (pH p) (pOFF p)) acq
      else s.known c d (sh.make (h.read (pOFF p) n)) acq

/-- The whole of a load through a pointer, after suppression: the checks, the waits, the post-increment, the access, which is
performed at once or held. -/
def ptrLoad (b : BitVec 6) (q : BitVec 2) (n : Nat) (fe : Nat) (sh : Shape) (d : BitVec 5) (acq : Option Nat)
    (c : CoreRef) (s : State) : Act :=
  let p := (s.rdS c b).v
  let msg := (s.core c).sel == .msg
  match s.pcheck c p n n (if msg then .msg else if fe ≠ 0 then .fe else .loc) with
  | some code => .trap code 0 s
  | none =>
    let dst := s.ptrTile c p
    if msg ∧ dst ≠ tileOf c then .trap ILLOP 0 s
    else if (s.core c).acqPending || (if dst = tileOf c then
        s.bankHeld (tileOf c) ⟨pH p, pOFF p, pOFF p + n⟩ false else s.chanHeld c dst 0) then
      if msg then .wait s
      else .eff ((s.postinc c b q n).hold c d sh (if dst = tileOf c then .bank (pH p) (pOFF p) (.load n fe)
        else .acc dst (pH p) (pOFF p) (.load n fe)) none acq)
    else .eff ((s.postinc c b q n).loadPtr c p n fe sh d acq)

/-- A store of bytes at offsets of a handle, in units of u bytes, through a checked pointer: at the bank, through a window to global memory, or
over the mesh. -/
def State.storePtr (s : State) (c : CoreRef) (p : W64) (n u : Nat) (bytes : List (Nat × Byte)) (fe : Bool) : Act :=
  let t := tileOf c
  let dst := s.ptrTile c p
  let at' := bytes.map (fun e => (pOFF p + e.1, e.2))
  if dst ≠ t then .eff (s.sendItem t dst 0 c 0 (.acc (pH p) (pOFF p) (.store at' n fe)))
  else match mfind (s.tile t).handles (pH p) with
    | none => .done s
    | some h =>
      if h.isStale then .done s
      else if h.kind = 1 then
        -- the pinned frame is written; a right is missing only where the translation says so
        let va := h.base + BitVec.ofNat 64 (pOFF p)
        match s.gcheck (s.agentOf c) (s.needOf c false true) n 1 va with
        | (s, .bad 9 _) => .trap PROT 0 s
        | (s, _) =>
          let pb := bytes.map (fun e => (h.pins.getD (pOFF p / 8192) 0 + pOFF p % 8192 + e.1, e.2))
          let kick := s.notifyOf (pb.map (·.1))
          if !kick.isEmpty && decide (32 ≤ s.tagged c) then .wait s
          else .eff ((s.modHandle t (pH p) (·.writeLine at')).bufStore c va n pb u true kick (some (pH p)))
      else .eff (s.modHandle t (pH p) (·.write at' fe))

/-- The same store held: the checks of a window's page are made as it issues. -/
def State.holdPtr (s : State) (c : CoreRef) (p : W64) (n u : Nat) (bytes : List (Nat × Byte)) (fe : Bool) (rel : Option Nat) :
    Act :=
  let t := tileOf c
  let dst := s.ptrTile c p
  let sh : Shape := .scalar 8 false
  let at' := bytes.map (fun e => (pOFF p + e.1, e.2))
  if dst ≠ t then .eff (s.hold c 31 sh (.acc dst (pH p) (pOFF p) (.store at' n fe)) rel none)
  else match mfind (s.tile t).handles (pH p) with
    | none => .done s
    | some h =>
      if h.isStale then .done s
      else if h.kind = 1 then
        let va := h.base + BitVec.ofNat 64 (pOFF p)
        match s.gcheck (s.agentOf c) (s.needOf c false true) n 1 va with
        | (s, .bad 9 _) => .trap PROT 0 s
        | (s, _) =>
          let pb := bytes.map (fun e => (h.pins.getD (pOFF p / 8192) 0 + pOFF p % 8192 + e.1, e.2))
          let kick := s.notifyOf (pb.map (·.1))
          if !kick.isEmpty && decide (32 ≤ s.tagged c) then .wait s
          else .eff ((s.storeIssue c (pb.map (·.1)) va n kick).hold c 31 sh (.win (pH p) at' pb u kick (s.core c).seq.toNat) rel none)
      else .eff (s.hold c 31 sh (.bank (pH p) (pOFF p) (.store at' n fe)) rel none)

/-- The whole of a store through a pointer (R348): the post-increment happens even where the data suppresses the store;
an acquire, an earlier read without its value, or what its release waits for holds the access (07 R142, R143). -/
def ptrStore (b : BitVec 6) (q : BitVec 2) (n u : Nat) (fe : Bool) (rel : Option Nat)
    (data : CoreRef → State → Option (List (Nat × Byte))) (c : CoreRef) (s : State) : Act :=
  let p := (s.rdS c b).v
  let msg := (s.core c).sel == .msg
  if q ≠ 0 ∧ 3 < pWALK p then .trap ILLOP 0 s
  else match data c s with
    | none => .done (s.postinc c b q n)
    | some bytes =>
      match s.pcheck c p n n (if msg then .msg else if fe then .fe else .loc) with
      | some code => .trap code 0 s
      | none =>
        let dst := s.ptrTile c p
        if msg ∧ dst ≠ tileOf c then .trap ILLOP 0 s
        else
          let held := s.storeHeld c rel || (if dst = tileOf c then
            s.bankHeld (tileOf c) ⟨pH p, pOFF p, pOFF p + n⟩ true else s.chanHeld c dst 0)
          if held && msg then .wait s
          else match (if held then s.holdPtr c p n u bytes fe rel else s.storePtr c p n u bytes (fe || msg)) with
          | .eff s => .eff (s.postinc c b q n)
          | .done s => .done (s.postinc c b q n)
          | a => a

/-! ### Atomics (R356, R357) -/

/-- The operations that exist (R356): size in bytes, whether AMOL. -/
def atomLegal (op n : Nat) (amol : Bool) : Bool := op ≤ 8 || (op == 10 && n == 4 && !amol)

/-- The new value of an atomic and the flags it raises. -/
def atomNew (op n m x c : Nat) : Nat × BitVec 5 :=
  let k := 2 ^ (8 * n)
  let sg (v : Nat) : Int := (BitVec.ofNat (8 * n) v).toInt
  let x := x % k
  match op with
  | 0 => (x, 0)
  | 1 => ((m + x) % k, 0)
  | 2 => (m &&& x, 0)
  | 3 => (m ||| x, 0)
  | 4 => (m ^^^ x, 0)
  | 5 => (if sg m ≤ sg x then m else x, 0)
  | 6 => (if sg x ≤ sg m then m else x, 0)
  | 7 => (min m x, 0)
  | 8 => (max m x, 0)
  | 9 => (if m = c % k then x else m, 0)
  | _ =>
    let r := fAdd 0 m x
    (r.bits, r.flags)

/-- The order field of an atomic: acquire and release halves (R66). -/
def amoAcq (o : BitVec 2) : Bool := o == 1 || o == 3
def amoRel (o : BitVec 2) : Bool := o == 2 || o == 3

/-- Scope and order of an atomic are legal (R356). -/
def amoOrd (o : BitVec 2) (p : BitVec 3) : Bool := p.toNat ≤ 5 && (o != 0 || p == 0)

/-- A global atomic after suppression. One whose translation is awaited has not passed its checks yet: NONREPRO follows them. -/
def globalAtomic (a : BitVec 6) (d : BitVec 5) (op n : Nat) (p : BitVec 3) (o : BitVec 2) (x y : CoreRef → State → W64)
    (c : CoreRef) (s : State) : Act :=
  let va := (s.rdS c a).v
  let acq := if amoAcq o then some p.toNat else none
  let rel := if amoRel o then some p.toNat else none
  let sh : Shape := .scalar n false
  match kindOf c with
    | .sysm =>
      match ownCheck c va.toNat n n with
      | some code => .trap code va s
      | none =>
        if decide (2 ^ 31 ≤ va.toNat) && decide (32 ≤ s.tagged c) then .wait s
        else
          let q : AtomReq := ⟨va.toNat, n, op, x c s, y c s, (s.core c).seq.toNat, false, rel⟩
          .eff (((s.modCore c Core.nextSeq).breakW c (rangeFrom va.toNat n) (rangeFrom va.toNat n)).ownIssue c d sh va.toNat n
            (.atom q) rel acq)
    | _ =>
      match s.gcheck (s.agentOf c) (s.needOf c true true) n n va with
      | (s, .bad code va) => .trap code va s
      | (s, r) =>
        if op = 10 ∧ (s.ctxOfTile (tileOf c)).repro ∧ r.isOk then .trap NONREPRO 0 s
        else if 32 ≤ s.tagged c then .wait s
        else
          let held := (s.core c).acqPending || (amoRel o && !s.relReady c p.toNat)
          let q : AtomReq := ⟨0, n, op, x c s, y c s, (s.core c).seq.toNat, false, rel⟩
          let s := s.modCore c Core.nextSeq
          match r with
          | .ok pas z =>
            let s := s.breakW c pas (rangeFrom va.toNat n)
            let q := { q with pa := pas.headD 0, zp := z }
            .eff ((if held then s.hold c d sh (.atom q) rel acq else s.await c d sh (.atomic q) acq).markVa c [va])
          | .busy => .eff (((s.breakW c [] (rangeFrom va.toNat n)).await c d sh (.busy [va] (some q)) acq).markBusy c)
          | _ => .eff ((s.breakW c [] (rangeFrom va.toNat n)).await c d sh (.busy [va] (some q)) acq)

/-- An atomic at a bank: the old value, and the handle after it (R358: full/empty bits stay). -/
def State.bankAtomic (s : State) (t h off : Nat) (q : AtomReq) : State × W64 :=
  match mfind (s.tile t).handles h with
  | some x =>
    let m := memReadLE x.data off q.n
    let r := atomNew q.op q.n m q.x.toNat q.c.toNat
    (s.modHandle t h (·.write (atAddr off (natBytes q.n r.1)) false), BitVec.ofNat 64 m)
  | none => (s, 0)

/-- AMOL after suppression (R358). -/
def localAtomic (a : BitVec 6) (d : BitVec 5) (op n : Nat) (p : BitVec 3) (o : BitVec 2) (x y : CoreRef → State → W64)
    (c : CoreRef) (s : State) : Act :=
  let ptr := (s.rdS c a).v
  let t := tileOf c
  let acq := if amoAcq o then some p.toNat else none
  let q : AtomReq := ⟨0, n, op, x c s, y c s, 0, false, none⟩
  match s.pcheck c ptr n n .amol with
  | some code => .trap code 0 s
  | none =>
    let dst := s.ptrTile c ptr
    let rel := if amoRel o then some p.toNat else none
    if (s.core c).sel = .msg ∧ dst ≠ t then .trap ILLOP 0 s
    else if s.storeHeld c rel || (if dst = t then s.bankHeld t ⟨pH ptr, pOFF ptr, pOFF ptr + n⟩ true
        else s.chanHeld c dst 0) then
      holdAct s c d (.scalar n false) (if dst = t then .bank (pH ptr) (pOFF ptr) (.atomic q)
        else .acc dst (pH ptr) (pOFF ptr) (.atomic q)) rel acq
    else if dst ≠ t then
      let id := (s.core c).nextId
      .eff ((s.await c d (.scalar n false) .await acq).sendItem t dst 0 c id (.acc (pH ptr) (pOFF ptr) (.atomic q)))
    else
      let r := s.bankAtomic t (pH ptr) (pOFF ptr) q
      .eff (r.1.known c d (.s (valid r.2)) acq)

end Sys2Proof.Machine
end

