-- ==== Sys2Proof/Machine/Float.lean ====
section
/-! DEFINITION. Scalar floating-point instructions (20 R321-R328). -/

namespace Sys2Proof.Machine

/-- The FP32 operand in the low bits of a scalar (R321). -/
def SVal.f32 (x : SVal) : Nat := x.v.toNat % 2 ^ 32

/-- A result in the low bits, higher bits zero, with its flags raised. -/
def Core.outF (x : Core) (d : BitVec 5) (l : Nat) (r : FRes) : Core :=
  (x.raise r.flags).outS d l (valid (BitVec.ofNat 64 r.bits))

/-- A fixed-latency operation of two FP32 scalars. -/
def flt2 (opc : Nat) (f : Nat → Nat → FRes) (st : BitVec 3) (a b : BitVec 6) (d : BitVec 5) (s : State) :
    Host.Outcome State Fault Refusal :=
  issue { opc := opc, st := st, legal := fun k => sLegal k a && sLegal k b && dLegal k d, srcs := [.s a, .s b],
          need := [.s a, .s b] } (suppS d 4)
    (fun c s => .done (s.modCore c (·.outF d 4 (f (s.rdS c a).f32 (s.rdS c b).f32)))) s

/-- A fixed-latency operation of one FP32 scalar. -/
def flt1 (opc : Nat) (f : Nat → FRes) (st : BitVec 3) (a : BitVec 6) (d : BitVec 5) (s : State) :
    Host.Outcome State Fault Refusal :=
  issue { opc := opc, st := st, legal := fun k => sLegal k a && dLegal k d, srcs := [.s a], need := [.s a] } (suppS d 4)
    (fun c s => .done (s.modCore c (·.outF d 4 (f (s.rdS c a).f32)))) s

/-- A division or square root: the flags are raised at issue, the result is delivered later (R322). -/
def fltVar (srcs : List Src) (leg : CoreKind → Bool) (f : CoreRef → State → FRes) (st : BitVec 3) (d : BitVec 5)
    (s : State) : Host.Outcome State Fault Refusal :=
  issue { opc := 0x28, st := st, legal := fun k => leg k && dLegal k d, srcs := srcs, need := srcs } (suppVar .s d)
    (fun c s =>
      let r := f c s
      .eff (s.modCore c (fun x => (x.raise r.flags).launch .s d
        { Flight.base with res := some (.s (valid (BitVec.ofNat 64 r.bits))), flagger := true }))) s

/-- FADD (R322). -/
def execFadd (st : BitVec 3) (a b : BitVec 6) (d : BitVec 5) (r : BitVec 2) (s : State) :
    Host.Outcome State Fault Refusal :=
  flt2 0x28 (fAdd r.toNat) st a b d s

/-- FSUB (R322). -/
def execFsub (st : BitVec 3) (a b : BitVec 6) (d : BitVec 5) (r : BitVec 2) (s : State) :
    Host.Outcome State Fault Refusal :=
  flt2 0x28 (fSub r.toNat) st a b d s

/-- FMUL (R322). -/
def execFmul (st : BitVec 3) (a b : BitVec 6) (d : BitVec 5) (r : BitVec 2) (s : State) :
    Host.Outcome State Fault Refusal :=
  flt2 0x28 (fMul r.toNat) st a b d s

/-- FMIN (R323). -/
def execFmin (st : BitVec 3) (a b : BitVec 6) (d : BitVec 5) (s : State) : Host.Outcome State Fault Refusal :=
  flt2 0x28 (fMinMax false) st a b d s

/-- FMAX (R323). -/
def execFmax (st : BitVec 3) (a b : BitVec 6) (d : BitVec 5) (s : State) : Host.Outcome State Fault Refusal :=
  flt2 0x28 (fMinMax true) st a b d s

/-- FDIV (R322). -/
def execFdiv (st : BitVec 3) (a b : BitVec 6) (d : BitVec 5) (r : BitVec 2) (s : State) :
    Host.Outcome State Fault Refusal :=
  fltVar [.s a, .s b] (fun k => sLegal k a && sLegal k b)
    (fun c s => fDiv r.toNat (s.rdS c a).f32 (s.rdS c b).f32) st d s

/-- FSQRT (R322). -/
def execFsqrt (st : BitVec 3) (a : BitVec 6) (d : BitVec 5) (r : BitVec 2) (s : State) :
    Host.Outcome State Fault Refusal :=
  fltVar [.s a] (fun k => sLegal k a) (fun c s => fSqrt r.toNat (s.rdS c a).f32) st d s

/-- FFMA (R324). -/
def execFfma (st : BitVec 3) (a : BitVec 6) (d : BitVec 5) (b : BitVec 6) (r : BitVec 2) (c : BitVec 6) (s : State) :
    Host.Outcome State Fault Refusal :=
  issue { opc := 0x29, st := st, n := 2, legal := fun k => sLegal k a && sLegal k b && sLegal k c && dLegal k d,
          srcs := [.s a, .s b, .s c], need := [.s a, .s b, .s c] } (suppS d 4)
    (fun u s => .done (s.modCore u (·.outF d 4
      (fFma r.toNat (s.rdS u a).f32 (s.rdS u b).f32 (s.rdS u c).f32)))) s

/-- FABS (R325): bit 31 cleared, no flag. -/
def execFabs (st : BitVec 3) (a : BitVec 6) (d : BitVec 5) (s : State) : Host.Outcome State Fault Refusal :=
  flt1 0x2a (fun a => ⟨a % 2 ^ 31, 0⟩) st a d s

/-- FNEG (R325): bit 31 inverted, no flag. -/
def execFneg (st : BitVec 3) (a : BitVec 6) (d : BitVec 5) (s : State) : Host.Outcome State Fault Refusal :=
  flt1 0x2a (fun a => ⟨(a + 2 ^ 31) % 2 ^ 32, 0⟩) st a d s

/-- FCLASS (R325): a one-hot mask, no flag. -/
def execFclass (st : BitVec 3) (a : BitVec 6) (d : BitVec 5) (s : State) : Host.Outcome State Fault Refusal :=
  flt1 0x2a (fun a => ⟨fClass a, 0⟩) st a d s

/-- FTEST (R326): all 64 bits of A where the condition holds, else invalid zero. -/
def execFtest (st : BitVec 3) (a b : BitVec 6) (d : BitVec 5) (f : BitVec 5) (s : State) :
    Host.Outcome State Fault Refusal :=
  issue { opc := 0x2b, st := st, legal := fun k => sLegal k a && sLegal k b && dLegal k d && f.toNat < 8,
          srcs := [.s a, .s b], need := [.s a, .s b] } (suppS d 4)
    (fun c s => .done (match fCond f.toNat (s.rdS c a).f32 (s.rdS c b).f32 with
      | some (h, fl) => s.modCore c (fun x => (x.raise fl).outS d 4 (if h then s.rdS c a else iz))
      | none => s)) s

/-- The format codes of FCVT and VCVT that may stand together (R327). -/
def cvtLegal (x y : BitVec 3) : Bool := x != y && x.toNat != 7 && y.toNat != 7

/-- FCVT (R327, R328). -/
def execFcvt (st : BitVec 3) (a : BitVec 6) (x y : BitVec 3) (d : BitVec 5) (r : BitVec 2) (s : State) :
    Host.Outcome State Fault Refusal :=
  issue { opc := 0x2c, st := st, legal := fun k => sLegal k a && dLegal k d && cvtLegal x y, srcs := [.s a],
          need := [.s a] } (suppS d 3)
    (fun c s =>
      let v := convert x.toNat y.toNat r.toNat (s.rdS c a).v
      .done (s.modCore c (fun u => (u.raise v.2).outS d 3 (valid v.1)))) s

end Sys2Proof.Machine
end

