-- ==== Sys2Proof/Machine/Vector.lean ====
section
/-! DEFINITION. Vector instructions (20 R329-R343). The worker alone has them (R68). -/

namespace Sys2Proof.Machine

/-! ### Lanes -/

/-- An invalid zero lane. -/
def il : Lane := ⟨0, false⟩

/-- Lane i of a vector value. -/
def VVal.lane (v : VVal) (i : Nat) : Lane := vget il v i

/-- A valid lane. -/
def ok32 (v : W32) : Lane := ⟨v, true⟩

/-- One lane of a lane-wise integer operation (R329). -/
def lane2 (f : W32 → W32 → W32) (x y : Lane) : Lane := if x.ok && y.ok then ok32 (f x.v y.v) else il

/-- A lane-wise operation of two vectors. -/
def vzip (f : Lane → Lane → Lane) (a b : VVal) : VVal := vecMk (fun i => f (a.lane i) (b.lane i))

/-- Lanes with flags: the vector, and the flags of all lanes. -/
def vflags (f : Nat → Lane × BitVec 5) : VVal × BitVec 5 :=
  (vecMk (fun i => (f i).1), (rangeFrom 0 16).foldl (fun a i => a ||| (f i).2) 0)

/-- A float result as a lane. -/
def FRes.lane (r : FRes) : Lane × BitVec 5 := (ok32 (BitVec.ofNat 32 r.bits), r.flags)

/-- A lane-wise float operation of two vectors (R329, R331). -/
def vflt2 (f : Nat → Nat → FRes) (a b : VVal) : VVal × BitVec 5 :=
  vflags (fun i => if (a.lane i).ok && (b.lane i).ok then (f (a.lane i).v.toNat (b.lane i).v.toNat).lane else (il, 0))

/-- A lane-wise float operation of one vector. -/
def vflt1 (f : Nat → FRes) (a : VVal) : VVal × BitVec 5 :=
  vflags (fun i => if (a.lane i).ok then (f (a.lane i).v.toNat).lane else (il, 0))

/-! ### The shapes of issue -/

/-- A fixed-latency instruction with vector operands and a vector result, with flags. -/
def vecOp (opc l : Nat) (n : Nat) (srcs : List (BitVec 6)) (leg : Bool) (f : CoreRef → State → VVal × BitVec 5)
    (st : BitVec 3) (d : BitVec 5) (s : State) : Host.Outcome State Fault Refusal :=
  issue { opc := opc, st := st, n := n, legal := fun _ => srcs.all vLegal && dvLegal d && leg,
          srcs := srcs.map Src.v, need := [] } suppNone
    (fun c s =>
      let r := f c s
      .done (s.modCore c (fun x => (x.raise r.2).outV d l r.1))) s

/-- A fixed-latency instruction with vector operands and a scalar result. -/
def vecToS (opc l : Nat) (srcs : List (BitVec 6)) (leg : Bool) (f : CoreRef → State → SVal × BitVec 5)
    (st : BitVec 3) (d : BitVec 5) (s : State) : Host.Outcome State Fault Refusal :=
  issue { opc := opc, st := st, legal := fun k => srcs.all vLegal && dLegal k d && leg,
          srcs := srcs.map Src.v, need := [] } suppNone
    (fun c s =>
      let r := f c s
      .done (s.modCore c (fun x => (x.raise r.2).outS d l r.1))) s

/-- A lane-wise integer operation of two vectors (R330). -/
def vint2 (f : W32 → W32 → W32) (st : BitVec 3) (a b : BitVec 6) (d : BitVec 5) (s : State) :
    Host.Outcome State Fault Refusal :=
  vecOp 0x40 2 1 [a, b] true (fun c s => (vzip (lane2 f) (s.rdV c a) (s.rdV c b), 0)) st d s

/-- A lane-wise integer operation of one vector. -/
def vint1 (f : W32 → W32) (st : BitVec 3) (a : BitVec 6) (d : BitVec 5) (s : State) :
    Host.Outcome State Fault Refusal :=
  vecOp 0x40 2 1 [a] true
    (fun c s => (vmap (fun x => if x.ok then ok32 (f x.v) else il) (s.rdV c a), 0)) st d s

/-- A division or square root of vectors: flags at issue, the result later (R331). -/
def vecVar (srcs : List (BitVec 6)) (f : CoreRef → State → VVal × BitVec 5) (st : BitVec 3) (d : BitVec 5)
    (s : State) : Host.Outcome State Fault Refusal :=
  issue { opc := 0x4d, st := st, legal := fun _ => srcs.all vLegal && dvLegal d, srcs := srcs.map Src.v, need := [] }
    suppNone
    (fun c s =>
      let r := f c s
      .eff (s.modCore c (fun x => (x.raise r.2).launch .v d
        { Flight.base with res := some (.v r.1), flagger := true }))) s

/-! ### The integer family (R330) -/

/-- VADD (R330). -/
def execVadd (st : BitVec 3) (a b : BitVec 6) (d : BitVec 5) (s : State) : Host.Outcome State Fault Refusal :=
  vint2 (fun x y => x + y) st a b d s

/-- VSUB (R330). -/
def execVsub (st : BitVec 3) (a b : BitVec 6) (d : BitVec 5) (s : State) : Host.Outcome State Fault Refusal :=
  vint2 (fun x y => x - y) st a b d s

/-- VMUL (R330). -/
def execVmul (st : BitVec 3) (a b : BitVec 6) (d : BitVec 5) (s : State) : Host.Outcome State Fault Refusal :=
  vint2 (fun x y => x * y) st a b d s

/-- VMULH (R330). -/
def execVmulh (st : BitVec 3) (a b : BitVec 6) (d : BitVec 5) (s : State) : Host.Outcome State Fault Refusal :=
  vint2 (fun x y => BitVec.ofInt 32 (x.toInt * y.toInt / 2 ^ 32)) st a b d s

/-- VMULHU (R330). -/
def execVmulhu (st : BitVec 3) (a b : BitVec 6) (d : BitVec 5) (s : State) : Host.Outcome State Fault Refusal :=
  vint2 (fun x y => BitVec.ofNat 32 (x.toNat * y.toNat / 2 ^ 32)) st a b d s

/-- VAND (R330). -/
def execVand (st : BitVec 3) (a b : BitVec 6) (d : BitVec 5) (s : State) : Host.Outcome State Fault Refusal :=
  vint2 (fun x y => x &&& y) st a b d s

/-- VOR (R330). -/
def execVor (st : BitVec 3) (a b : BitVec 6) (d : BitVec 5) (s : State) : Host.Outcome State Fault Refusal :=
  vint2 (fun x y => x ||| y) st a b d s

/-- VXOR (R330). -/
def execVxor (st : BitVec 3) (a b : BitVec 6) (d : BitVec 5) (s : State) : Host.Outcome State Fault Refusal :=
  vint2 (fun x y => x ^^^ y) st a b d s

/-- VANDN (R330). -/
def execVandn (st : BitVec 3) (a b : BitVec 6) (d : BitVec 5) (s : State) : Host.Outcome State Fault Refusal :=
  vint2 (fun x y => x &&& ~~~y) st a b d s

/-- VSHL (R330). -/
def execVshl (st : BitVec 3) (a b : BitVec 6) (d : BitVec 5) (s : State) : Host.Outcome State Fault Refusal :=
  vint2 (fun x y => x <<< (y.toNat % 32)) st a b d s

/-- VSHR (R330). -/
def execVshr (st : BitVec 3) (a b : BitVec 6) (d : BitVec 5) (s : State) : Host.Outcome State Fault Refusal :=
  vint2 (fun x y => x >>> (y.toNat % 32)) st a b d s

/-- VSRA (R330). -/
def execVsra (st : BitVec 3) (a b : BitVec 6) (d : BitVec 5) (s : State) : Host.Outcome State Fault Refusal :=
  vint2 (fun x y => x.sshiftRight (y.toNat % 32)) st a b d s

/-- VMIN (R330). -/
def execVmin (st : BitVec 3) (a b : BitVec 6) (d : BitVec 5) (s : State) : Host.Outcome State Fault Refusal :=
  vint2 (fun x y => if x.sle y then x else y) st a b d s

/-- VMAX (R330). -/
def execVmax (st : BitVec 3) (a b : BitVec 6) (d : BitVec 5) (s : State) : Host.Outcome State Fault Refusal :=
  vint2 (fun x y => if y.sle x then x else y) st a b d s

/-- VMINU (R330). -/
def execVminu (st : BitVec 3) (a b : BitVec 6) (d : BitVec 5) (s : State) : Host.Outcome State Fault Refusal :=
  vint2 (fun x y => if x.ule y then x else y) st a b d s

/-- VMAXU (R330). -/
def execVmaxu (st : BitVec 3) (a b : BitVec 6) (d : BitVec 5) (s : State) : Host.Outcome State Fault Refusal :=
  vint2 (fun x y => if y.ule x then x else y) st a b d s

/-- VPOP (R330). -/
def execVpop (st : BitVec 3) (a : BitVec 6) (d : BitVec 5) (s : State) : Host.Outcome State Fault Refusal :=
  vint1 (fun x => BitVec.ofNat 32 (popN x.toNat 32)) st a d s

/-- VMOV (R330). -/
def execVmov (st : BitVec 3) (a : BitVec 6) (d : BitVec 5) (s : State) : Host.Outcome State Fault Refusal :=
  vint1 (fun x => x) st a d s

/-! ### Floating point (R331) -/

/-- VFADD (R331). -/
def execVfadd (st : BitVec 3) (a b : BitVec 6) (d : BitVec 5) (r : BitVec 2) (s : State) :
    Host.Outcome State Fault Refusal :=
  vecOp 0x41 4 1 [a, b] true (fun c s => vflt2 (fAdd r.toNat) (s.rdV c a) (s.rdV c b)) st d s

/-- VFSUB (R331). -/
def execVfsub (st : BitVec 3) (a b : BitVec 6) (d : BitVec 5) (r : BitVec 2) (s : State) :
    Host.Outcome State Fault Refusal :=
  vecOp 0x41 4 1 [a, b] true (fun c s => vflt2 (fSub r.toNat) (s.rdV c a) (s.rdV c b)) st d s

/-- VFMUL (R331). -/
def execVfmul (st : BitVec 3) (a b : BitVec 6) (d : BitVec 5) (r : BitVec 2) (s : State) :
    Host.Outcome State Fault Refusal :=
  vecOp 0x41 4 1 [a, b] true (fun c s => vflt2 (fMul r.toNat) (s.rdV c a) (s.rdV c b)) st d s

/-- VFMIN (R331, R323). -/
def execVfmin (st : BitVec 3) (a b : BitVec 6) (d : BitVec 5) (s : State) : Host.Outcome State Fault Refusal :=
  vecOp 0x41 4 1 [a, b] true (fun c s => vflt2 (fMinMax false) (s.rdV c a) (s.rdV c b)) st d s

/-- VFMAX (R331, R323). -/
def execVfmax (st : BitVec 3) (a b : BitVec 6) (d : BitVec 5) (s : State) : Host.Outcome State Fault Refusal :=
  vecOp 0x41 4 1 [a, b] true (fun c s => vflt2 (fMinMax true) (s.rdV c a) (s.rdV c b)) st d s

/-- VFABS (R331, R325). -/
def execVfabs (st : BitVec 3) (a : BitVec 6) (d : BitVec 5) (s : State) : Host.Outcome State Fault Refusal :=
  vecOp 0x41 4 1 [a] true (fun c s => vflt1 (fun a => ⟨a % 2 ^ 31, 0⟩) (s.rdV c a)) st d s

/-- VFNEG (R331, R325). -/
def execVfneg (st : BitVec 3) (a : BitVec 6) (d : BitVec 5) (s : State) : Host.Outcome State Fault Refusal :=
  vecOp 0x41 4 1 [a] true (fun c s => vflt1 (fun a => ⟨(a + 2 ^ 31) % 2 ^ 32, 0⟩) (s.rdV c a)) st d s

/-- VFFMA (R331, R324). -/
def execVffma (st : BitVec 3) (a : BitVec 6) (d : BitVec 5) (b : BitVec 6) (r : BitVec 2) (c : BitVec 6) (s : State) :
    Host.Outcome State Fault Refusal :=
  vecOp 0x42 4 2 [a, b, c] true (fun u s =>
    let x := s.rdV u a
    let y := s.rdV u b
    let z := s.rdV u c
    vflags (fun i => if (x.lane i).ok && (y.lane i).ok && (z.lane i).ok then
      (fFma r.toNat (x.lane i).v.toNat (y.lane i).v.toNat (z.lane i).v.toNat).lane else (il, 0))) st d s

/-- VFDIV (R331). -/
def execVfdiv (st : BitVec 3) (a b : BitVec 6) (d : BitVec 5) (r : BitVec 2) (s : State) :
    Host.Outcome State Fault Refusal :=
  vecVar [a, b] (fun c s => vflt2 (fDiv r.toNat) (s.rdV c a) (s.rdV c b)) st d s

/-- VFSQRT (R331). -/
def execVfsqrt (st : BitVec 3) (a : BitVec 6) (d : BitVec 5) (r : BitVec 2) (s : State) :
    Host.Outcome State Fault Refusal :=
  vecVar [a] (fun c s => vflt1 (fSqrt r.toNat) (s.rdV c a)) st d s

/-! ### Comparison, exponent, reciprocal (R333, R334) -/

/-- The condition of VTEST on one lane, with its flags; none for a reserved code. -/
def vCond (f : Nat) (x y : W32) : Option (Bool × BitVec 5) :=
  if f < 12 then (testCond f x y).map (fun b => (b, 0))
  else if 16 ≤ f ∧ f < 24 then fCond (f - 16) x.toNat y.toNat
  else none

/-- VTEST (R333): the lanes of A where the condition holds. -/
def execVtest (st : BitVec 3) (a b : BitVec 6) (d : BitVec 5) (f : BitVec 5) (s : State) :
    Host.Outcome State Fault Refusal :=
  vecOp 0x43 2 1 [a, b] (f.toNat < 12 || (16 ≤ f.toNat && f.toNat < 24)) (fun c s =>
    let x := s.rdV c a
    let y := s.rdV c b
    vflags (fun i => if (x.lane i).ok && (y.lane i).ok then
      match vCond f.toNat (x.lane i).v (y.lane i).v with
      | some (h, fl) => (if h then x.lane i else il, fl)
      | none => (il, 0)
      else (il, 0))) st d s

/-- VEXP2 (R334, R97). -/
def execVexp2 (st : BitVec 3) (a : BitVec 6) (d : BitVec 5) (s : State) : Host.Outcome State Fault Refusal :=
  vecOp 0x44 6 1 [a] true (fun c s => vflt1 fExp2 (s.rdV c a)) st d s

/-- VRCP (R334, R97). -/
def execVrcp (st : BitVec 3) (a : BitVec 6) (d : BitVec 5) (s : State) : Host.Outcome State Fault Refusal :=
  vecOp 0x44 6 1 [a] true (fun c s => vflt1 fRcp (s.rdV c a)) st d s

/-! ### Reduction and scan (R98, R99, R335, R336) -/

/-- The operation of one combine: 0 .add, 1 .fadd, 2 .max, 3 .min, 4 .imax, 5 .imin, 6 .and, 7 .or, 8 .xor. -/
def redOp (f : Nat) (x y : W32) : FRes :=
  match f with
  | 0 => ⟨(x + y).toNat, 0⟩
  | 1 => fAdd 0 x.toNat y.toNat
  | 2 => fMinMax true x.toNat y.toNat
  | 3 => fMinMax false x.toNat y.toNat
  | 4 => ⟨(if y.sle x then x else y).toNat, 0⟩
  | 5 => ⟨(if x.sle y then x else y).toNat, 0⟩
  | 6 => ⟨(x &&& y).toNat, 0⟩
  | 7 => ⟨(x ||| y).toNat, 0⟩
  | _ => ⟨(x ^^^ y).toNat, 0⟩

/-- combine (R98): an invalid lane is empty. -/
def combine (f : Nat) (x y : Lane) : Lane × BitVec 5 :=
  if !y.ok then (x, 0)
  else if !x.ok then (y, 0)
  else
    let r := redOp f x.v y.v
    (ok32 (BitVec.ofNat 32 r.bits), r.flags)

/-- One step of the reduction tree at a distance. -/
def redStep (f : Nat) (l : List Lane × BitVec 5) (d : Nat) : List Lane × BitVec 5 :=
  let r := List.zipWith (combine f) (l.1.take d) (l.1.drop d)
  (r.map (·.1), r.foldl (fun a e => a ||| e.2) l.2)

/-- VRED's tree (R98). -/
def redTree (f : Nat) (v : VVal) : Lane × BitVec 5 :=
  let r := [8, 4, 2, 1].foldl (redStep f) (v.toList, 0)
  (r.1.headD il, r.2)

/-- The scalar of a reduction (R335). -/
def redScalar (f : Nat) (x : Lane) : SVal :=
  if !x.ok then iz
  else if f = 0 ∨ f = 4 ∨ f = 5 then valid (x.v.signExtend 64)
  else valid (x.v.setWidth 64)

/-- VRED (R335). -/
def execVred (st : BitVec 3) (a : BitVec 6) (d : BitVec 5) (f : BitVec 5) (s : State) :
    Host.Outcome State Fault Refusal :=
  vecToS 0x45 5 [a] (f.toNat < 9) (fun c s =>
    let r := redTree f.toNat (s.rdV c a)
    (redScalar f.toNat r.1, r.2)) st d s

/-- One step of the scan tree at a distance. -/
def scanStep (f : Nat) (l : List Lane × BitVec 5) (d : Nat) : List Lane × BitVec 5 :=
  let r := List.zipWith (combine f) l.1 (l.1.drop d)
  (l.1.take d ++ r.map (·.1), r.foldl (fun a e => a ||| e.2) l.2)

/-- VSCAN's tree (R99): lanes that were invalid become invalid zero again. -/
def scanTree (f : Nat) (v : VVal) : VVal × BitVec 5 :=
  let r := [1, 2, 4, 8].foldl (scanStep f) (v.toList, 0)
  (vecMk (fun i => if (v.lane i).ok then r.1.getD i il else il), r.2)

/-- VSCAN (R336). -/
def execVscan (st : BitVec 3) (a : BitVec 6) (d : BitVec 5) (f : BitVec 5) (s : State) :
    Host.Outcome State Fault Refusal :=
  vecOp 0x46 6 1 [a] (f.toNat < 6) (fun c s => scanTree f.toNat (s.rdV c a)) st d s

/-! ### Permutes, lanes, validity, packing (R337-R343) -/

/-- VPERM (R337). -/
def execVperm (st : BitVec 3) (a b : BitVec 6) (d : BitVec 5) (s : State) : Host.Outcome State Fault Refusal :=
  vecOp 0x47 3 1 [a, b] true (fun c s =>
    let x := s.rdV c a
    let y := s.rdV c b
    (vecMk (fun i =>
      let j := (y.lane i).v.toNat
      if !(y.lane i).ok || 15 < j || !(x.lane j).ok then il else x.lane j), 0)) st d s

/-- VIDX (R338). -/
def execVidx (st : BitVec 3) (d : BitVec 5) (s : State) : Host.Outcome State Fault Refusal :=
  vecOp 0x4c 2 1 [] true (fun _ _ => (vecMk (fun i => ok32 (BitVec.ofNat 32 i)), 0)) st d s

/-- VCNT (R340): the number of valid lanes, valid. -/
def execVcnt (st : BitVec 3) (a : BitVec 6) (d : BitVec 5) (s : State) : Host.Outcome State Fault Refusal :=
  vecToS 0x48 2 [a] true (fun c s =>
    (valid (BitVec.ofNat 64 ((s.rdV c a).toList.countP (·.ok))), 0)) st d s

/-- VFILL (R341). -/
def execVfill (st : BitVec 3) (a b : BitVec 6) (d : BitVec 5) (s : State) : Host.Outcome State Fault Refusal :=
  vecOp 0x49 2 1 [a, b] true (fun c s =>
    (vzip (fun x y => if x.ok then x else y) (s.rdV c a) (s.rdV c b), 0)) st d s

/-- VKEEP (R341). -/
def execVkeep (st : BitVec 3) (a b : BitVec 6) (d : BitVec 5) (s : State) : Host.Outcome State Fault Refusal :=
  vecOp 0x49 2 1 [a, b] true (fun c s =>
    (vzip (fun x y => if x.ok && y.ok then x else il) (s.rdV c a) (s.rdV c b), 0)) st d s

/-- VVALID (R341). -/
def execVvalid (st : BitVec 3) (a : BitVec 6) (d : BitVec 5) (s : State) : Host.Outcome State Fault Refusal :=
  vecOp 0x49 2 1 [a] true (fun c s => (vmap (fun x => ok32 (if x.ok then 1 else 0)) (s.rdV c a), 0)) st d s

/-- VKILL (R341). -/
def execVkill (st : BitVec 3) (a : BitVec 6) (d : BitVec 5) (s : State) : Host.Outcome State Fault Refusal :=
  vecOp 0x49 2 1 [a] true (fun _ _ => (vz, 0)) st d s

/-- VCVT (R342). -/
def execVcvt (st : BitVec 3) (a : BitVec 6) (x y : BitVec 3) (d : BitVec 5) (r : BitVec 2) (s : State) :
    Host.Outcome State Fault Refusal :=
  vecOp 0x4a 4 1 [a] (cvtLegal x y && x.toNat != 6 && y.toNat != 6) (fun c s =>
    let v := s.rdV c a
    vflags (fun i => if (v.lane i).ok then
      let t := convert x.toNat y.toNat r.toNat ((v.lane i).v.setWidth 64)
      (ok32 (t.1.setWidth 32), t.2)
      else (il, 0))) st d s

/-- Bits [16j+15:16j] of a lane. -/
def half16 (x : Lane) (j : Nat) : Nat := x.v.toNat / 2 ^ (16 * j) % 2 ^ 16

/-- Bits [8j+7:8j] of a lane. -/
def byte8 (x : Lane) (j : Nat) : Nat := x.v.toNat / 2 ^ (8 * j) % 2 ^ 8

/-- VPACK.16 (R343): elements 2i and 2i + 1 in lane i. -/
def pack16 (a b : VVal) : VVal := vecMk (fun i =>
  let src := if i < 8 then a else b
  let x := src.lane (2 * i % 16)
  let y := src.lane (2 * i % 16 + 1)
  if x.ok && y.ok then ok32 (BitVec.ofNat 32 (half16 x 0 + half16 y 0 * 2 ^ 16)) else il)

/-- VPACK.8 (R343): elements 4i to 4i + 3 in lane i; element e is the low byte of element e mod 32 of a 16-bit form. -/
def pack8 (a b : VVal) : VVal := vecMk (fun i =>
  let src := if i < 8 then a else b
  let x := src.lane (2 * i % 16)
  let y := src.lane (2 * i % 16 + 1)
  if x.ok && y.ok then
    ok32 (BitVec.ofNat 32 (half16 x 0 % 256 + half16 x 1 % 256 * 2 ^ 8 + half16 y 0 % 256 * 2 ^ 16 +
      half16 y 1 % 256 * 2 ^ 24))
  else il)

/-- VUNPK.16 (R343). -/
def unpk16 (a : VVal) (h : Lane) : VVal := vecMk (fun i =>
  let e := 16 * (h.v.toNat % 2) + i
  let x := a.lane (e / 2)
  if x.ok && h.ok then ok32 (BitVec.ofNat 32 (half16 x (e % 2))) else il)

/-- VUNPK.8 (R343). -/
def unpk8 (a : VVal) (h : Lane) : VVal := vecMk (fun i =>
  let e := 32 * (h.v.toNat % 2) + 2 * i
  let x := a.lane (e / 4)
  if x.ok && h.ok then ok32 (BitVec.ofNat 32 (byte8 x (e % 4) + byte8 x (e % 4 + 1) * 2 ^ 16)) else il)

/-- VPACK.16 (R343). -/
def execVpack16 (st : BitVec 3) (a b : BitVec 6) (d : BitVec 5) (s : State) : Host.Outcome State Fault Refusal :=
  vecOp 0x4b 2 1 [a, b] true (fun c s => (pack16 (s.rdV c a) (s.rdV c b), 0)) st d s

/-- VPACK.8 (R343). -/
def execVpack8 (st : BitVec 3) (a b : BitVec 6) (d : BitVec 5) (s : State) : Host.Outcome State Fault Refusal :=
  vecOp 0x4b 2 1 [a, b] true (fun c s => (pack8 (s.rdV c a) (s.rdV c b), 0)) st d s

/-- VUNPK.16 (R343). -/
def execVunpk16 (st : BitVec 3) (a b : BitVec 6) (d : BitVec 5) (s : State) : Host.Outcome State Fault Refusal :=
  vecOp 0x4b 2 1 [a, b] true (fun c s => (unpk16 (s.rdV c a) ((s.rdV c b).lane 0), 0)) st d s

/-- VUNPK.8 (R343). -/
def execVunpk8 (st : BitVec 3) (a b : BitVec 6) (d : BitVec 5) (s : State) : Host.Outcome State Fault Refusal :=
  vecOp 0x4b 2 1 [a, b] true (fun c s => (unpk8 (s.rdV c a) ((s.rdV c b).lane 0), 0)) st d s

/-- VEXT (R339): lane b[3:0], zero-extended. -/
def execVext (st : BitVec 3) (a b : BitVec 6) (d : BitVec 5) (s : State) : Host.Outcome State Fault Refusal :=
  issue { opc := 0x4c, st := st, legal := fun k => vLegal a && sLegal k b && dLegal k d, srcs := [.v a, .s b],
          need := [.s b] } (suppS d 2)
    (fun c s =>
      let x := (s.rdV c a).lane ((s.rdS c b).v.toNat % 16)
      .done (s.modCore c (·.outS d 2 (if x.ok then valid (x.v.setWidth 64) else iz)))) s

/-- VINS (R339): lane b[35:32] takes b[31:0]; an invalid b makes every lane invalid. -/
def execVins (st : BitVec 3) (a b : BitVec 6) (d : BitVec 5) (s : State) : Host.Outcome State Fault Refusal :=
  issue { opc := 0x4c, st := st, legal := fun k => vLegal a && sLegal k b && dvLegal d, srcs := [.v a, .s b],
          need := [.s b] } (fun c s => .done (s.modCore c (·.outV d 2 vz)))
    (fun c s =>
      let b := (s.rdS c b).v
      .done (s.modCore c (·.outV d 2 (vset (s.rdV c a) (b.toNat / 2 ^ 32 % 16) (ok32 (b.setWidth 32)))))) s

end Sys2Proof.Machine
end

