-- ==== Sys2Proof/Machine/Memory.lean ====
section
/-! DEFINITION. Memory instructions, atomics and fences (21 R347-R358, 07 R141). -/

namespace Sys2Proof.Machine

/-- The message bank is in use: the instruction stands in a stitch message (R350). -/
def State.inMsg (s : State) : Bool := (s.core s.cur).sel == .msg

/-! ### Global loads and stores (R347, R351-R354) -/

/-- The request of a scalar load. -/
def loadReq (w : BitVec 3) (d : BitVec 5) (acq : Option Nat) (lda : Bool) : LoadReq :=
  match lsize w with
  | some (n, sx) => ⟨n, n, .scalar n sx, d, acq, lda⟩
  | none => ⟨1, 1, .scalar 1 false, d, acq, lda⟩

/-- LD (R347). -/
def execLd (st : BitVec 3) (b : BitVec 6) (c : BitVec 1) (p : BitVec 3) (d : BitVec 5) (w : BitVec 3) (s : State) :
    Host.Outcome State Fault Refusal :=
  issue { opc := 0x38, st := st,
          legal := fun k => gBase b && dLegal k d && (lsize w).isSome && ordLegal c p,
          srcs := [.s b], need := [.s b] } (suppVar .s d)
    (fun u s => s.loadGlobal u (loadReq w d (ordOf c p) false) [(s.rdS u b).v]) s

/-- ST (R347). -/
def execSt (st : BitVec 3) (b x : BitVec 6) (r : BitVec 1) (p w : BitVec 3) (s : State) :
    Host.Outcome State Fault Refusal :=
  issue { opc := 0x39, st := st,
          legal := fun k => gBase b && sLegal k x && (ssize w).isSome && ordLegal r p,
          srcs := [.s b, .s x], need := [.s b, .s x] } suppNone
    (fun u s =>
      let n := (ssize w).getD 1
      s.storeGlobal u (s.rdS u b).v n n n (scalarBytes n (s.rdS u x).v) (ordOf r p)) s

/-- LDA (R353): it never traps, and sets a watch. -/
def execLda (st : BitVec 3) (b : BitVec 6) (c : BitVec 1) (p : BitVec 3) (d : BitVec 5) (w : BitVec 3) (s : State) :
    Host.Outcome State Fault Refusal :=
  issue { opc := 0x3c, st := st,
          legal := fun _ => gBase b && 1 ≤ d.toNat && d.toNat ≤ 16 && (lsize w).isSome && ordLegal c p,
          srcs := [.s b], need := [.s b] } (suppVar .s d)
    (fun u s => s.loadGlobal u (loadReq w d (ordOf c p) true) [(s.rdS u b).v]) s

/-- An acquire that issued after a watch's LDA has not had its effect yet: it will break the watch (R353). -/
def Core.acqAfter (x : Core) (w : Watch) : Bool := x.flights.any (fun f => x.mine f && f.acq.isSome && decide (w.fid < f.id))

/-- CHKA after suppression (R354): the watched value, which it awaits where the LDA does not have it yet, or the load again. It
reads after every acquire that follows the LDA (R353): while one is pending the load is made again, behind it. -/
def chkaBody (b : BitVec 6) (d : BitVec 5) (q : LoadReq) (c : CoreRef) (s : State) : Act :=
  let va := (s.rdS c b).v
  match (s.core c).watches.find? (fun w => w.d == d.toNat && w.a == va && w.n == q.n && !(s.core c).acqAfter w) with
  | some w =>
    let s := s.modCore c (fun x => { x with watches := x.watches.filter (fun o => o.d != w.d) })
    match w.val with
    | some v => .eff (s.known c d (.s v) none)
    | none => .eff (s.await c d q.sh (.chka w.fid) none)
  | none => s.loadGlobal c q [va]

/-- CHKA (R354). -/
def execChka (st : BitVec 3) (b : BitVec 6) (c : BitVec 1) (p : BitVec 3) (d : BitVec 5) (w : BitVec 3) (s : State) :
    Host.Outcome State Fault Refusal :=
  issue { opc := 0x3d, st := st,
          legal := fun _ => gBase b && 1 ≤ d.toNat && d.toNat ≤ 16 && (lsize w).isSome && ordLegal c p,
          srcs := [.s b], need := [.s b] } (suppVar .s d)
    (chkaBody b d (loadReq w d (ordOf c p) false)) s

/-- The request of a vector load. -/
def vloadReq (w : BitVec 3) (d : BitVec 5) (acq : Option Nat) : LoadReq :=
  match vsize w with
  | some (e, sx) => ⟨16 * e, 16 * e, .vector e sx, d, acq, false⟩
  | none => ⟨16, 16, .vector 1 false, d, acq, false⟩

/-- VLD (R351). -/
def execVld (st : BitVec 3) (b : BitVec 6) (c : BitVec 1) (p : BitVec 3) (d : BitVec 5) (w : BitVec 3) (s : State) :
    Host.Outcome State Fault Refusal :=
  issue { opc := 0x50, st := st, legal := fun _ => gBase b && dvLegal d && (vsize w).isSome && ordLegal c p,
          srcs := [.s b], need := [.s b] } (suppVar .v d)
    (fun u s => s.loadGlobal u (vloadReq w d (ordOf c p)) [(s.rdS u b).v]) s

/-- VST (R351): only the valid lanes are written; with none, nothing happens. -/
def execVst (st : BitVec 3) (b x : BitVec 6) (r : BitVec 1) (p w : BitVec 3) (s : State) :
    Host.Outcome State Fault Refusal :=
  issue { opc := 0x51, st := st, legal := fun _ => gBase b && vLegal x && (vssize w).isSome && ordLegal r p,
          srcs := [.s b, .v x], need := [.s b] } suppNone
    (fun u s =>
      let e := (vssize w).getD 1
      let v := s.rdV u x
      if anyLane v then s.storeGlobal u (s.rdS u b).v (16 * e) (16 * e) e (laneBytes e v) (ordOf r p) else .done s) s

/-- VLDS (R352): lane i from a + i x s modulo 2^64. -/
def execVlds (st : BitVec 3) (b x : BitVec 6) (d : BitVec 5) (w : BitVec 3) (s : State) :
    Host.Outcome State Fault Refusal :=
  issue { opc := 0x54, st := st, legal := fun k => gBase b && sLegal k x && dvLegal d && (vsize w).isSome,
          srcs := [.s b, .s x], need := [.s b, .s x] } (suppVar .v d)
    (fun u s =>
      let z := (vsize w).getD (1, false)
      let a := (s.rdS u b).v
      let t := (s.rdS u x).v
      s.loadGlobal u ⟨z.1, z.1, .vector z.1 z.2, d, none, false⟩
        ((rangeFrom 0 16).map (fun i => a + BitVec.ofNat 64 i * t))) s

/-! ### Pointer loads and stores (R348-R351) -/

/-- The base of a pointer access: a pointer, or a queue code in a stitch message, where Q must be 0 (R350). -/
def ptrBase (msg : Bool) (b : BitVec 6) (q : BitVec 2) : Bool :=
  if msg then b.toNat ≤ 15 && q == 0 else pBase b && q.toNat ≤ 2

/-- LDL and its consuming forms. -/
def ldlOp (fe : Nat) (st : BitVec 3) (b : BitVec 6) (c : BitVec 1) (p : BitVec 3) (d : BitVec 5) (w : BitVec 3)
    (q : BitVec 2) (s : State) : Host.Outcome State Fault Refusal :=
  issue { opc := 0x3a, st := st,
          legal := fun k => ptrBase s.inMsg b q && dLegal k d && (lsize w).isSome && ordLegal c p,
          srcs := [.s b], need := [.s b], msg := true, dst := d } (suppVar .s d)
    (fun u s =>
      let z := (lsize w).getD (1, false)
      ptrLoad b q z.1 fe (.scalar z.1 z.2) d (ordOf c p) u s) s

/-- LDL (R348). -/
def execLdl (st : BitVec 3) (b : BitVec 6) (c : BitVec 1) (p : BitVec 3) (d : BitVec 5) (w : BitVec 3) (q : BitVec 2)
    (s : State) : Host.Outcome State Fault Refusal := ldlOp 0 st b c p d w q s

/-- LDFE (R348, R113). -/
def execLdfe (st : BitVec 3) (b : BitVec 6) (c : BitVec 1) (p : BitVec 3) (d : BitVec 5) (w : BitVec 3) (q : BitVec 2)
    (s : State) : Host.Outcome State Fault Refusal := ldlOp 1 st b c p d w q s

/-- LDFE.fec (R348, R113). -/
def execLdfeFec (st : BitVec 3) (b : BitVec 6) (c : BitVec 1) (p : BitVec 3) (d : BitVec 5) (w : BitVec 3)
    (q : BitVec 2) (s : State) : Host.Outcome State Fault Refusal := ldlOp 2 st b c p d w q s

/-- STL (R348). -/
def execStl (st : BitVec 3) (b x : BitVec 6) (r : BitVec 1) (p : BitVec 3) (e : BitVec 1) (w : BitVec 3) (q : BitVec 2)
    (s : State) : Host.Outcome State Fault Refusal :=
  issue { opc := 0x3b, st := st,
          legal := fun k => ptrBase s.inMsg b q && sLegal k x && (ssize w).isSome && ordLegal r p,
          srcs := [.s b, .s x], need := [.s b], msg := true } suppNone
    (fun u s =>
      let n := (ssize w).getD 1
      ptrStore b q n n (e == 1) (ordOf r p)
        (fun u s => if (s.rdS u x).ok then some (scalarBytes n (s.rdS u x).v) else none) u s) s

/-- VLDL (R351): e is 0 plain, 1 .fe, 2 .fec. -/
def execVldl (st : BitVec 3) (b : BitVec 6) (c : BitVec 1) (p : BitVec 3) (e : BitVec 2) (d : BitVec 5) (w : BitVec 3)
    (q : BitVec 2) (s : State) : Host.Outcome State Fault Refusal :=
  issue { opc := 0x52, st := st,
          legal := fun _ => pBase b && q.toNat ≤ 2 && dvLegal d && (vsize w).isSome && ordLegal c p && e.toNat ≤ 2,
          srcs := [.s b], need := [.s b] } (suppVar .v d)
    (fun u s =>
      let z := (vsize w).getD (1, false)
      ptrLoad b q (16 * z.1) e.toNat (.vector z.1 z.2) d (ordOf c p) u s) s

/-- VSTL (R351). -/
def execVstl (st : BitVec 3) (b x : BitVec 6) (r : BitVec 1) (p : BitVec 3) (e : BitVec 1) (w : BitVec 3)
    (q : BitVec 2) (s : State) : Host.Outcome State Fault Refusal :=
  issue { opc := 0x53, st := st,
          legal := fun _ => pBase b && q.toNat ≤ 2 && vLegal x && (vssize w).isSome && ordLegal r p,
          srcs := [.s b, .v x], need := [.s b] } suppNone
    (fun u s =>
      let n := (vssize w).getD 1
      ptrStore b q (16 * n) n (e == 1) (ordOf r p)
        (fun u s => if anyLane (s.rdV u x) then some (laneBytes n (s.rdV u x)) else none) u s) s

/-! ### Atomics (R356-R358) -/

/-- The size of an atomic. -/
def asize (w : BitVec 1) : Nat := if w = 1 then 8 else 4

/-- AMO (R357). -/
def execAmo (st : BitVec 3) (a : BitVec 6) (d op : BitVec 5) (p : BitVec 3) (o : BitVec 2) (w : BitVec 1)
    (x : BitVec 6) (s : State) : Host.Outcome State Fault Refusal :=
  issue { opc := 0x3e, st := st, n := 2,
          legal := fun k => gBase a && sLegal k x && dLegal k d && atomLegal op.toNat (asize w) false && amoOrd o p,
          srcs := [.s a, .s x], need := [.s a, .s x] } (suppVar .s d)
    (globalAtomic a d op.toNat (asize w) p o (fun u s => (s.rdS u x).v) (fun _ _ => 0)) s

/-- AMOCAS (R357). -/
def execAmocas (st : BitVec 3) (a : BitVec 6) (d : BitVec 5) (p : BitVec 3) (o : BitVec 2) (w : BitVec 1)
    (x y : BitVec 6) (s : State) : Host.Outcome State Fault Refusal :=
  issue { opc := 0x3e, st := st, n := 2,
          legal := fun k => gBase a && sLegal k x && sLegal k y && dLegal k d && amoOrd o p,
          srcs := [.s a, .s x, .s y], need := [.s a, .s x, .s y] } (suppVar .s d)
    (globalAtomic a d 9 (asize w) p o (fun u s => (s.rdS u x).v) (fun u s => (s.rdS u y).v)) s

/-- The address of AMOL: a pointer, or a queue code in a stitch message (R358). -/
def amolBase (msg : Bool) (a : BitVec 6) : Bool := if msg then a.toNat ≤ 15 else pBase a

/-- AMOL (R358): operation 9 compares with y; otherwise the compare field is 0. -/
def execAmol (st : BitVec 3) (a : BitVec 6) (d op : BitVec 5) (p : BitVec 3) (o : BitVec 2) (w : BitVec 1)
    (x y : BitVec 6) (s : State) : Host.Outcome State Fault Refusal :=
  let cas := op.toNat == 9
  let srcs := if cas then [Src.s a, .s x, .s y] else [.s a, .s x]
  issue { opc := 0x3e, aux := true, st := st, n := 2,
          legal := fun k => amolBase s.inMsg a && sLegal k x && dLegal k d && amoOrd o p &&
            (if cas then sLegal k y else y == 0 && atomLegal op.toNat (asize w) true),
          srcs := srcs, need := srcs, msg := true, dst := d } (suppVar .s d)
    (localAtomic a d op.toNat (asize w) p o (fun u s => (s.rdS u x).v) (fun u s => (s.rdS u y).v)) s

/-! ### FENCE and PREF (07 R141, 21 R355) -/

/-- An acquire of the core other than a BWAIT still to come, which holds its readers and the later accesses alone (12 R209). -/
def Core.acqRead (x : Core) : Bool := x.flights.any (fun f => x.mine f && f.acq.isSome && f.kind != .bwait)

/-- FENCE after its encoding checks: the release half waits, a full fence takes its place in fence order, the acquire
half follows every earlier read and invalidates. -/
def fenceBody (p : BitVec 3) (k : BitVec 2) (c : CoreRef) (s : State) : Act :=
  if k.getLsbD 1 ∧ !s.relReady c p.toNat then (if (s.core c).openAcc then .pend s else .wait s)
  else if k.getLsbD 0 ∧ ((s.core c).openAcc || (s.core c).acqRead) then .pend s
  else
    let s := if k = 3 then { s with fences := s.fences + 1 } else s
    .eff (if k.getLsbD 0 then s.acquire c p.toNat else s)

/-- FENCE (R141). -/
def execFence (st : BitVec 3) (p : BitVec 3) (k : BitVec 2) (s : State) : Host.Outcome State Fault Refusal :=
  issue { opc := 0x3f, st := st, legal := fun _ => k != 0 && p.toNat ≤ 5, srcs := [], need := [] } suppNone
    (fenceBody p k) s

/-- PREF after suppression (R355): a fault, a wait or a missing U drops it. -/
def prefBody (a : BitVec 6) (c : CoreRef) (s : State) : Act :=
  match kindOf c with
  | .sysm => .done s
  | _ =>
    match s.gcheck (s.agentOf c) ⟨false, false, false, !(s.core c).sysMode⟩ 1 1 (s.rdS c a).v with
    | (s, .ok pas z) =>
      let pa := pas.headD 0
      match mfind (s.tile (tileOf c)).l1 (pa / 64) with
      | some _ => .done s
      | none => if s.memShut (s.coreRouter c) [pa] then .done s else .done ((s.zpTouch z [pa]).l1Fill (tileOf c) (pa / 64))
    | (s, _) => .done s

/-- PREF (R355). -/
def execPref (st : BitVec 3) (a : BitVec 6) (s : State) : Host.Outcome State Fault Refusal :=
  issue { opc := 0x3f, st := st, legal := fun _ => gBase a, srcs := [.s a], need := [.s a] } suppNone (prefBody a) s

end Sys2Proof.Machine
end

