-- ==== Sys2Proof/Machine/Yarn.lean ====
section
/-! DEFINITION. Yarns: the generator, digits, comparison, stochastic rounding (14 R223-R234), and the yarn instructions
(22 R379-R383). -/

namespace Sys2Proof.Machine

/-! ### ZF-128 (R224) -/

/-- The four state words. -/
structure Zf where
  x0 : W32
  x1 : W32
  x2 : W32
  x3 : W32

/-- Key word i of a 256-bit key. -/
def keyWord (k : BitVec 256) (i : Nat) : W32 := k.extractLsb' (32 * (i % 8)) 32

/-- Round r. -/
def Zf.round (k : BitVec 256) (r : Nat) (z : Zf) : Zf :=
  let x0 := z.x0 + keyWord k r
  let x1 := z.x1 + keyWord k (r + 1)
  let x2 := z.x2 + keyWord k (r + 2)
  let x3 := z.x3 + keyWord k (r + 3)
  let x0 := x0 + x1
  let x3 := (x3 ^^^ x0).rotateLeft 16
  let x2 := x2 + x3
  let x1 := (x1 ^^^ x2).rotateLeft 12
  let x0 := x0 + x1
  let x3 := (x3 ^^^ x0).rotateLeft 8
  let x2 := x2 + x3
  let x1 := (x1 ^^^ x2).rotateLeft 7
  ⟨x0 ^^^ BitVec.ofNat 32 r, x1, x2, x3⟩

/-- Rounds from r on, n of them. -/
def Zf.rounds (k : BitVec 256) (r : Nat) : Nat → Zf → Zf
  | 0, z => z
  | n + 1, z => Zf.rounds k (r + 1) n (z.round k r)

/-- zf128(K, dom, sel, pos, j) (R224). -/
def zf128 (k : BitVec 256) (dom sel pos j : Nat) : BitVec 128 :=
  let i : Zf := ⟨BitVec.ofNat 32 pos, BitVec.ofNat 32 (sel * 2 ^ 16 + pos / 2 ^ 32 % 256 * 2 ^ 8 + dom),
    BitVec.ofNat 32 j, 0x9e3779b9⟩
  let z := Zf.rounds k 0 12 i
  (z.x0 + i.x0) ++ (z.x1 + i.x1) ++ (z.x2 + i.x2) ++ (z.x3 + i.x3)

/-! ### Fields and digits (R223, R225) -/

def YVal.sel (y : YVal) : Nat := y.v.toNat / 2 ^ 112
def YVal.pos (y : YVal) : Nat := y.v.toNat / 2 ^ 72 % 2 ^ 40
def YVal.n (y : YVal) : Nat := y.v.toNat / 2 ^ 64 % 2 ^ 8
def YVal.bits (y : YVal) : Nat := y.v.toNat % 2 ^ 64

/-- A yarn of its fields. -/
def mkYarn (sel pos n bits : Nat) : YVal :=
  ⟨BitVec.ofNat 128 (sel % 2 ^ 16 * 2 ^ 112 + pos % 2 ^ 40 * 2 ^ 72 + n % 2 ^ 8 * 2 ^ 64 + bits % 2 ^ 64), true⟩

/-- A digit block as an operation gets it: the block, none (table stream with cr.ytable 0; log 34), or a block of the table
stream that is still to be read. -/
inductive YBlk where
  | ok (b : Nat)
  | none
  | need (pos j : Nat)
deriving Repr

/-- Digit block j of a yarn of a core's context; `got`: the blocks of the table stream that the operation has read. -/
def State.digitBlock (s : State) (c : CoreRef) (got : List YGot) (sel pos j : Nat) : YBlk :=
  if sel = 0xffff then
    match got.find? (fun g => g.pos == pos && g.j == j) with
    | some g => .ok g.d
    | Option.none => if (s.tile (tileOf c)).ytab = 0 then .none else .need pos j
  else .ok (zf128 (s.ctxOfTile (tileOf c)).key 0x59 sel pos j).toNat

/-- The address of a block of the table stream (R225). -/
def State.blockVa (s : State) (c : CoreRef) (pos j : Nat) : W64 :=
  (s.tile (tileOf c)).ytab + BitVec.ofNat 64 (32 * pos + 16 * j)

/-- The digits of the bytes of a block: byte 0 holds digits 1 to 8, most significant first. -/
def digitsOf (l : List Byte) : Nat := l.foldl (fun a b => a * 256 + b.toNat) 0

/-- The digits of a block whose bytes are all known. -/
def blockKnown (l : List LByte) : Option Nat :=
  if l.all (fun b => b.v.isSome) then some (digitsOf (l.map (fun b => b.v.getD 0))) else Option.none

/-- The first m digits of a yarn as a number, m at most 64, from its known prefix and block 0. -/
def YVal.head (y : YVal) (b0 m : Nat) : Nat :=
  if m ≤ y.n then y.bits / 2 ^ (64 - m)
  else y.bits / 2 ^ (64 - y.n) * 2 ^ (m - y.n) + b0 / 2 ^ (128 - m) % 2 ^ (m - y.n)

/-- The outcome of looking at more digits: an answer, an invalid one, or a block of the table stream to read first. -/
inductive YAns where
  | lt (b : Bool)
  | tie
  | none
  | need (pos j : Nat)
deriving Repr

/-- What a block that is not there does to an operation. -/
def YBlk.stop : YBlk → YAns
  | .ok _ => .tie
  | .none => .none
  | .need pos j => .need pos j

/-- U(y) < T / 2^L for 0 < T < 2^L (R229): the prefix first, then block 0, then block 1. -/
def State.yLess (s : State) (c : CoreRef) (got : List YGot) (y : YVal) (t l : Nat) : YAns :=
  let m := min y.n l
  let a := y.head 0 m
  let u := t / 2 ^ (l - m)
  if a ≠ u then .lt (decide (a < u))
  else if m = l then .lt false
  else
    match s.digitBlock c got y.sel y.pos 0 with
    | .ok b0 =>
      let m := min 128 l
      let a := y.head b0 m
      let u := t / 2 ^ (l - m)
      if a ≠ u then .lt (decide (a < u))
      else if m = l then .lt false
      else
        match s.digitBlock c got y.sel y.pos 1 with
        | .ok b1 => .lt (decide (a * 2 ^ (l - 128) + b1 / 2 ^ (256 - l) < t))
        | r => r.stop
    | r => r.stop

/-- U(b) against U(a) for yarns of different coordinates (R231): the common prefix, the longer prefix, block 0, then
block 1; a tie after 256 digits. -/
def State.yLessY (s : State) (c : CoreRef) (got : List YGot) (a b : YVal) : YAns :=
  let cmp (x y : Nat) : Option Bool := if x = y then Option.none else some (decide (y < x))
  let m0 := min a.n b.n
  let m1 := max a.n b.n
  match cmp (a.head 0 m0) (b.head 0 m0) with
  | some r => .lt r
  | Option.none =>
    let short := if a.n ≤ b.n then a else b
    match s.digitBlock c got short.sel short.pos 0 with
    | .ok bs =>
      let hs (y : YVal) (m : Nat) : Nat := if y.n ≤ m0 then y.head bs m else y.head 0 m
      match (if a.n = b.n then Option.none else cmp (hs a m1) (hs b m1)) with
      | some r => .lt r
      | Option.none =>
        let long := if a.n ≤ b.n then b else a
        match s.digitBlock c got long.sel long.pos 0 with
        | .ok bl =>
          let va := if a.n ≤ b.n then a.head bs 128 else a.head bl 128
          let vb := if a.n ≤ b.n then b.head bl 128 else b.head bs 128
          match cmp va vb with
          | some r => .lt r
          | Option.none =>
            match s.digitBlock c got a.sel a.pos 1 with
            | .ok xa =>
              match s.digitBlock c got b.sel b.pos 1 with
              | .ok xb =>
                match cmp xa xb with
                | some r => .lt r
                | Option.none => .tie
              | r => r.stop
            | r => r.stop
        | r => r.stop
    | r => r.stop

/-! ### Operations that look at digits (R227, R229, R231, R232) -/

/-- The outcome of an operation: its result, whether cr.ystat's UND is set, or a block to read first. -/
inductive YRes where
  | ok (v : RVal) (und : Bool)
  | need (pos j : Nat)
deriving Repr

/-- A comparison that has an answer delivers its value or an invalid zero. -/
def yPick (ge lt : Bool) (v : SVal) : RVal := .s (if lt != ge then v else iz)

/-- An operation with the blocks it has read. A tie of YCMPY is decided by SEL and POS, and sets UND (R231). -/
def State.yEval (s : State) (c : CoreRef) (got : List YGot) (op : YOp) : YRes :=
  match op with
  | .draw sel pos =>
    (match s.digitBlock c got sel pos 0 with
      | .ok b0 => .ok (.y (mkYarn sel pos 32 (b0 / 2 ^ 96 * 2 ^ 32))) false
      | .none => .ok (.y yz) false
      | .need p j => .need p j)
  | .ext y n =>
    if n = y.n then .ok (.y y) false
    else (match s.digitBlock c got y.sel y.pos 0 with
      | .ok b0 => .ok (.y (mkYarn y.sel y.pos n (y.head b0 n * 2 ^ (64 - n)))) false
      | .none => .ok (.y yz) false
      | .need p j => .need p j)
  | .cmp ge v y x l =>
    (match s.yLess c got y x l with
      | .lt b => .ok (yPick ge b v) false
      | .tie => .ok (yPick ge false v) false
      | .none => .ok (.s iz) false
      | .need p j => .need p j)
  | .cmpy ge x y =>
    if x.sel = y.sel ∧ x.pos = y.pos then .ok (yPick ge false (valid 1)) false
    else (match s.yLessY c got x y with
      | .lt b => .ok (yPick ge b (valid 1)) false
      | .tie => .ok (yPick ge (decide (y.sel < x.sel ∨ (y.sel = x.sel ∧ y.pos < x.pos))) (valid 1)) true
      | .none => .ok (.s iz) false
      | .need p j => .need p j)

/-- How far an operation gets: its result, what its flight waits for, or a fault. -/
inductive YGo where
  | res (v : RVal) (und : Bool)
  | fly (k : FKind)
  | bad (code : Nat) (va : W64)
deriving Repr

/-- An operation goes on; a block of the table stream is read as an ordinary load of the context (R225): where `free`, from the
store buffer and L1 if they hold it; else its home slice is asked; a translation that meets a BUSY entry is awaited. A comparison
needs at most four blocks. -/
def State.yGo (s : State) (c : CoreRef) (free : Bool) (op : YOp) : Nat → List YGot → State × YGo
  | 0, _ => (s, .res (.s iz) false)
  | n + 1, got =>
    match s.yEval c got op with
    | .ok v und => (s, .res v und)
    | .need pos j =>
      let va := s.blockVa c pos j
      match s.gcheck (s.agentOf c) (s.needOf c true false) 16 1 va with
      | (s, .bad code va) => (s, .bad code va)
      | (s, .ok pas z) =>
        let v := s.tile (tileOf c)
        (match (if free then blockKnown (v.snap true pas) else none) with
          | some d => State.yGo s c free op n (⟨pos, j, d⟩ :: got)
          | none => (s, .fly (.table op got va pos j (some (v.ask free pas, z)))))
      | (s, _) => (s, .fly (.table op got va pos j none))

/-- The class of an operation's result, and whether it is a comparison, which can raise a flag (04 R101). -/
def YOp.shape : YOp → Shape
  | .draw _ _ => .yarn
  | .ext _ _ => .yarn
  | _ => .scalar 8 false

def YOp.compares : YOp → Bool
  | .draw _ _ => false
  | .ext _ _ => false
  | _ => true

/-- An operation issues: it has variable latency (03 R57), whatever its digits wait for. -/
def yStart (op : YOp) (d : BitVec 5) (c : CoreRef) (s : State) : Act :=
  let free := !(s.core c).acqPending && !(s.core c).flights.any Flight.isOpenLoad
  match s.yGo c free op 5 [] with
  | (s, .res v und) =>
    let s := if und then s.modCore c (fun u => { u with r := { u.r with yund := true } }) else s
    .eff (s.modCore c (fun x => x.launch op.shape.cls d { Flight.base with res := some v, flagger := op.compares }))
  | (s, .fly k) =>
    let s' := s.modCore c (fun x => x.launch op.shape.cls d
      { Flight.base with shape := op.shape, kind := k, flagger := op.compares })
    .eff (match k with
      | .table _ _ va _ _ (some _) => s'.markVa c [va]
      | .table _ _ va _ _ none => if s.isBusy c va then s'.markBusy c else s'
      | _ => s')
  | (s, .bad code va) => .trap code va s

/-! ### Instructions -/

/-- YDRAW (R380, R227). -/
def execYdraw (st : BitVec 3) (a b : BitVec 6) (d : BitVec 5) (s : State) : Host.Outcome State Fault Refusal :=
  issue { opc := 0x60, st := st, legal := fun k => sLegal k a && sLegal k b && dvLegal d, srcs := [.s a, .s b],
          need := [.s a, .s b] } (suppVar .y d)
    (fun c s => yStart (.draw ((s.rdS c a).v.toNat % 2 ^ 16) ((s.rdS c b).v.toNat % 2 ^ 40)) d c s) s

/-- The kinds of a threshold (R229): a decided answer, or digits T of length L. -/
inductive Thresh where
  | nan
  | never
  | always
  | digits (t l : Nat)
deriving DecidableEq, Repr

/-- A fraction without trailing zero digits. -/
def stripDigits (t l : Nat) : Thresh :=
  let z := ctzN t 0 l
  .digits (t / 2 ^ z) (l - z)

/-- The threshold of YCMP: 0 FP32, 1 FP16, 2 BF16, 3 fix64. -/
def thresh (kind : Nat) (v : W64) : Thresh :=
  if kind = 3 then (if v = 0 then .never else stripDigits v.toNat 64)
  else
    let f := match kind with
      | 0 => Fmt.fp32
      | 1 => Fmt.fp16
      | _ => Fmt.bf16
    match f.val (v.toNat % 2 ^ (f.signPos + 1)) with
    | .nan _ => .nan
    | .inf n => if n then .never else .always
    | .fin n m e =>
      if n ∨ m = 0 then .never
      else if 0 ≤ (m.log2 : Int) + e then .always
      else stripDigits m (-e).toNat

/-- YCMP after suppression (R229). -/
def ycmpBody (kind : Nat) (ge : Bool) (a b : BitVec 6) (d : BitVec 5) (c : CoreRef) (s : State) : Act :=
  let t := s.rdS c a
  let out (lt : Bool) (s : State) : State := s.knownFlag c d (if lt != ge then t else iz)
  match thresh kind t.v with
  | .nan => .eff ((s.modCore c (·.raise fIV)).knownFlag c d iz)
  | .never => .eff (out false s)
  | .always => .eff (out true s)
  | .digits x l => yStart (.cmp ge t (s.rdY c b) x l) d c s

/-- YCMP (R381). -/
def execYcmp (st : BitVec 3) (a b : BitVec 6) (d : BitVec 5) (c : BitVec 2) (k : BitVec 2) (s : State) :
    Host.Outcome State Fault Refusal :=
  issue { opc := 0x61, st := st, legal := fun q => sLegal q a && yLegal b && dLegal q d && c.toNat < 2,
          srcs := [.s a, .y b], need := [.s a, .y b] } (suppVar .s d) (ycmpBody k.toNat (c == 1) a b d) s

/-- YCMPY (R381). -/
def execYcmpy (st : BitVec 3) (a b : BitVec 6) (d : BitVec 5) (c : BitVec 2) (s : State) :
    Host.Outcome State Fault Refusal :=
  issue { opc := 0x61, st := st, legal := fun q => yLegal a && yLegal b && dLegal q d && c.toNat < 2,
          srcs := [.y a, .y b], need := [.y a, .y b] } (suppVar .s d)
    (fun u s => yStart (.cmpy (c == 1) (s.rdY u a) (s.rdY u b)) d u s) s

/-- YCOPY (R380): all 128 bits and V, at latency 2. -/
def execYcopy (st : BitVec 3) (a : BitVec 6) (d : BitVec 5) (s : State) : Host.Outcome State Fault Refusal :=
  issue { opc := 0x62, st := st, legal := fun _ => yLegal a && dvLegal d, srcs := [.y a], need := [] } suppNone
    (fun c s => .done (s.modCore c (·.outY d 2 (if (s.rdY c a).ok then s.rdY c a else yz)))) s

/-- YEXT (R380, R227): the known prefix stays, SEL and POS never change. -/
def execYext (st : BitVec 3) (a b : BitVec 6) (d : BitVec 5) (s : State) : Host.Outcome State Fault Refusal :=
  issue { opc := 0x63, st := st, legal := fun k => yLegal a && sLegal k b && dvLegal d, srcs := [.y a, .s b],
          need := [.y a, .s b] } (suppVar .y d)
    (fun c s => yStart (.ext (s.rdY c a) (min 64 ((s.rdY c a).n + (s.rdS c b).v.toNat))) d c s) s

/-- YBITS (R380). -/
def execYbits (st : BitVec 3) (a : BitVec 6) (d : BitVec 5) (s : State) : Host.Outcome State Fault Refusal :=
  issue { opc := 0x64, st := st, legal := fun k => yLegal a && dLegal k d, srcs := [.y a], need := [.y a] } (suppS d 2)
    (fun c s => .done (s.modCore c (·.outS d 2 (valid ((s.rdY c a).v.setWidth 64))))) s

/-- YST (R382, R228). -/
def execYst (st : BitVec 3) (b x : BitVec 6) (r : BitVec 1) (p : BitVec 3) (s : State) :
    Host.Outcome State Fault Refusal :=
  issue { opc := 0x65, st := st, legal := fun _ => gBase b && yLegal x && ordLegal r p, srcs := [.s b, .y x],
          need := [.s b, .y x] } suppNone
    (fun c s => s.storeGlobal c (s.rdS c b).v 16 16 8 (atAddr 0 (natBytes 16 (s.rdY c x).v.toNat)) (ordOf r p)) s

/-- YLD (R382, R228). -/
def execYld (st : BitVec 3) (b : BitVec 6) (c : BitVec 1) (p : BitVec 3) (d : BitVec 5) (s : State) :
    Host.Outcome State Fault Refusal :=
  issue { opc := 0x66, st := st, legal := fun _ => gBase b && dvLegal d && ordLegal c p, srcs := [.s b],
          need := [.s b] } (suppVar .y d)
    (fun u s => s.loadGlobal u ⟨16, 16, .yarn, d, ordOf c p, false⟩ [(s.rdS u b).v]) s

/-! ### Stochastic rounding (R233) -/

/-- The formats of YSR: none is INT32. -/
def ysrFmt : Nat → Option Fmt
  | 0 => some Fmt.bf16
  | 1 => some Fmt.fp16
  | 2 => some Fmt.e4m3
  | 3 => some Fmt.e5m2
  | _ => none

/-- What YSR does with its operand: a result with flags at once, or a choice between hi, where U < T / 2^L, and lo. -/
inductive YsrPlan where
  | now (v : W64) (fl : BitVec 5)
  | choose (t l : Nat) (hi lo : W64) (fhi flo : BitVec 5)
deriving Repr

/-- The flags of a changed result: UF below the smallest normal, zero included. -/
def ysrFlags (f : Fmt) (mag : Nat) : BitVec 5 := if mag < 2 ^ f.fb then fUF ||| fNX else fNX

/-- The cases of R233. -/
def ysrPlan (fn x : Nat) : YsrPlan :=
  match ysrFmt fn with
  | none =>
    match F32.val x with
    | .nan _ => .now 0 fIV
    | .inf n => .now (BitVec.ofInt 64 (if n then -2 ^ 31 else 2 ^ 31 - 1)) fIV
    | .fin n m e =>
      let r := roundAt 1 n m e 0
      let i : Int := if n then -(r.1 : Int) else r.1
      if i < -2 ^ 31 ∨ (i = -2 ^ 31 ∧ r.2) then .now (BitVec.ofInt 64 (-2 ^ 31)) fIV
      else if 2 ^ 31 - 1 < i then .now (BitVec.ofInt 64 (2 ^ 31 - 1)) fIV
      else if !r.2 then .now (BitVec.ofInt 64 i) 0
      else
        let l := (-e).toNat
        let rem := m % 2 ^ l
        if n then
          match stripDigits (2 ^ l - rem) l with
          | .digits t l => .choose t l (BitVec.ofInt 64 i) (BitVec.ofInt 64 (i - 1)) fNX fNX
          | _ => .now 0 0
        else
          match stripDigits rem l with
          | .digits t l => .choose t l (BitVec.ofInt 64 (i + 1)) (BitVec.ofInt 64 i) fNX fNX
          | _ => .now 0 0
  | some f =>
    match F32.val x with
    | .nan _ => .now (BitVec.ofNat 64 f.nan) fIV
    | .inf n => if f.e4 then .now 0x7f fIV else .now (BitVec.ofNat 64 (f.signed n f.infBits)) 0
    | .fin n m e =>
      if m = 0 then .now (BitVec.ofNat 64 (f.signed n 0)) 0
      else
        let qe : Int := max ((m.log2 : Int) + e) (1 - f.bias) - f.fb
        let r := roundAt 1 n m e qe
        let mag := (qe + f.fb + f.bias - 1).toNat * 2 ^ f.fb + r.1
        if f.maxBits < mag ∨ (mag = f.maxBits ∧ r.2) then .now (BitVec.ofNat 64 (f.signed n f.maxBits)) (fOF ||| fNX)
        else if !r.2 then .now (BitVec.ofNat 64 (f.signed n mag)) 0
        else
          let l := (qe - e).toNat
          let rem := m % 2 ^ l
          match stripDigits (if n then 2 ^ l - rem else rem) l with
          | .digits t l =>
            let near := BitVec.ofNat 64 (f.signed n mag)
            let far := BitVec.ofNat 64 (f.signed n (mag + 1))
            if n then .choose t l near far (ysrFlags f mag) (ysrFlags f (mag + 1))
            else .choose t l far near (ysrFlags f (mag + 1)) (ysrFlags f mag)
          | _ => .now 0 0

/-- A block of the table stream as YSR reads it, which is held at issue for it: the digits, a wait, or a fault; none, and so an
invalid zero, while cr.ytable is 0 (log 34). -/
def State.tableBlock (s : State) (c : CoreRef) (pos j : Nat) : State × Except (Option (Nat × W64)) Nat :=
  let t := tileOf c
  let va := s.blockVa c pos j
  match s.gcheck (s.agentOf c) (s.needOf c true false) 16 1 va with
  | (s, .ok pas z) =>
    let s := s.zpTouch z pas
    let pa := pas.headD 0
    let s := match mfind (s.tile t).l1 (pa / 64) with
      | some _ => s
      | none => s.l1Fill t (pa / 64)
    (s, .ok (digitsOf (((s.tile t).snap true pas).map (fun b => b.v.getD 0))))
  | (s, .busy) => (s.busyWait c va, .error none)
  | (s, .hold) => (s, .error none)
  | (s, .bad code va) => (s, .error (some (code, va)))

/-- YSR's comparison with the digits it needs, at most two blocks. -/
def State.ysrLess (s : State) (c : CoreRef) (y : YVal) (t l : Nat) : Nat → List YGot → State × Except (Option (Nat × W64)) YAns
  | 0, got => (s, .ok (s.yLess c got y t l))
  | n + 1, got =>
    match s.yLess c got y t l with
    | .need pos j =>
      (match s.tableBlock c pos j with
        | (s, .ok d) => State.ysrLess s c y t l n (⟨pos, j, d⟩ :: got)
        | (s, .error e) => (s, .error e))
    | r => (s, .ok r)

/-- YSR after suppression: it is held at issue while digits are fetched, and while an acquire or an open load of its core does
not have its value where it reads the table stream. -/
def ysrBody (a b : BitVec 6) (d : BitVec 5) (fn : Nat) (c : CoreRef) (s : State) : Act :=
  let out (v : SVal) (fl : BitVec 5) (s : State) : State := s.modCore c (fun x => (x.raise fl).outS d 4 v)
  match ysrPlan fn (s.rdS c a).f32 with
  | .now v fl => .done (out (valid v) fl s)
  | .choose t l hi lo fhi flo =>
    let y := s.rdY c b
    let ask := match s.yLess c [] y t l with
      | .need _ _ => true
      | _ => false
    if ask && ((s.core c).acqPending || (s.core c).flights.any Flight.isOpenLoad) then .pend s
    else match s.ysrLess c y t l 2 [] with
      | (s, .ok (.lt true)) => .done (out (valid hi) fhi s)
      | (s, .ok (.lt false)) => .done (out (valid lo) flo s)
      | (s, .ok .tie) => .done (out (valid lo) flo s)
      | (s, .ok _) => .done (out iz 0 s)
      | (s, .error none) => .wait s
      | (s, .error (some (code, va))) => .trap code va s

/-- YSR (R383, R233). -/
def execYsr (st : BitVec 3) (a b : BitVec 6) (d : BitVec 5) (f : BitVec 5) (s : State) :
    Host.Outcome State Fault Refusal :=
  issue { opc := 0x67, st := st, legal := fun k => sLegal k a && yLegal b && dLegal k d && f.toNat < 5,
          srcs := [.s a, .y b], need := [.s a, .y b] } (suppS d 4) (ysrBody a b d f.toNat) s

end Sys2Proof.Machine
end

