-- ==== Sys2Proof/Machine/Handle.lean ====
section
/-! DEFINITION. Handle instructions (05 R102-R109, R114; 21 R359-R361). -/

namespace Sys2Proof.Machine

/-! ### Descriptors and units (R102-R105) -/

/-- A descriptor of its fields (R103). -/
def mkDesc (level fmt kind rows cols : Nat) (stale : Bool) : W64 :=
  BitVec.ofNat 64 (level % 4 * 2 ^ 62 + fmt % 16 * 2 ^ 58 + kind % 4 * 2 ^ 56 + rows % 2 ^ 16 * 2 ^ 32 +
    cols % 2 ^ 16 * 2 ^ 16 + (if stale then 2 ^ 15 else 0))

/-- The fields of a descriptor, as HALLOC takes them. -/
structure Desc where
  level : Nat
  fmt : Nat
  kind : Nat
  rows : Nat
  cols : Nat
deriving DecidableEq, Repr

/-- Reading a descriptor; the bits HALLOC ignores are left out (R359). -/
def descOf (w : W64) : Desc := ⟨wf w 62 2, wf w 58 4, wf w 56 2, wf w 32 16, wf w 16 16⟩

/-- The extent (R103). -/
def Desc.extent (d : Desc) : Nat := d.rows * rowBytes d.fmt d.cols

/-- Bytes of one unit of a level: 64 slices of 1 KiB in BST. -/
def unitBytes (level : Nat) : Nat := if level = 2 then 65536 else 4096

/-- Units of a level in one tile (R102). -/
def unitTotal (level : Nat) : Nat := match level with
  | 0 => 384
  | 1 => 128
  | _ => 64

/-- The units an extent occupies. -/
def unitsFor (level extent : Nat) : Nat := (extent + unitBytes level - 1) / unitBytes level

/-- A descriptor HALLOC accepts (R103, R104, R117). -/
def Desc.good (d : Desc) : Bool :=
  d.level < 3 && d.fmt < 11 && d.kind == 0 && d.rows != 0 && d.cols != 0 &&
  (d.level != 1 || d.fmt == 5 || d.fmt == 3) && (d.level != 2 || d.fmt != 0) && (d.level != 2 || d.cols == 64) &&
  (d.fmt != 10 || d.cols % 8 == 0) && (d.level != 2 || d.fmt != 10 || d.rows % 8 == 0) &&
  unitsFor d.level d.extent ≤ unitTotal d.level

/-- The units of a handle. -/
def Handle.units (h : Handle) : Nat := unitsFor h.level h.extent

/-- A handle that a HALLOC or HWIN in flight will make: its number, level and units, and its place in tile issue order. -/
structure Alloc where
  h : Nat
  level : Nat
  units : Nat
  ord : Nat
deriving DecidableEq, Repr

/-- The allocation that a flight has made and waits with: a HWIN whose pages are not translated has taken nothing. -/
def Flight.alloc? (f : Flight) : Option Alloc :=
  match f.kind with
  | .halloc h w o => let d := descOf w; some ⟨h, d.level, unitsFor d.level d.extent, o⟩
  | .hwin h _ n took o => if took then some ⟨h, 0, unitsFor 0 (8192 * n), o⟩ else none
  | _ => none

/-- The handle number that a flight will take. -/
def Flight.number? (f : Flight) : Option Nat :=
  match f.kind with
  | .halloc h _ _ => some h
  | .hwin h _ _ _ _ => some h
  | _ => none

/-- The allocations in flight on a tile. -/
def VTile.allocs (v : VTile) : List Alloc := (v.worker.flights ++ v.feeder.flights).filterMap Flight.alloc?

/-- Units of a level that are taken, by handles or by allocations in flight. -/
def VTile.taken (v : VTile) (level : Nat) : Nat :=
  (v.handles.foldl (fun a e => if e.2.level = level then a + e.2.units else a) 0) +
  (v.allocs.foldl (fun a e => if e.level = level then a + e.units else a) 0)

/-- Units of a level held by handles alone. -/
def VTile.held (v : VTile) (level : Nat) : Nat :=
  v.handles.foldl (fun a e => if e.2.level = level then a + e.2.units else a) 0

/-- Free units, those still being scrubbed included (R107). -/
def VTile.freeUnits (v : VTile) (level : Nat) : Nat := unitTotal level - v.taken level

/-- Units of a level being scrubbed. -/
def VTile.scrubbing (v : VTile) (level : Nat) : Nat := v.scrub.getD level 0

/-- The units that an allocation takes are scrubbed (R107): it takes scrubbed units first, then those whose scrub ends
soonest, so an earlier allocation of its level is served before it. -/
def VTile.scrubbed (v : VTile) (a : Alloc) : Bool :=
  decide (v.held a.level + v.scrubbing a.level + a.units ≤ unitTotal a.level) &&
    !v.allocs.any (fun b => b.level == a.level && decide (b.ord < a.ord))

/-- A handle number is FREE, and no HALLOC or HWIN in flight will take it (which of two such the spec says only of one cycle,
log 33). -/
def VTile.numberFree (v : VTile) (h : Nat) : Bool :=
  (mfind v.handles h).isNone && !(v.worker.flights ++ v.feeder.flights).any (fun f => f.number? == some h)

/-- A new handle: valid zeros, every granule empty (R107). -/
def Handle.fresh (d : Desc) (base : W64) (pins : List Nat) : Handle :=
  { st := .allocated, level := d.level, fmt := d.fmt, kind := d.kind, rows := d.rows, cols := d.cols, data := [],
    full := [], inval := [], base := base, lines := [], pins := pins, dirty := [], copy := [] }

/-! ### HALLOC (R359, R107) -/

/-- A result awaited that takes a place in tile issue order. -/
def State.awaitOrd (s : State) (c : CoreRef) (d : BitVec 5) (k : Nat → FKind) : State :=
  let o := (s.tile (tileOf c)).order
  (s.modTile (tileOf c) (fun v => { v with order := o + 1 })).await c d (.scalar 8 false) (k o) none

/-- HALLOC of a number with a descriptor: the checks, then invalid zero when units are short, else a wait for scrubbed
units that HALLOC_COMPLETE ends. -/
def hallocBody (h : Nat) (desc : CoreRef → State → W64) (d : BitVec 5) (c : CoreRef) (s : State) : Act :=
  let v := s.tile (tileOf c)
  let w := desc c s
  let k := descOf w
  if !v.numberFree h || !k.good then .trap HNDL 0 s
  else if v.freeUnits k.level < unitsFor k.level k.extent then .eff (s.known c d (.s iz) none)
  else .eff (s.awaitOrd c d (.halloc h w))

/-- HALLOC with its descriptor in the words (R359). -/
def execHalloc (st : BitVec 3) (lv : BitVec 2) (ft : BitVec 4) (d : BitVec 5) (h : BitVec 8) (rows cols : BitVec 16)
    (s : State) : Host.Outcome State Fault Refusal :=
  issue { opc := 0x68, st := st, n := 2, legal := fun k => dLegal k d, srcs := [], need := [] } suppNone
    (hallocBody h.toNat (fun _ _ => mkDesc lv.toNat ft.toNat 0 rows.toNat cols.toNat false) d) s

/-- HALLOC with its descriptor in a scalar (R359). -/
def execHallocD (st : BitVec 3) (a : BitVec 6) (d : BitVec 5) (h : BitVec 8) (s : State) :
    Host.Outcome State Fault Refusal :=
  issue { opc := 0x68, st := st, n := 2, legal := fun k => sLegal k a && dLegal k d, srcs := [.s a], need := [.s a] }
    (suppVar .s d) (hallocBody h.toNat (fun c s => (s.rdS c a).v) d) s

/-! ### HWIN (R360, R114) -/

/-- Translating the pages of a window in order: the frames, a wait, or a trap. -/
def State.winPages (s : State) (c : CoreRef) (base : W64) : Nat → State × (List Nat × Option (Option (Nat × W64)))
  | 0 => (s, [], none)
  | n + 1 =>
    match s.gcheck (s.agentOf c) (s.needOf c true false) 1 1 base with
    | (s, .ok pas _) =>
      match State.winPages s c (base + 8192) n with
      | (s, l, r) => (s, pas.headD 0 :: l, r)
    | (s, .bad code va) => (s, [], some (some (code, va)))
    | (s, _) => (s, [], some none)

/-- The addresses of a window's pages. -/
def winVas (base : W64) (n : Nat) : List W64 := (rangeFrom 0 n).map (fun i => base + BitVec.ofNat 64 (8192 * i))

/-- Some pin would take its count past 65,535 (06 R128); a frame that stands in the list more than once gets a pin for each. -/
def State.pinRefused (s : State) (l : List Nat) : Bool := l.any (fun f => decide (65535 < mget 0 s.pins f + l.count f))

/-- The descriptor of a window of some pages. -/
def winDesc (pages : Nat) : Desc := ⟨0, 0, 1, pages, 8192⟩

/-- HWIN after suppression: number, base, pages, units, pins, in this order (log 25). A page whose entry is BUSY, and units that are being scrubbed, are
awaited in flight (06 R123, R107). -/
def hwinBody (a : BitVec 6) (d : BitVec 5) (h len : Nat) (c : CoreRef) (s : State) : Act :=
  let t := tileOf c
  let base := (s.rdS c a).v
  let n := len / 8192
  if !(s.tile t).numberFree h then .trap HNDL 0 s
  else if 2 ^ 53 ≤ base.toNat then .trap PROT base s
  else if base.toNat % 8192 ≠ 0 then .trap ALIGN base s
  else match s.winPages c base n with
    | (s, _, some (some (code, va))) => .trap code va s
    | (s, _, some none) =>
      let s' := s.await c d (.scalar 8 false) (.hwin h base n false 0) none
      .eff (if (winVas base n).any (s.isBusy c) then s'.markBusy c else s')
    | (s, frames, none) =>
      let v := s.tile t
      let u := unitsFor 0 (winDesc n).extent
      if v.freeUnits 0 < u ∨ s.pinRefused frames then .eff (s.known c d (.s iz) none)
      else if !v.scrubbed ⟨h, 0, u, v.order⟩ then .eff (s.awaitOrd c d (.hwin h base n true))
      else
        let s := (s.pin frames).modTile t (fun v => { v with handles := mput v.handles h (Handle.fresh (winDesc n) base frames) })
        .eff (s.known c d (.s (valid (BitVec.ofNat 64 h))) none)

/-- HWIN (R360). -/
def execHwin (st : BitVec 3) (a : BitVec 6) (d : BitVec 5) (h : BitVec 8) (len : BitVec 32) (s : State) :
    Host.Outcome State Fault Refusal :=
  issue { opc := 0x6a, st := st, n := 2,
          legal := fun k => sLegal k a && dLegal k d && len != 0 && len.toNat % 8192 == 0 && len.toNat ≤ 1048576,
          srcs := [.s a], need := [.s a] } (suppVar .s d) (hwinBody a d h.toNat len.toNat) s

/-! ### HFREE and HINFO (R361, R108, R109) -/

/-- HFREE after suppression: the handle is FREEING until HFREE_COMPLETE has freed it (which it tells the core by a number
above 255), and the core issues nothing. -/
def hfreeBody (a : BitVec 6) (c : CoreRef) (s : State) : Act :=
  let t := tileOf c
  let h := (s.rdS c a).v.toNat % 256
  match (s.core c).began with
  | some k => if 256 ≤ k then .eff s else .wait s
  | none =>
    match s.handleIn t h with
    | none => .trap HNDL 0 s
    | some _ =>
      .wait ((s.modHandle t h (fun x => { x with st := .freeing })).modCore c (fun x => { x with began := some h }))

/-- HFREE (R361). -/
def execHfree (st : BitVec 3) (a : BitVec 6) (s : State) : Host.Outcome State Fault Refusal :=
  issue { opc := 0x69, st := st, legal := fun k => sLegal k a, srcs := [.s a], need := [.s a] } suppNone (hfreeBody a) s

/-- The descriptor that HINFO returns. -/
def Handle.desc (h : Handle) : W64 := mkDesc h.level h.fmt h.kind h.rows h.cols (h.st == .stale)

/-- HINFO (R361). -/
def execHinfo (st : BitVec 3) (a : BitVec 6) (d : BitVec 5) (s : State) : Host.Outcome State Fault Refusal :=
  issue { opc := 0x69, st := st, legal := fun k => sLegal k a && dLegal k d, srcs := [.s a], need := [.s a] }
    (suppS d 2)
    (fun c s => .done (s.modCore c (·.outS d 2 (match s.handleIn (tileOf c) ((s.rdS c a).v.toNat % 256) with
      | some h => valid h.desc
      | none => iz)))) s

end Sys2Proof.Machine
end

