-- ==== Sys2Proof/Machine/Barrier.lean ====
section
/-! DEFINITION. Barriers (12 R198-R208), groups and gauge sets (11 R192-R196): their records, their instructions, and what
a group's home tile does with a request. -/

namespace Sys2Proof.Machine

/-! ### Tile barriers -/

/-- A barrier operand (R200): group bit, number, and whether it is well formed. -/
def barOperand (v : W64) : Bool × Nat × Bool :=
  if v.getLsbD 15 then (true, v.toNat % 4096, v.toNat / 4096 % 8 == 0) else (false, v.toNat % 512, v.toNat / 512 % 64 == 0)

/-- A tile's barrier. -/
def VTile.bar (v : VTile) (b : Nat) : Barrier := mget Barrier.init0 v.bars b

/-- BWAIT's condition to wait (R204). -/
def tokOpen (phase tok : W32) : Bool := (phase - tok).toNat == 0 || 2 ^ 31 ≤ (phase - tok).toNat

/-- Releasing the waiters of a phase: those whose condition holds get the phase. -/
def State.releaseWait (s : State) (l : List Waiter) (phase : W32) : State :=
  l.foldl (fun s w => if tokOpen phase w.tok then s
    else s.modCore w.c (·.resolve w.id (.s (valid (phase.setWidth 64))))) s

/-- complete(b) (R201). -/
def State.barComplete (s : State) (t b : Nat) : State :=
  let x := (s.tile t).bar b
  if x.init ∧ x.cnta = x.basea ∧ x.expb ≤ x.cntb then
    let ph := x.phase + 1
    let x' := { x with phase := ph, cnta := 0, cntb := 0, expb := x.baseb, wait := x.wait.filter (fun w => tokOpen ph w.tok) }
    (s.modTile t (fun v => { v with bars := mput v.bars b x' })).releaseWait x.wait ph
  else s

/-- CORE of a record that names a core of a tile (16 R274). -/
def coreBit (c : CoreRef) : Nat := if isFeeder c then 1 else 0

/-- CORE of a record about an engine's posting or acknowledgement: the core whose barrier it is (R199; log 29). -/
def barCore (b : Nat) : Nat := if 256 ≤ b then 1 else 0

/-- A BAROVER or BARNONE record: CORE, barrier operand and phase. -/
def State.logBar (s : State) (t core kind b : Nat) (phase : W32) : State :=
  s.logTile t kind core (detail ([(336, b)] ++ (if kind = 0x0005 then [(304, phase.toNat)] else [])))

/-- An arrival on a tile barrier under the rule of BARV (R203): the token, if it is counted. -/
def State.barArrive (s : State) (t core b : Nat) : State × Option W32 :=
  let x := (s.tile t).bar b
  if !x.init then (s, none)
  else if x.cnta = x.basea then (s.logBar t core 0x0005 b x.phase, none)
  else
    ((s.modTile t (fun v => { v with bars := mput v.bars b { x with cnta := x.cnta + 1 } })).barComplete t b, some x.phase)

/-- A posting of bytes (R205): discarded where INIT is 0, cut at EXPB, then the completion test. -/
def State.barPost (s : State) (t b n : Nat) : State :=
  let x := (s.tile t).bar b
  if !x.init then s.logBar t (barCore b) 0x0006 b 0
  else
    let s := if x.expb < x.cntb + n then s.logBar t (barCore b) 0x0005 b x.phase else s
    (s.modTile t (fun v => { v with bars := mput v.bars b { x with cntb := min (x.cntb + n) (max x.expb x.cntb) } })).barComplete t b

/-- BINIT (R203). -/
def binitBody (a b : BitVec 6) (d : BitVec 5) (c : CoreRef) (s : State) : Act :=
  let o := barOperand (s.rdS c a).v
  let e := (s.rdS c b).v
  let t := tileOf c
  let x := (s.tile t).bar o.2.1
  if o.1 || !o.2.2 || (isFeeder c != decide (256 ≤ o.2.1)) || wf e 43 21 != 0 || decide (1024 < wf e 32 11) || x.cnta != 0 ||
      x.cntb != 0 || !x.wait.isEmpty then .eff (s.known c d (.s iz) none)
  else
    let y : Barrier := { init := e != 0, phase := 0, basea := wf e 32 11, baseb := wf e 0 32, expb := wf e 0 32, cnta := 0,
                         cntb := 0, wait := [] }
    .eff ((s.modTile t (fun v => { v with bars := mput v.bars o.2.1 y })).known c d (.s (valid 0)) none)

/-- BINIT (R203). -/
def execBinit (st : BitVec 3) (a b : BitVec 6) (d : BitVec 5) (s : State) : Host.Outcome State Fault Refusal :=
  issue { opc := 0x6b, st := st, legal := fun k => sLegal k a && sLegal k b && dLegal k d, srcs := [.s a, .s b],
          need := [.s a, .s b] } (suppVar .s d) (binitBody a b d) s

/-! ### Groups -/

/-- The core's task may be a member when its request arrives: it is one, or its GJOIN is on its way (R194). -/
def State.mayBeMember (s : State) (c : CoreRef) (g : Nat) : Bool := ((s.core c).memberOf g).isSome || (s.joining c).contains g

/-- A request that is held: behind one of its channel, or by what its release waits for. -/
def State.groupHold (s : State) (c : CoreRef) (d : BitVec 5) (kind g : Nat) (arg : W64) (rel acq : Option Nat) : State :=
  s.hold c d (.scalar 8 false) (.grp (s.homeOf c g) (s.groupReqOf c kind g arg)) rel acq

/-- What a request that asks for an answer waits for: BWAIT's phase, or the answer. -/
def GReq.waits (kind : Nat) : FKind := if kind = 6 then .bwait else .await

/-- Awaiting a scalar answer from a group's home. -/
def groupAsk (kind g : Nat) (arg : W64) (d : BitVec 5) (acq : Option Nat) (c : CoreRef) (s : State) : Act :=
  if s.chanHeld c (s.homeOf c g) 0 then .eff (s.groupHold c d kind g arg none acq)
  else
    let id := (s.core c).nextId
    .eff ((s.await c d (.scalar 8 false) (GReq.waits kind) acq).groupSend c id kind g arg)

/-- BARV (R203, R208): a release, then the arrival. -/
def barvBody (a : BitVec 6) (d : BitVec 5) (c : CoreRef) (s : State) : Act :=
  let o := barOperand (s.rdS c a).v
  if o.1 ∧ (s.core c).sel = .msg then .trap ILLOP 0 s
  else if !o.2.2 then .eff (s.known c d (.s iz) none)
  else if o.1 ∧ !s.mayBeMember c o.2.1 then .eff (s.known c d (.s iz) none)
  else if (s.core c).acqPending || !s.relReady c (if o.1 then 2 else 1) then
    if (s.core c).sel = .msg then .wait s
    else .eff (if o.1 then s.groupHold c d 5 o.2.1 0 (some 2) none
      else s.hold c d (.scalar 8 false) (.barv o.2.1) (some 1) none)
  else if o.1 then groupAsk 5 o.2.1 0 d none c s
  else
    match s.barArrive (tileOf c) (coreBit c) o.2.1 with
    | (s, some t) => .eff (s.known c d (.s (valid (t.setWidth 64))) none)
    | (s, none) => .eff (s.known c d (.s iz) none)

/-- BARV (R203). -/
def execBarv (st : BitVec 3) (a : BitVec 6) (d : BitVec 5) (s : State) : Host.Outcome State Fault Refusal :=
  issue { opc := 0x6b, st := st, legal := fun k => sLegal k a && dLegal k d, srcs := [.s a], need := [.s a], msg := true,
          dst := d } (suppVar .s d) (barvBody a d) s

/-- BWAIT (R204): an acquire when it returns. -/
def bwaitBody (a b : BitVec 6) (d : BitVec 5) (c : CoreRef) (s : State) : Act :=
  let o := barOperand (s.rdS c a).v
  let tok : W32 := (s.rdS c b).v.setWidth 32
  let t := tileOf c
  if !o.2.2 then .eff (s.known c d (.s iz) none)
  else if o.1 then
    (if !s.mayBeMember c o.2.1 then .eff (s.known c d (.s iz) none)
     else groupAsk 6 o.2.1 (tok.setWidth 64) d (some 2) c s)
  else
    let x := (s.tile t).bar o.2.1
    if !x.init then .eff (s.known c d (.s iz) none)
    else if !tokOpen x.phase tok then .eff (s.known c d (.s (valid (x.phase.setWidth 64))) (some 1))
    else
      let id := (s.core c).nextId
      .eff ((s.await c d (.scalar 8 false) .bwait (some 1)).modTile t (fun v =>
        { v with bars := mput v.bars o.2.1 { x with wait := x.wait ++ [⟨c, id, tok⟩] } }))

/-- BWAIT (R204). -/
def execBwait (st : BitVec 3) (a b : BitVec 6) (d : BitVec 5) (s : State) : Host.Outcome State Fault Refusal :=
  issue { opc := 0x6b, st := st, legal := fun k => sLegal k a && sLegal k b && dLegal k d, srcs := [.s a, .s b],
          need := [.s a, .s b] } (suppVar .s d) (bwaitBody a b d) s

/-- BTEST (R204): an acquire only when valid. -/
def btestBody (a b : BitVec 6) (d : BitVec 5) (c : CoreRef) (s : State) : Act :=
  let o := barOperand (s.rdS c a).v
  let tv := s.rdS c b
  if !o.2.2 then .eff (s.known c d (.s iz) none)
  else if o.1 then
    (if !s.mayBeMember c o.2.1 then .eff (s.known c d (.s iz) none) else groupAsk 7 o.2.1 tv.v d (some 2) c s)
  else
    let x := (s.tile (tileOf c)).bar o.2.1
    if x.init ∧ x.phase.getLsbD 0 ≠ tv.v.getLsbD 0 then .eff (s.known c d (.s tv) (some 1))
    else .eff (s.known c d (.s iz) none)

/-- BTEST (R204). -/
def execBtest (st : BitVec 3) (a b : BitVec 6) (d : BitVec 5) (s : State) : Host.Outcome State Fault Refusal :=
  issue { opc := 0x6b, st := st, legal := fun k => sLegal k a && sLegal k b && dLegal k d, srcs := [.s a, .s b],
          need := [.s a, .s b] } (suppVar .s d) (btestBody a b d) s

/-- BEXP (R203). -/
def bexpBody (a b : BitVec 6) (c : CoreRef) (s : State) : Act :=
  let o := barOperand (s.rdS c a).v
  let n := (s.rdS c b).v.toNat % 2 ^ 32
  let t := tileOf c
  let x := (s.tile t).bar o.2.1
  if o.1 || !o.2.2 then .done s
  else if !x.init ∨ 2 ^ 32 - 1 < x.expb + n then .eff (s.logBar t (coreBit c) 0x0005 o.2.1 x.phase)
  else .eff ((s.modTile t (fun v => { v with bars := mput v.bars o.2.1 { x with expb := x.expb + n } })).barComplete t o.2.1)

/-- BEXP (R203). -/
def execBexp (st : BitVec 3) (a b : BitVec 6) (s : State) : Host.Outcome State Fault Refusal :=
  issue { opc := 0x6b, st := st, legal := fun k => sLegal k a && sLegal k b, srcs := [.s a, .s b],
          need := [.s a, .s b] } suppNone (bexpBody a b) s

/-! ### Group instructions (R194, R195) -/

/-- GJOIN (R195). -/
def execGjoin (st : BitVec 3) (a b : BitVec 6) (d : BitVec 5) (s : State) : Host.Outcome State Fault Refusal :=
  issue { opc := 0x6c, st := st, legal := fun k => sLegal k a && sLegal k b && dLegal k d, srcs := [.s a, .s b],
          need := [.s a, .s b] } (suppVar .s d)
    (fun c s =>
      let g := (s.rdS c a).v.toNat
      let m := (s.rdS c b).v.toNat
      if 4095 < g ∨ 1023 < m then .eff (s.known c d (.s iz) none)
      else groupAsk 0 g (BitVec.ofNat 64 m) d none c s) s

/-- GLEAVE (R195) of a task that is no member and is joining does nothing. -/
def gleaveBody (a : BitVec 6) (c : CoreRef) (s : State) : Act :=
  let g := (s.rdS c a).v.toNat
  if s.mayBeMember c g then .eff (s.gleave c g) else .done s

/-- GLEAVE (R195). -/
def execGleave (st : BitVec 3) (a : BitVec 6) (s : State) : Host.Outcome State Fault Refusal :=
  issue { opc := 0x6c, st := st, legal := fun k => sLegal k a, srcs := [.s a], need := [.s a] } suppNone (gleaveBody a) s

/-- The value of GINFO (R195), read from the home tile's record. -/
def State.ginfo (s : State) (c : CoreRef) (g : Nat) : W64 :=
  let h := s.homeOf c g
  let cnt := (mget Group.init0 (s.tile h).groups g).count
  let m := (s.core c).memberOf g
  BitVec.ofNat 64 ((s.vtileBits h).toNat * 2 ^ 48 + cnt % 2 ^ 11 * 2 ^ 37 + m.getD 0 % 2 ^ 10 * 2 ^ 27 +
    (if m.isSome then 2 ^ 26 else 0))

/-- GINFO (R195), at latency 2. -/
def execGinfo (st : BitVec 3) (a : BitVec 6) (d : BitVec 5) (s : State) : Host.Outcome State Fault Refusal :=
  issue { opc := 0x6c, st := st, legal := fun k => sLegal k a && dLegal k d, srcs := [.s a], need := [.s a] } (suppS d 2)
    (fun c s =>
      let g := (s.rdS c a).v.toNat
      .eff (s.modCore c (·.outS d 2 (if 4095 < g then iz else valid (s.ginfo c g))))) s

/-- GAUGE (R195). -/
def execGauge (st : BitVec 3) (a b : BitVec 6) (s : State) : Host.Outcome State Fault Refusal :=
  issue { opc := 0x6d, st := st, legal := fun k => sLegal k a && sLegal k b, srcs := [.s a, .s b],
          need := [.s a, .s b] } suppNone
    (fun c s =>
      let g := (s.rdS c a).v.toNat
      if !s.mayBeMember c g then .done s
      else if s.chanHeld c (s.homeOf c g) 0 then .eff (s.groupHold c 31 3 g (s.rdS c b).v none none)
      else .eff (s.groupSend c 0 3 g (s.rdS c b).v)) s

/-- The core issues nothing until a flight has delivered its result. -/
def Core.holdIssue (x : Core) (id : Nat) : Core :=
  { x with flights := x.flights.map (fun f => if f.id = id then { f with hold := true } else f) }

/-- GADV after suppression (R195): the core issues nothing until the answer has come. -/
def gadvBody (a : BitVec 6) (d : BitVec 5) (c : CoreRef) (s : State) : Act :=
  let g := (s.rdS c a).v.toNat
  if !s.mayBeMember c g then .eff (s.known c d (.s iz) none)
  else
    let id := (s.core c).nextId
    if s.chanHeld c (s.homeOf c g) 0 then .eff ((s.groupHold c d 4 g 0 none none).modCore c (·.holdIssue id))
    else
      let s := s.modCore c (fun x => x.launch .s d { Flight.base with kind := .await, hold := true })
      .eff (s.groupSend c id 4 g 0)

/-- GADV (R195). -/
def execGadv (st : BitVec 3) (a : BitVec 6) (d : BitVec 5) (s : State) : Host.Outcome State Fault Refusal :=
  issue { opc := 0x6d, st := st, legal := fun k => sLegal k a && dLegal k d, srcs := [.s a], need := [.s a] }
    (suppVar .s d) (gadvBody a d) s

/-! ### The home tile (R194, R195, R208) -/

/-- A tile's group record. -/
def VTile.grp (v : VTile) (g : Nat) : Group := mget Group.init0 v.groups g

/-- Replacing a group record. -/
def State.setGrp (s : State) (t g : Nat) (x : Group) : State :=
  s.modTile t (fun v => { v with groups := if x = Group.init0 then mdel v.groups g else mput v.groups g x })

/-- The gauge phase a joining member takes: that of the member furthest behind, 0 if there is none. -/
def Group.behind (x : Group) : W32 :=
  ((x.gph.find? (fun e => x.gph.all (fun o => decide ((o.2 - e.2).toNat < 2 ^ 31)))).map (·.2)).getD 0

/-- GADV of member m must still wait (R195). -/
def Group.mustWait (x : Group) (m : Nat) : Bool :=
  let p := mget 0 x.gph m
  x.gph.any (fun e => (e.1 + 1 == m || e.1 == m + 1) &&
    decide (x.allow.toNat < (p - e.2).toNat ∧ (p - e.2).toNat < 2 ^ 31))

/-- Releasing GADVs whose wait is over. -/
def State.gadvRelease (s : State) (t g : Nat) : State :=
  let x := (s.tile t).grp g
  let l := x.gwait.filter (fun w => !x.mustWait w.2)
  let s := s.setGrp t g { x with gwait := x.gwait.filter (fun w => x.mustWait w.2) }
  l.foldl (fun s w => s.modCore w.1.c (·.resolve w.1.id (.s (valid ((mget 0 x.gph w.2).setWidth 64))))) s

/-- The completion test of a group barrier: every present member has arrived. -/
def State.grpComplete (s : State) (t g : Nat) : State :=
  let x := (s.tile t).grp g
  if x.count ≠ 0 ∧ x.gph.all (fun e => x.arr.contains e.1) then
    let ph := x.phase + 1
    (s.setGrp t g { x with phase := ph, arr := [], wait := x.wait.filter (fun w => tokOpen ph w.tok) }).releaseWait x.wait ph
  else s

/-- Answering a core with a scalar. -/
def State.answer (s : State) (c : CoreRef) (id : Nat) (v : SVal) : State := s.modCore c (·.resolve id (.s v))

/-- An invalid zero that is no acquire (12 R204). -/
def State.answerNo (s : State) (c : CoreRef) (id : Nat) : State :=
  (s.answer c id iz).modCore c (fun y =>
    { y with flights := y.flights.map (fun f => if f.id = id then { f with acq := none } else f) })

/-- A request applied at the group's home tile t, in the order of arrival (R194). BWAITs that still wait
at a group of COUNT 0 wait on when it is created again; a BAROVER record is written on the home tile, which is its VTILE (log 29). -/
def State.groupReq (s : State) (t : Nat) (c : CoreRef) (id : Nat) (r : GReq) : State :=
  let x := (s.tile t).grp r.g
  let m := r.arg.toNat
  let who := (s.core c).memberAt r.gen r.g
  match r.kind with
  | 0 =>
    let cx := s.core c
    if decide (1023 < m) || x.map.getLsbD m || who.isSome ||
        4 ≤ cx.groups.countP (fun e => e.gen == r.gen) then s.answer c id iz
    else
      let x := if x.count = 0 then { Group.init0 with wait := x.wait } else x
      let x := { x with map := x.map ||| ((1 : BitVec 1024) <<< m), count := x.count + 1, gph := mput x.gph m x.behind }
      let s := (s.setGrp t r.g x).modCore c (fun y => { y with groups := y.groups ++ [⟨r.g, m, r.gen⟩] })
      ((s.answer c id (valid (BitVec.ofNat 64 m))).grpComplete t r.g).gadvRelease t r.g
  | 1 =>
    match who with
    | none => s
    | some m =>
      let s := s.modCore c (fun y => { y with groups := y.groups.filter (fun e => !(e.g == r.g && e.gen == r.gen)) })
      -- its arrival in the open phase is counted first
      let s := (s.setGrp t r.g { x with arr := setIns x.arr m }).grpComplete t r.g
      let x := (s.tile t).grp r.g
      let x := { x with map := x.map &&& ~~~((1 : BitVec 1024) <<< m), count := x.count - 1, gph := mdel x.gph m,
                        arr := x.arr.filter (· != m) }
      ((s.setGrp t r.g x).grpComplete t r.g).gadvRelease t r.g
  | 3 => if who.isNone then s else (s.setGrp t r.g { x with allow := r.arg.setWidth 32 }).gadvRelease t r.g
  | 4 =>
    match who with
    | none => s.answer c id iz
    | some m =>
      let p := mget 0 x.gph m + 1
      let x := { x with gph := mput x.gph m p, gwait := x.gwait ++ [(⟨c, id, p⟩, m)] }
      (s.setGrp t r.g x).gadvRelease t r.g
  | 5 =>
    match who with
    | none => s.answer c id iz
    | some m =>
      if x.arr.contains m then
        (s.logTile t 0x0005 (coreBit c) (detail [(336, 0x8000 + r.g), (304, x.phase.toNat)])).answer c id iz
      else
        let s := (s.setGrp t r.g { x with arr := setIns x.arr m }).answer c id (valid (x.phase.setWidth 64))
        s.grpComplete t r.g
  | 6 =>
    let tok : W32 := r.arg.setWidth 32
    if who.isNone then s.answerNo c id
    else if tokOpen x.phase tok then s.setGrp t r.g { x with wait := x.wait ++ [⟨c, id, tok⟩] }
    else s.answer c id (valid (x.phase.setWidth 64))
  | _ =>
    if who.isSome ∧ x.phase.getLsbD 0 ≠ r.arg.getLsbD 0 then s.answer c id (valid r.arg) else s.answerNo c id

end Sys2Proof.Machine
end

