-- ==== Sys2Proof/Machine/Engine.lean ====
section
/-! DEFINITION. Engine commands (13 R210-R220, 22 R368-R378): their checks at issue, the scoreboard, the moves of a
transfer, the passes of the matrix unit and of the drain unit, and what happens when they finish. -/

namespace Sys2Proof.Machine

/-! ### Checks at issue (R369) -/

/-- The handle a pointer value names in a tile, or an empty one. -/
def State.engH (s : State) (t : Nat) (p : W64) : Handle :=
  (mfind (s.tile t).handles (pH p)).getD (Handle.fresh ⟨3, 0, 0, 0, 0⟩ 0 [])

/-- Step 2 of R369 for one pointer: WALK, the tile's own coordinate, the handle and its path, the extent of n bytes, the
alignment of the offset. None when all pass. -/
def State.engPtr (s : State) (t : Nat) (p : W64) (ok : Handle → Bool) (n align : Handle → Nat) : Option Nat :=
  if 3 < pWALK p then some ILLOP
  else if 256 * (p.toNat / 2 ^ 56 % 256) + pVX p ≠ (s.vtileBits t).toNat then some PROT
  else match s.handleIn t (pH p) with
    | none => some HNDL
    | some h =>
      if h.kind ≠ 0 || !ok h then some HNDL
      else if h.extent < pOFF p + n h then some HNDL
      else if pOFF p % align h ≠ 0 then some ALIGN
      else none

/-- A pointer names another tile. -/
def State.offTile (s : State) (t : Nat) (p : W64) : Bool := 256 * (p.toNat / 2 ^ 56 % 256) + pVX p != (s.vtileBits t).toNat

/-- The first check that fails decides. -/
def firstBad : List (Option Nat) → Option Nat
  | [] => none
  | some c :: _ => some c
  | none :: r => firstBad r

/-- A condition that traps. -/
def badIf (b : Bool) (code : Nat) : Option Nat := if b then some code else none

/-- Bits [63:53] and the alignment of a global address (R369 step 3). -/
def gBad (va : W64) (align : Nat) : Option Nat :=
  if 2 ^ 53 ≤ va.toNat then some PROT else if va.toNat % align ≠ 0 then some ALIGN else none

/-- The barrier of a command: 0-255 for a worker, 256-511 for a feeder (R368). -/
def engBar (c : CoreRef) (bar : BitVec 8) : Nat := bar.toNat + (if isFeeder c then 256 else 0)

/-- POST and BAR: BAR is zero where nothing is posted (R368). -/
def postLegal (post : BitVec 1) (bar : BitVec 8) : Bool := post == 1 || bar == 0

/-- What the core must wait for before it reads a command's descriptor, at issue: an acquire or a load of its own without its
value, or its own stores that are not performed (07 R136, R142, R143). -/
def State.engHold (s : State) (c : CoreRef) : Bool :=
  (s.core c).acqPending || (s.core c).flights.any Flight.isOpenLoad || s.buffered c

/-- The scoreboard holds 32 footprints (R214). -/
def VTile.boardFull (v : VTile) : Bool := 32 ≤ v.feet.length

/-- A channel holds 16 QUEUED or RUNNING transfers (R369 step 4). -/
def VTile.chanFull (v : VTile) (ch : Nat) : Bool :=
  16 ≤ v.xfers.countP (fun x => x.ch == ch && (x.st == .queued || x.st == .running))

/-- Eight matrix commands of the tile are outstanding. -/
def VTile.matFull (v : VTile) : Bool := 8 ≤ v.mq.length + v.dq.length

/-! ### The scoreboard (R214) -/

/-- Two footprints overlap and one of them writes the overlap. -/
def Foot.clash (a b : Foot) : Bool :=
  a.write.any (fun w => b.write.any w.near || b.reads.any w.near) || a.reads.any (fun r => b.write.any r.near)

/-- An older entry of the scoreboard holds a command back. -/
def VTile.heldBack (v : VTile) (order : Nat) (f : Foot) : Bool := v.feet.any (fun e => decide (e.1 < order) && e.2.clash f)

/-! ### Transfers: identifiers and finishing (R210, R211) -/

/-- Transfer t of a channel is complete. -/
def xComplete (done t : W32) : Bool := let k := (done - t).toNat; 1 ≤ k && k < 2 ^ 31

/-- DONE of a channel: the lowest identifier not finished, or NEXT. -/
def VTile.doneOf (v : VTile) (ch : Nat) : W32 :=
  let d := vget 0 v.chDone ch
  v.xfers.foldl (fun a x => if x.ch = ch ∧ (x.xid - d).toNat < (a - d).toNat then x.xid else a) (vget 0 v.chNext ch)

/-- XWAITs of a core that a channel's DONE ends. -/
def Core.xwaits (x : Core) (ch : Nat) (done : W32) : Core :=
  x.flights.foldl (fun x f => match f.kind with
    | .xwait k t => if k = ch ∧ xComplete done (BitVec.ofNat 32 t) then x.resolve f.id (.s (valid (done.setWidth 64))) else x
    | _ => x) x

/-- The move of a transfer to DONE: it leaves the tile's list, its pins are given up, DONE advances, XWAITs end, then
its bytes are posted. -/
def State.xferDone (s : State) (t : Nat) (x : Xfer) : State :=
  let s := { s with busy := mdel s.busy (2 ^ 40 + 2 ^ 20 * x.order + t) }
  let s := (s.unpin x.frames).modTile t (fun v =>
    let v := { v with xfers := v.xfers.filter (fun y => y.order != x.order) }
    let d := v.doneOf x.ch
    { v with chDone := vset v.chDone x.ch d, worker := v.worker.xwaits x.ch d, feeder := v.feeder.xwaits x.ch d })
  if x.post ∧ x.kind ≠ 1 then s.barPost t x.bar x.total else s

/-- A transfer of a tile by its place in tile issue order. -/
def VTile.xfer? (v : VTile) (o : Nat) : Option Xfer := v.xfers.find? (fun x => x.order == o)

/-- Replacing a transfer. -/
def State.setXfer (s : State) (t : Nat) (x : Xfer) : State :=
  s.modTile t (fun v => { v with xfers := v.xfers.map (fun y => if y.order = x.order then x else y) })

/-- A transfer that issues: it takes its identifier and its place in tile issue order. -/
def State.xferIssue (s : State) (c : CoreRef) (x : Xfer) : State × Xfer :=
  let t := tileOf c
  let v := s.tile t
  let x := { x with xid := vget 0 v.chNext x.ch, order := v.order, feeder := isFeeder c,
                    kern := (s.core c).task.map (·.kern), after := (s.core c).nextId }
  (s.setTile t { v with xfers := v.xfers ++ [x], order := v.order + 1,
                        chNext := vset v.chNext x.ch (x.xid + 1) }, x)

/-- A transfer with nothing set. -/
def Xfer.base : Xfer :=
  { xid := 0, ch := 0, kind := 0, feeder := false, dir := 0, post := false, bar := 0, hnd := 0, off := 0, hnd2 := 0,
    off2 := 0, gaddr := 0, total := 0, doneb := 0, rbox := 0, origin := [], desc := 0, st := .queued, cause := 0,
    sent := false, acks := 0, pins := [], foot := ⟨[], []⟩, kern := none, order := 0, after := 0 }

/-- Breaking the watches of both cores that a global range of virtual addresses overlaps (21 R353). -/
def State.breakV (s : State) (t va n : Nat) : State :=
  let f (x : Core) : Core :=
    { x with watches := x.watches.filter (fun w => !decide (w.a.toNat < va + n ∧ va < w.a.toNat + w.n)) }
  s.modTile t (fun v => { v with worker := f v.worker, feeder := f v.feeder })

/-! ### CPY and CPYM (R370, R371) -/

/-- The command's common end: the waits of R369 step 4, then issue. -/
def State.xferGo (s : State) (c : CoreRef) (x : Xfer) (after : State → Xfer → State) : Act :=
  let v := s.tile (tileOf c)
  if v.boardFull || v.chanFull x.ch then .wait s
  else
    let r := s.xferIssue c x
    .eff (after r.1 r.2)

/-- CPY after suppression. -/
def cpyBody (h1 h2 n : BitVec 6) (ch dir : Nat) (post : Bool) (bar : BitVec 8) (c : CoreRef) (s : State) : Act :=
  let t := tileOf c
  let p := (s.rdS c h1).v
  let g := (s.rdS c h2).v
  let k := (s.rdS c n).v.toNat % 2 ^ 32
  let any (_ : Handle) : Bool := true
  let lap := decide (dir = 2 ∧ pH p = pH g ∧ pOFF p < pOFF g + k ∧ pOFF g < pOFF p + k)
  match firstBad [s.engPtr t p any (fun _ => k) (fun _ => 8),
                  if dir = 2 then s.engPtr t g any (fun _ => k) (fun _ => 8) else none,
                  badIf lap HNDL, badIf (k % 8 != 0) ALIGN] with
  | some code => .trap code 0 s
  | none =>
    let l : Rng := ⟨pH p, pOFF p, pOFF p + k⟩
    let x : Xfer := { Xfer.base with
      ch := ch, kind := 0, dir := dir, post := post, bar := engBar c bar, hnd := pH p, off := pOFF p, total := k,
      hnd2 := if dir = 2 then pH g else 0, off2 := if dir = 2 then pOFF g else 0, gaddr := if dir = 2 then 0 else g,
      foot := if dir = 1 then ⟨[l], []⟩ else if dir = 2 then ⟨[⟨pH g, pOFF g, pOFF g + k⟩], [l]⟩ else ⟨[], [l]⟩ }
    let after (s : State) (x : Xfer) : State :=
      let s := if dir = 1 then s.breakV t g.toNat k else s
      if k = 0 then s.xferDone t x else s
    if dir = 2 then s.xferGo c x after
    else match gBad g 8 with
      | some code => .trap code g s
      | none =>
        if k = 0 then s.xferGo c x after
        else match s.gcheck (s.agentOf c) (s.needOf c (dir == 0) (dir == 1)) 8 8 g with
          | (s, .bad code va) => .trap code va s
          | (s, .busy) => .wait (s.busyWait c g)
          | (s, .hold) => .wait s
          | (s, .ok _ _) => s.xferGo c x after

/-- CPY (R370). -/
def execCpy (st : BitVec 3) (h1 h2 n : BitVec 6) (ch dir : BitVec 2) (post : BitVec 1) (bar : BitVec 8) (s : State) :
    Host.Outcome State Fault Refusal :=
  issue { opc := 0x70, st := st, n := 2,
          legal := fun k => sLegal k h1 && sLegal k h2 && sLegal k n && dir != 3 && postLegal post bar,
          srcs := [.s h1, .s h2, .s n], need := [.s h1, .s h2, .s n] } suppNone
    (cpyBody h1 h2 n ch.toNat dir.toNat (post == 1) bar) s

/-- The receivers of a box: none where it is empty, too large or not within the partition (R371). -/
def boxTiles (x : Ctx) (b : W64) : Option (List Nat) :=
  let vx := wf b 0 8
  let vy := wf b 8 8
  let w := wf b 16 8
  let h := wf b 24 8
  if w * h = 0 ∨ 256 < w * h ∨ x.width < vx + w ∨ x.height < vy + h then none
  else some ((rangeFrom vy h).flatMap (fun y => (rangeFrom vx w).map (fun z => absTile x z y)))

/-- CPYM after suppression. -/
def cpymBody (h1 h2 n : BitVec 6) (ch : Nat) (post : Bool) (bar : BitVec 8) (c : CoreRef) (s : State) : Act :=
  let t := tileOf c
  let p := (s.rdS c h1).v
  let b := (s.rdS c h2).v
  let k := (s.rdS c n).v.toNat % 2 ^ 32
  match firstBad [s.engPtr t p (fun _ => true) (fun _ => k) (fun _ => 8), badIf (k % 8 != 0) ALIGN,
                  badIf (boxTiles (s.ctxOfTile t) b).isNone PROT] with
  | some code => .trap code 0 s
  | none =>
    s.xferGo c { Xfer.base with
      ch := ch, kind := 1, post := post, bar := engBar c bar, hnd := pH p, off := pOFF p, total := k,
      rbox := b.setWidth 32, foot := ⟨[⟨pH p, pOFF p, pOFF p + k⟩], []⟩ } (fun s _ => s)

/-- CPYM (R371). -/
def execCpym (st : BitVec 3) (h1 h2 n : BitVec 6) (ch : BitVec 2) (post : BitVec 1) (bar : BitVec 8) (s : State) :
    Host.Outcome State Fault Refusal :=
  issue { opc := 0x70, st := st, n := 2, legal := fun k => sLegal k h1 && sLegal k h2 && sLegal k n,
          srcs := [.s h1, .s h2, .s n], need := [.s h1, .s h2, .s n] } suppNone
    (cpymBody h1 h2 n ch.toNat (post == 1) bar) s

/-! ### Tensor descriptors (R215, R216) -/

/-- Bits of a 512-bit record. -/
def rf (w : BitVec 512) (lo n : Nat) : Nat := w.toNat / 2 ^ lo % 2 ^ n

/-- SIZEd. -/
def dSize (w : BitVec 512) (d : Nat) : Nat :=
  match d with
  | 0 => rf w 416 32
  | 1 => rf w 384 32
  | 2 => rf w 352 32
  | _ => rf w 320 32

/-- STRIDEd, d 1-3. -/
def dStride (w : BitVec 512) (d : Nat) : Nat :=
  match d with
  | 1 => rf w 280 40
  | 2 => rf w 240 40
  | _ => rf w 200 40

def dFmt (w : BitVec 512) : Nat := rf w 455 4
def dTile0 (w : BitVec 512) : Nat := rf w 184 16
def dTile1 (w : BitVec 512) : Nat := rf w 168 16

/-- Elements per addressable unit: FP4 moves records of eight. -/
def dPer (w : BitVec 512) : Nat := if dFmt w = 10 then 8 else 1

/-- Bytes of a unit. -/
def dUnit (w : BitVec 512) : Nat := elemBytes (dFmt w)

/-- Bytes of one tile row. -/
def dRow (w : BitVec 512) : Nat := rowBytes (dFmt w) (dTile0 w)

/-- A descriptor with the origin's o0 is well formed (R215): no reserved value, no nonzero zero field. -/
def descGood (w : BitVec 512) (o0 : Int) : Bool :=
  let dims := rf w 453 2
  dFmt w != 0 && dFmt w < 11 && rf w 448 5 == 0 && rf w 0 136 == 0 &&
  (rangeFrom 0 4).all (fun d => dSize w d != 0 && (d ≤ dims || dSize w d == 1)) && dTile0 w != 0 && dTile1 w != 0 &&
  (dFmt w != 10 || (dSize w 0 % 8 == 0 && dTile0 w % 8 == 0 && o0 % 8 == 0))

/-- The global address of unit i of tile row j: none outside the tensor (R216). -/
def Xfer.unitVa (x : Xfer) (j i : Nat) : Option W64 :=
  let w := x.desc
  let o (d : Nat) : Int := x.origin.getD d 0
  let c0 := o 0 + i * dPer w
  let c1 := o 1 + j
  let ins (c : Int) (d : Nat) : Bool := 0 ≤ c && decide (c < (dSize w d : Int))
  if ins c0 0 && ins c1 1 && ins (o 2) 2 && ins (o 3) 3 then
    some (BitVec.ofInt 64 ((rf w 459 53 : Int) + c0 / (dPer w : Int) * (dUnit w : Int) + c1 * (dStride w 1 : Int) +
      o 2 * (dStride w 2 : Int) + o 3 * (dStride w 3 : Int)))
  else none

/-- The signed halves of an operand. -/
def halves (a : W64) : List Int := [(BitVec.ofNat 32 a.toNat).toInt, (BitVec.ofNat 32 (a.toNat / 2 ^ 32)).toInt]

/-- Reading the 64 bytes of a descriptor at its home slice. -/
def State.readDesc (s : State) (pas : List Nat) (z : Bool) : State × BitVec 512 :=
  let s := s.zpTouch z pas
  (s, lineBits (pas.map (memRead s.mem)))

/-- Breaking the watches that the rows of a TST overlap. -/
def State.breakTst (s : State) (t : Nat) (x : Xfer) : State :=
  (rangeFrom 0 (dTile1 x.desc)).foldl (fun s j =>
    (rangeFrom 0 (dTile0 x.desc / dPer x.desc)).foldl (fun s i => match x.unitVa j i with
      | some va => s.breakV t va.toNat (dUnit x.desc)
      | none => s) s) s

/-- TLD and TST after suppression (R372): the pointer, the descriptor's address, the descriptor, then the handle's
format, row, extent and offset. -/
def tensorBody (store : Bool) (h1 h2 n x : BitVec 6) (ch : Nat) (post : Bool) (bar : BitVec 8) (c : CoreRef)
    (s : State) : Act :=
  let t := tileOf c
  let p := (s.rdS c h1).v
  let g := (s.rdS c h2).v
  let org := halves (s.rdS c n).v ++ halves (s.rdS c x).v
  match s.engPtr t p (fun _ => true) (fun _ => 0) (fun _ => 1) with
  | some code => .trap code 0 s
  | none =>
    match gBad g 64 with
    | some code => .trap code g s
    | none =>
      if s.engHold c then .wait s
      else match s.gcheck (s.agentOf c) (s.needOf c true false) 64 64 g with
        | (s, .bad code va) => .trap code va s
        | (s, .busy) => .wait (s.busyWait c g)
        | (s, .hold) => .wait s
        | (s, .ok pas z) =>
          if s.memShut (s.coreRouter c) pas then .wait s else
          let r := s.readDesc pas z
          let s := r.1
          let w := r.2
          let h := s.engH t p
          let rowB := rowBytes h.fmt h.cols
          let len := (dTile1 w - 1) * rowB + dRow w
          match firstBad [badIf (!descGood w (org.headD 0)) ILLOP, badIf (h.fmt != dFmt w) HNDL,
                          badIf (decide (rowB < dRow w)) HNDL, badIf (decide (h.extent < pOFF p + len)) HNDL,
                          badIf (pOFF p % dUnit w != 0) ALIGN] with
          | some code => .trap code 0 s
          | none =>
            let l : Rng := ⟨pH p, pOFF p, pOFF p + len⟩
            s.xferGo c { Xfer.base with
              ch := ch, kind := if store then 3 else 2, post := post, bar := engBar c bar, hnd := pH p, off := pOFF p,
              gaddr := g, total := dTile1 w * dRow w, origin := org, desc := w,
              foot := if store then ⟨[l], []⟩ else ⟨[], [l]⟩ } (fun s x => if store then s.breakTst t x else s)

/-- TLD (R372). -/
def execTld (st : BitVec 3) (h1 h2 n : BitVec 6) (ch : BitVec 2) (post : BitVec 1) (bar : BitVec 8) (x : BitVec 6)
    (s : State) : Host.Outcome State Fault Refusal :=
  issue { opc := 0x71, st := st, n := 2,
          legal := fun k => sLegal k h1 && sLegal k h2 && sLegal k n && sLegal k x && postLegal post bar,
          srcs := [.s h1, .s h2, .s n, .s x], need := [.s h1, .s h2, .s n, .s x] } suppNone
    (tensorBody false h1 h2 n x ch.toNat (post == 1) bar) s

/-- TST (R372). -/
def execTst (st : BitVec 3) (h1 h2 n : BitVec 6) (ch : BitVec 2) (post : BitVec 1) (bar : BitVec 8) (x : BitVec 6)
    (s : State) : Host.Outcome State Fault Refusal :=
  issue { opc := 0x71, st := st, n := 2,
          legal := fun k => sLegal k h1 && sLegal k h2 && sLegal k n && sLegal k x && postLegal post bar,
          srcs := [.s h1, .s h2, .s n, .s x], need := [.s h1, .s h2, .s n, .s x] } suppNone
    (tensorBody true h1 h2 n x ch.toNat (post == 1) bar) s

/-! ### The moves of a running transfer (R211-R213, R128) -/

/-- What the next move of a transfer met; `busy`: a BUSY entry. -/
inductive Hop where
  | moved
  | stop
  | busy (va : W64)
  | fault (cause : Nat) (va : W64)
deriving DecidableEq, Repr

/-- Translating one global byte of a transfer: every page it translates is pinned once, whatever frame it
stands in (R128). -/
def State.xferXl (s : State) (t : Nat) (x : Xfer) (isWrite : Bool) (va : W64) : State × Xfer × (Nat × Bool × Hop) :=
  match s.translate { ctx := ((s.tile t).ctx).getD 256, tile := some t, chip := chipOf t } va
      ⟨!isWrite, isWrite, false, true⟩ with
  | (s, .ok pa z) =>
    let f := pa / 8192 * 8192
    let k := (va.toNat / 8192, f)
    if x.pins.contains k then (s, x, (pa, z, .moved))
    else if s.pinRefused [f] then (s, x, (0, false, .stop))
    else (s.pin [f], { x with pins := k :: x.pins }, (pa, z, .moved))
  | (s, .busy) => (s, x, (0, false, .busy va))
  | (s, .full) => (s, x, (0, false, .stop))
  | (s, .page) => (s, x, (0, false, .fault 1 va))
  | (s, .prot) => (s, x, (0, false, .fault 2 va))

/-- Translating the bytes of a move, those that have an address, in order. -/
def State.xferXls (s : State) (t : Nat) (x : Xfer) (isWrite : Bool) :
    List (Option W64) → State × Xfer × (List (Option Nat) × Bool × Hop)
  | [] => (s, x, ([], false, .moved))
  | none :: r =>
    match State.xferXls s t x isWrite r with
    | (s, x, (l, z, h)) => (s, x, (none :: l, z, h))
  | some va :: r =>
    match s.xferXl t x isWrite va with
    | (s, x, (pa, z, .moved)) =>
      match State.xferXls s t x isWrite r with
      | (s, x, (l, y, h)) => (s, x, (some pa :: l, z || y, h))
    | (s, x, (_, _, h)) => (s, x, ([], false, h))

/-- The local offset of a byte of a transfer: of the destination where both sides are local. -/
def Xfer.loc (x : Xfer) (rowB i : Nat) : Nat :=
  if x.kind = 2 ∨ x.kind = 3 then x.off + i / dRow x.desc * rowB + i % dRow x.desc else x.off + i

/-- The global address of a byte of a transfer; none for a byte outside a tensor, or of a transfer that has none. -/
def Xfer.va (x : Xfer) (i : Nat) : Option W64 :=
  if x.kind = 0 then (if x.dir = 2 then none else some (x.gaddr + BitVec.ofNat 64 i))
  else
    let q := i % dRow x.desc
    (x.unitVa (i / dRow x.desc) (q / dUnit x.desc)).map (· + BitVec.ofNat 64 (q % dUnit x.desc))

/-- Two bytes lie in one aligned unit of eight bytes of global memory. -/
def sameUnit : Option W64 → Option W64 → Bool
  | some a, some b => a.toNat / 8 == b.toNat / 8
  | _, _ => false

/-- A move may end before a byte: neither a granule of the local side (R212) nor an aligned unit of the global side (07 R132) goes
on there. -/
def Xfer.splits (x : Xfer) (rowB i : Nat) : Bool :=
  x.loc rowB (i - 1) / 16 != x.loc rowB i / 16 && !sameUnit (x.va (i - 1)) (x.va i)

/-- How many bytes the next move takes: up to the first place where it may end. -/
def Xfer.hopFrom (x : Xfer) (rowB : Nat) : Nat → Nat → Nat
  | 0, k => k
  | n + 1, k => if x.total ≤ x.doneb + k || x.splits rowB (x.doneb + k) then k else Xfer.hopFrom x rowB n (k + 1)

def Xfer.hopLen (x : Xfer) (rowB : Nat) : Nat := x.hopFrom rowB (x.total - x.doneb) 1

/-- The global addresses of the bytes of the next move. -/
def Xfer.vas (x : Xfer) (k : Nat) : List (Option W64) := (rangeFrom x.doneb k).map x.va

/-- The transfer writes global memory. -/
def Xfer.isWrite (x : Xfer) : Bool := (x.kind == 0 && x.dir == 1) || x.kind == 3

/-- The byte of FILL that stands for a byte outside the tensor. -/
def Xfer.fillByte (x : Xfer) (i : Nat) : Byte :=
  BitVec.ofNat 8 (rf x.desc 136 32 / 2 ^ (8 * (i % dRow x.desc % dUnit x.desc)))

/-- A kick that an engine's write to a NOTIFY word makes (09 R169): it carries the next tag of the core that issued the
transfer (16 R258). -/
def State.engKick (s : State) (t : Nat) (x : Xfer) (pas : List Nat) : State :=
  let qs := s.notifyOf pas
  let c : CoreRef := if x.feeder then .feeder t else .worker t
  if qs.isEmpty then s
  else (s.modCore c Core.nextSeq).kickAt (pas.headD 0) qs (agentNo c) (s.core c).seq.toNat

/-- Global writes of an engine: performed at the home slice, past L1, whose copies of their lines go (07 R136). -/
def State.engWrite (s : State) (t : Nat) (z : Bool) (bytes : List (Nat × Byte)) : State :=
  (s.homeWrite (((s.tile t).ctx).getD 256) z bytes).modTile t (fun v => { v with l1 := l1Drop v.l1 (bytes.map (·.1)) })

/-- The bytes of a move: each with its local offset, its physical address where it has one, and its number in the transfer. -/
structure MByte where
  o : Nat
  pa : Option Nat
  i : Nat

/-- The data of a move between local and global memory is moved, in one step. -/
def State.xferMoveBytes (s : State) (t : Nat) (x : Xfer) (l : List MByte) (z : Bool) : State :=
  let h := (mfind (s.tile t).handles x.hnd).getD (Handle.fresh ⟨3, 0, 0, 0, 0⟩ 0 [])
  let pas := l.filterMap (·.pa)
  if x.isWrite then
    let s := s.engWrite t z (l.filterMap (fun b => b.pa.map (fun a => (a, memRead h.data b.o))))
    s.engKick t x pas
  else
    let s := s.zpTouch z pas
    s.modHandle t x.hnd (·.write (l.map (fun b => (b.o, match b.pa with
      | some a => memRead s.mem a
      | none => x.fillByte b.i))) true)

/-- One move of a CPY, TLD or TST. -/
def State.xferHop (s : State) (t : Nat) (x : Xfer) : State × Xfer × Hop :=
  let h := (mfind (s.tile t).handles x.hnd).getD (Handle.fresh ⟨3, 0, 0, 0, 0⟩ 0 [])
  let rowB := rowBytes h.fmt h.cols
  let k := x.hopLen rowB
  if x.kind = 0 ∧ x.dir = 2 then
    let src := (mfind (s.tile t).handles x.hnd2).getD h
    (s.modHandle t x.hnd (·.write (atAddr (x.loc rowB x.doneb) (memReadN src.data (x.off2 + x.doneb) k)) true),
      { x with doneb := x.doneb + k }, .moved)
  else
    match s.xferXls t x x.isWrite (x.vas k) with
    | (s, x, (l, z, .moved)) =>
      if s.memShut (s.routerOf t) (l.filterMap id) || (x.isWrite && s.undoFull (((s.tile t).ctx).getD 256) (linesOf (l.filterMap id))) then
        (s, x, .stop)
      else
        (s.xferMoveBytes t x ((rangeFrom 0 k).map (fun i => ⟨x.loc rowB (x.doneb + i), l.getD i none, x.doneb + i⟩)) z,
          { x with doneb := x.doneb + k }, .moved)
    | (s, x, (_, _, hop)) => (s, x, hop)

/-- Moves until the transfer is done or something stops it, at most n. -/
def State.xferHops (s : State) (t : Nat) (x : Xfer) : Nat → State × Xfer × Hop
  | 0 => (s, x, .moved)
  | n + 1 =>
    if x.total ≤ x.doneb then (s, x, .moved)
    else match s.xferHop t x with
      | (s, x, .moved) => State.xferHops s t x n
      | r => r

/-- An agent waits at an address; gives whether it has done so for 1 ms (06 R122). -/
def State.waited (s : State) (key va : Nat) : State × Bool :=
  let since := match mfind s.busy key with
    | some e => if e.1 = va then e.2 else s.time
    | none => s.time
  ({ s with busy := mput s.busy key (va, since) }, decide (since + 1000000 ≤ s.time))

/-- A transfer among the agents that wait. -/
def xferAgent (t : Nat) (x : Xfer) : Nat := 2 ^ 40 + 2 ^ 20 * x.order + t

/-- The transfer waits for a page from now on, if it does not already. -/
def State.xferWaits (s : State) (t : Nat) (x : Xfer) (va : W64) : State := (s.waited (xferAgent t x) (va.toNat / 8192)).1

/-- A running transfer moves on by at most n moves; a fault sends it to the slow path (R213). -/
def State.xferMove (s : State) (t : Nat) (x : Xfer) (n : Nat) : State × Xfer :=
  match s.xferHops t x n with
  | (s, x, .fault cause va) =>
    let x := { x with st := .slow, cause := cause }
    ((s.setXfer t x).xferWaits t x va, x)
  | (s, x, .busy va) => ((s.setXfer t x).xferWaits t x va, x)
  | (s, x, _) => (s.setXfer t x, x)

/-- The multicast of a CPYM leaves: one item to each receiver, in class 0 (R217). -/
def State.xferCast (s : State) (t : Nat) (x : Xfer) : State :=
  let h := (mfind (s.tile t).handles x.hnd).getD (Handle.fresh ⟨3, 0, 0, 0, 0⟩ 0 [])
  let l := (boxTiles (s.ctxOfTile t) (x.rbox.setWidth 64)).getD []
  let s := s.setXfer t { x with sent := true, doneb := x.total, acks := l.length }
  l.foldl (fun s d => s.sendItem t d 0 (if x.feeder then .feeder t else .worker t) 0
    (.mcast x.hnd x.off (memReadN h.data x.off x.total) x.bar x.post x.ch x.xid)) s

/-! ### XWAIT and XSTAT (R373) -/

/-- XWAIT after suppression. -/
def xwaitBody (a b : BitVec 6) (d : BitVec 5) (c : CoreRef) (s : State) : Act :=
  let v := s.tile (tileOf c)
  let ch := (s.rdS c a).v.toNat % 4
  let t : W32 := (s.rdS c b).v.setWidth 32
  if (t - vget 0 v.chNext ch).toNat < 2 ^ 31 then .eff (s.known c d (.s iz) none)
  else if xComplete (vget 0 v.chDone ch) t then
    .eff (s.known c d (.s (valid ((vget 0 v.chDone ch).setWidth 64))) (some 1))
  else .eff (s.await c d (.scalar 8 false) (.xwait ch t.toNat) (some 1))

/-- XWAIT (R373). -/
def execXwait (st : BitVec 3) (a b : BitVec 6) (d : BitVec 5) (s : State) : Host.Outcome State Fault Refusal :=
  issue { opc := 0x72, st := st, legal := fun k => sLegal k a && sLegal k b && dLegal k d, srcs := [.s a, .s b],
          need := [.s a, .s b] } (suppVar .s d) (xwaitBody a b d) s

/-- XSTAT (R373): an acquire, at latency 2. -/
def execXstat (st : BitVec 3) (a : BitVec 6) (d : BitVec 5) (s : State) : Host.Outcome State Fault Refusal :=
  issue { opc := 0x72, st := st, legal := fun k => sLegal k a && dLegal k d, srcs := [.s a], need := [.s a] } (suppS d 2)
    (fun c s =>
      let v := s.tile (tileOf c)
      let ch := (s.rdS c a).v.toNat % 4
      let r := BitVec.ofNat 64 ((vget 0 v.chNext ch).toNat * 2 ^ 32 + (vget 0 v.chDone ch).toNat)
      .eff ((s.modCore c (·.outS d 2 (valid r))).acquire c 1)) s

/-! ### The matrix unit (R218, R374, R376) -/

/-- A pair of formats that MFMT takes. -/
def fmtPair (a b : BitVec 2) : Bool := (a == 0 && b == 0) || (a == 3 && b == 3) || ((a == 1 || a == 2) && (b == 1 || b == 2))

/-- MFMT (R374): an invalid lane makes only its own band invalid. -/
def execMfmt (st : BitVec 3) (a : BitVec 6) (af bf : BitVec 2) (s : State) : Host.Outcome State Fault Refusal :=
  issue { opc := 0x73, st := st, n := 2, legal := fun _ => vLegal a && fmtPair af bf, srcs := [.v a], need := [] } suppNone
    (fun c s =>
      let v := s.rdV c a
      let band (i : Nat) : Option (BitVec 16) :=
        let l := vget ⟨0, false⟩ v i
        if l.ok then some (l.v.setWidth 16) else none
      .done (s.modCore c (fun x => { x with r := { x.r with
        fmt := ⟨true, af, bf, [band 0, band 1, band 2, band 3], band 4⟩ } }))) s

/-- The handle format, the depth bytes and the row limit of a format of the context. -/
def ctxFmt (f : BitVec 2) : Nat := [10, 8, 9, 7].getD f.toNat 10
def ctxDepth (f : BitVec 2) : Nat := [80, 128, 128, 256].getD f.toNat 80
def ctxRows (f : BitVec 2) : Nat := [256, 128, 128, 64].getD f.toNat 256

/-- The formats that checks use: an invalid context counts as FP4 with FP4 (R218). -/
def FmtCtx.aEff (f : FmtCtx) : BitVec 2 := if f.valid then f.af else 0
def FmtCtx.bEff (f : FmtCtx) : BitVec 2 := if f.valid then f.bf else 0

/-- Row bytes of a handle. -/
def Handle.rowB (h : Handle) : Nat := rowBytes h.fmt h.cols

/-- An accumulator handle. -/
def Handle.isAcc (h : Handle) : Bool := h.level == 1 && h.fmt == 5 && h.cols == 64

/-- A matrix or drain command with nothing set. -/
def MCmd.base : MCmd :=
  { kind := 0, fmt := FmtCtx.none, ah := 0, aoff := 0, bh := 0, boff := 0, ch := 0, coff := 0, ih := 0, ioff := 0, m := 0,
    zero := false, rm := 0, post := false, bar := 0, running := false, foot := ⟨[], []⟩, gen := 0, kern := none,
    order := 0, after := 0, did := 0, flags := 0 }

/-- A matrix, drain or quantise command that issues. -/
def State.mcmdGo (s : State) (c : CoreRef) (m : MCmd) (drain : Bool) : Act :=
  let t := tileOf c
  let v := s.tile t
  if v.boardFull || v.matFull then .wait s
  else
    let x := s.core c
    let m := { m with fmt := x.r.fmt, gen := x.gen, kern := x.task.map (·.kern), order := v.order,
                      after := x.nextId }
    let v := { v with order := v.order + 1 }
    .eff (s.setTile t (if drain then { v with dq := v.dq ++ [m] } else { v with mq := v.mq ++ [m] }))

/-- MMA and MMAG after suppression. -/
def mmaBody (gather : Bool) (h1 h2 n acc ix : BitVec 6) (zero post : Bool) (bar : BitVec 8) (c : CoreRef) (s : State) :
    Act :=
  let t := tileOf c
  let f := (s.core c).r.fmt
  let a := (s.rdS c h1).v
  let b := (s.rdS c h2).v
  let m := (s.rdS c n).v.toNat % 2 ^ 32
  let r := (s.rdS c acc).v
  let i := (s.rdS c ix).v
  let ha := s.engH t a
  let hb := s.engH t b
  let okA (h : Handle) : Bool := h.level == 0 && h.fmt == ctxFmt f.aEff && decide (ctxDepth f.aEff ≤ h.rowB)
  let okB (h : Handle) : Bool := h.level == 2 && h.fmt == ctxFmt f.bEff
  match firstBad [badIf (m == 0 || decide (ctxRows f.aEff < m)) ILLOP,
                  s.engPtr t a okA (fun h => if gather then 0 else m * h.rowB) (fun h => h.rowB),
                  s.engPtr t b okB (fun h => 128 * h.rowB) (fun h => h.rowB),
                  badIf (f.bEff == 0 && pOFF b / hb.rowB % 8 != 0) ALIGN,
                  s.engPtr t r Handle.isAcc (fun _ => 256 * m) (fun _ => 256),
                  badIf (gather && decide (3 < pWALK i)) ILLOP, badIf (gather && s.offTile t i) PROT,
                  badIf (gather && pH i != pH a) HNDL,
                  if gather then s.engPtr t i (fun _ => true) (fun _ => 4 * m) (fun _ => 4) else none] with
  | some code => .trap code 0 s
  | none =>
    let ra : Rng := if gather then ⟨pH a, 0, ha.extent⟩ else ⟨pH a, pOFF a, pOFF a + m * ha.rowB⟩
    match s.mcmdGo c { MCmd.base with
      kind := if gather then 1 else 0, ah := pH a, aoff := pOFF a, bh := pH b, boff := pOFF b, ch := pH r, coff := pOFF r,
      ih := pH i, ioff := pOFF i, m := m, zero := zero, post := post, bar := engBar c bar,
      foot := ⟨[ra, ⟨pH b, pOFF b, pOFF b + 128 * hb.rowB⟩], [⟨pH r, pOFF r, pOFF r + 256 * m⟩]⟩ } false with
    | .eff s => .eff (s.gustNotice (chipOf t))
    | o => o

/-- MMA (R376). -/
def execMma (st : BitVec 3) (h1 h2 n : BitVec 6) (zero post : BitVec 1) (bar : BitVec 8) (acc : BitVec 6) (s : State) :
    Host.Outcome State Fault Refusal :=
  issue { opc := 0x74, st := st, n := 2,
          legal := fun k => sLegal k h1 && sLegal k h2 && sLegal k n && sLegal k acc && postLegal post bar,
          srcs := [.s h1, .s h2, .s n, .s acc], need := [.s h1, .s h2, .s n, .s acc] } suppNone
    (mmaBody false h1 h2 n acc 0 (zero == 1) (post == 1) bar) s

/-- MMAG (R376). -/
def execMmag (st : BitVec 3) (h1 h2 n : BitVec 6) (zero post : BitVec 1) (bar : BitVec 8) (acc ix : BitVec 6)
    (s : State) : Host.Outcome State Fault Refusal :=
  issue { opc := 0x74, st := st, n := 2,
          legal := fun k => sLegal k h1 && sLegal k h2 && sLegal k n && sLegal k acc && sLegal k ix && postLegal post bar,
          srcs := [.s h1, .s h2, .s n, .s acc, .s ix], need := [.s h1, .s h2, .s n, .s acc, .s ix] } suppNone
    (mmaBody true h1 h2 n acc ix (zero == 1) (post == 1) bar) s

/-- The bytes of column c of the B operand, in the order of a row (05 R105). -/
def bCol (f : BitVec 2) (data : Mem) (off c : Nat) (b : Nat) : Byte :=
  if f = 0 then memRead data (off + 320 * (b / 5) + 5 * c + b % 5)
  else
    let e := if f = 3 then 2 else 1
    memRead data (off + b / e * (64 * e) + c * e + b % e)

/-- The offset of the A row that a command takes as row r: none where a gathered index names no row. -/
def MCmd.aRow (m : MCmd) (ha hi : Handle) (r : Nat) : Option Nat :=
  if m.kind = 1 then
    let i : Int := (BitVec.ofNat 32 (memReadLE hi.data (m.ioff + 4 * r) 4)).toInt
    let row := (m.aoff / ha.rowB : Int) + i
    if 0 ≤ i ∧ row < (ha.rows : Int) then some (row.toNat * ha.rowB) else none
  else some (m.aoff + r * ha.rowB)

/-- One element of a pass (R376): the new bits, or none for an invalid zero, with its flags. -/
def MCmd.element (m : MCmd) (ha hb hi acc : Handle) (r c : Nat) : Option FRes :=
  let off := m.coff + 256 * r + 4 * c
  let old := if m.zero then some 0 else if acc.inval.contains (off / 4) then none else some (memReadLE acc.data off 4)
  match m.fmt.valid, m.aRow ha hi r with
  | true, some a =>
    passEl (matSum (ctxEl m.fmt.af.toNat (fun b => memRead ha.data (a + b)))
        (ctxEl m.fmt.bf.toNat (bCol m.fmt.bf hb.data m.boff c)) 128 0 ⟨0, false, false, false, false⟩)
      (m.fmt.bandA.getD (r / 64) none) m.fmt.bandB old
  | _, _ => none

/-- Writing an accumulator element: an invalid zero marks it invalid. -/
def Handle.putAcc (h : Handle) (off : Nat) (v : Option FRes) : Handle :=
  match v with
  | some r => h.write (atAddr off (natBytes 4 r.bits)) false
  | none =>
    let h := h.write (atAddr off (natBytes 4 0)) false
    { h with inval := setIns h.inval (off / 4) }

/-- All passes of an MMA or MMAG: the accumulator afterwards and the flags. -/
def MCmd.passes (m : MCmd) (ha hb hi acc : Handle) : Handle × BitVec 5 :=
  (rangeFrom 0 m.m).foldl (fun p r => (rangeFrom 0 64).foldl (fun q c =>
    let v := m.element ha hb hi q.1 r c
    (q.1.putAcc (m.coff + 256 * r + 4 * c) v, q.2 ||| ((v.map (·.flags)).getD 0))) p) (acc, 0)

/-- A handle of a tile, or an empty one. -/
def VTile.hd (v : VTile) (h : Nat) : Handle := (mfind v.handles h).getD (Handle.fresh ⟨3, 0, 0, 0, 0⟩ 0 [])

/-- The flags of a command (R96): to cr.fflags while the task that issued it runs, else to its kernel's status. -/
def State.engFlags (s : State) (t : Nat) (m : MCmd) (f : BitVec 5) : State :=
  if (s.tile t).worker.task.isSome ∧ (s.tile t).worker.gen = m.gen then s.modCore (.worker t) (·.raiseLate f false)
  else match m.kern with
    | some k => s.modKern k (fun x => { x with fflags := x.fflags ||| f })
    | none => s

/-- Completion of an MMA or MMAG at the head of the matrix unit's list. -/
def State.mmaDone (s : State) (t : Nat) (m : MCmd) : State :=
  let v := s.tile t
  let r := m.passes (v.hd m.ah) (v.hd m.bh) (v.hd m.ih) (v.hd m.ch)
  let s := s.modTile t (fun v => { v with mq := v.mq.drop 1, handles := mput v.handles m.ch r.1 })
  let s := s.engFlags t m r.2
  if m.post then s.barPost t m.bar (256 * m.m) else s

/-! ### The drain unit (R377, R378) -/

/-- MDRAIN's destination formats, and their conversion codes. -/
def drainFmt (f : Nat) : Bool := f == 5 || f == 6 || f == 7 || f == 8 || f == 9 || f == 10

/-- MDRAIN after suppression. -/
def mdrainBody (h1 h2 n : BitVec 6) (rm : BitVec 2) (post : Bool) (bar : BitVec 8) (c : CoreRef) (s : State) : Act :=
  let t := tileOf c
  let a := (s.rdS c h1).v
  let d := (s.rdS c h2).v
  let m := (s.rdS c n).v.toNat % 2 ^ 32
  let len (h : Handle) : Nat := (m - 1) * h.rowB + rowBytes h.fmt 64
  match firstBad [badIf (m == 0 || decide (256 < m)) ILLOP,
                  s.engPtr t a Handle.isAcc (fun _ => 256 * m) (fun _ => 256),
                  s.engPtr t d (fun h => h.level == 0 && drainFmt h.fmt && decide (64 ≤ h.cols)) len
                    (fun h => elemBytes h.fmt)] with
  | some code => .trap code 0 s
  | none =>
    s.mcmdGo c { MCmd.base with
      kind := 2, ah := pH a, aoff := pOFF a, ch := pH d, coff := pOFF d, m := m, rm := rm, post := post, bar := engBar c bar,
      foot := ⟨[⟨pH a, pOFF a, pOFF a + 256 * m⟩], [⟨pH d, pOFF d, pOFF d + len (s.engH t d)⟩]⟩ } true

/-- MDRAIN (R377). -/
def execMdrain (st : BitVec 3) (h1 h2 n : BitVec 6) (r : BitVec 2) (post : BitVec 1) (bar : BitVec 8) (s : State) :
    Host.Outcome State Fault Refusal :=
  issue { opc := 0x75, st := st, n := 2,
          legal := fun k => sLegal k h1 && sLegal k h2 && sLegal k n && postLegal post bar,
          srcs := [.s h1, .s h2, .s n], need := [.s h1, .s h2, .s n] } suppNone
    (mdrainBody h1 h2 n r (post == 1) bar) s

/-- QNT after suppression. Its count is checked before its pointers, a place that no rule gives (log 26). -/
def qntBody (h1 h2 n : BitVec 6) (rm : BitVec 2) (post : Bool) (bar : BitVec 8) (c : CoreRef) (s : State) : Act :=
  let t := tileOf c
  let a := (s.rdS c h1).v
  let d := (s.rdS c h2).v
  let k := (s.rdS c n).v.toNat % 2 ^ 32
  let o := 5 * k / 8
  match firstBad [badIf (k % 8 != 0 || k == 0 || decide (65536 < k)) ALIGN,
                  s.engPtr t a (fun h => h.level == 0 && h.fmt == 5) (fun _ => 4 * k) (fun _ => 4),
                  s.engPtr t d (fun h => h.level == 0 && h.fmt == 10) (fun _ => o) (fun _ => 1),
                  badIf (decide (pH a = pH d ∧ pOFF a < pOFF d + o ∧ pOFF d < pOFF a + 4 * k)) HNDL] with
  | some code => .trap code 0 s
  | none =>
    s.mcmdGo c { MCmd.base with
      kind := 3, ah := pH a, aoff := pOFF a, ch := pH d, coff := pOFF d, m := k, rm := rm, post := post, bar := engBar c bar,
      foot := ⟨[⟨pH a, pOFF a, pOFF a + 4 * k⟩], [⟨pH d, pOFF d, pOFF d + o⟩]⟩ } true

/-- QNT (R378). -/
def execQnt (st : BitVec 3) (h1 h2 n : BitVec 6) (r : BitVec 2) (post : BitVec 1) (bar : BitVec 8) (s : State) :
    Host.Outcome State Fault Refusal :=
  issue { opc := 0x75, st := st, n := 2,
          legal := fun k => sLegal k h1 && sLegal k h2 && sLegal k n && postLegal post bar,
          srcs := [.s h1, .s h2, .s n], need := [.s h1, .s h2, .s n] } suppNone
    (qntBody h1 h2 n r (post == 1) bar) s

/-- An FP32 element of a handle as a lane, with its validity. -/
def Handle.lane32 (h : Handle) (off : Nat) : Lane :=
  ⟨BitVec.ofNat 32 (memReadLE h.data off 4), !(h.level == 1 && h.inval.contains (off / 4))⟩

/-- One drained element in a format other than FP4 (R377): an invalid one is the canonical quiet NaN. -/
def drainEl (fmt : Nat) (rm : BitVec 2) (l : Lane) : List Byte × BitVec 5 :=
  match fmtCode (fmt - 5) with
  | some f =>
    if !l.ok then (natBytes (elemBytes fmt) f.nan, 0)
    else if fmt = 5 then (natBytes 4 l.v.toNat, 0)
    else
      let r := convert 0 (fmt - 5) rm.toNat (l.v.setWidth 64)
      (natBytes (elemBytes fmt) r.1.toNat, r.2)
  | none => ([], 0)

/-- n elements from an offset on, quantised in blocks of eight. -/
def quantBlocks (h : Handle) (off : Nat) (rm : BitVec 2) (n : Nat) : List Byte × BitVec 5 :=
  (rangeFrom 0 (n / 8)).foldl (fun p j =>
    let q := quantise ((rangeFrom 0 8).map (fun i => h.lane32 (off + 32 * j + 4 * i))) rm.toNat
    (p.1 ++ blockRecord q, p.2 ||| q.2.2)) ([], 0)

/-- The bytes of one drained row. -/
def drainRow (h : Handle) (off fmt : Nat) (rm : BitVec 2) : List Byte × BitVec 5 :=
  if fmt = 10 then quantBlocks h off rm 64
  else (rangeFrom 0 64).foldl (fun p c =>
    let e := drainEl fmt rm (h.lane32 (off + 4 * c))
    (p.1 ++ e.1, p.2 ||| e.2)) ([], 0)

/-- The writes of a drain or quantise command: bytes by offset, and the flags. -/
def MCmd.drained (m : MCmd) (src dst : Handle) : List (Nat × Byte) × BitVec 5 :=
  if m.kind = 2 then
    (rangeFrom 0 m.m).foldl (fun p r =>
      let d := drainRow src (m.aoff + 256 * r) dst.fmt m.rm
      (p.1 ++ atAddr (m.coff + r * dst.rowB) d.1, p.2 ||| d.2)) ([], 0)
  else
    let q := quantBlocks src m.aoff m.rm m.m
    (atAddr m.coff q.1, q.2)

/-- The elements of a unit in which a drain command proceeds: a row of MDRAIN counts 1, a record of QNT 8 (15 R239). -/
def MCmd.step (m : MCmd) : Nat := if m.kind = 2 then 1 else 8

/-- A drain command after its first n rows or records: its count and offsets advanced past them, with the flags they raised. -/
def MCmd.past (m : MCmd) (n rowB : Nat) (f : BitVec 5) : MCmd :=
  let k := n * m.step
  { m with m := m.m - k, did := m.did + k, flags := m.flags ||| f,
           aoff := m.aoff + n * (if m.kind = 2 then 256 else 32), coff := m.coff + n * (if m.kind = 2 then rowB else 5) }

/-- Some rows or records of the head of the drain unit's list are written, but not all that are left. -/
def State.drainRows (s : State) (t : Nat) (m : MCmd) (n : Nat) : State :=
  if m.m ≤ n * m.step then s
  else
    let v := s.tile t
    let dst := v.hd m.ch
    let r := { m with m := n * m.step }.drained (v.hd m.ah) dst
    (s.modHandle t m.ch (·.write r.1 true)).modTile t (fun v => { v with dq := m.past n dst.rowB r.2 :: v.dq.drop 1 })

/-- Completion of an MDRAIN or QNT at the head of the drain unit's list. -/
def State.drainDone (s : State) (t : Nat) (m : MCmd) : State :=
  let v := s.tile t
  let dst := v.hd m.ch
  let r := m.drained (v.hd m.ah) dst
  let s := (s.modHandle t m.ch (·.write r.1 true)).modTile t (fun v => { v with dq := v.dq.drop 1 })
  let s := s.engFlags t m (m.flags ||| r.2)
  let k := m.did + m.m
  if m.post then s.barPost t m.bar (if m.kind = 2 then k * rowBytes dst.fmt 64 else 5 * k / 8) else s

end Sys2Proof.Machine
end

