-- ==== Sys2Proof/Machine/Launch.lean ====
section
/-! DEFINITION. Instructions that leave the core for another agent: MSEND (13 R221, 21 R363), LAUNCH and DONE (21 R364,
R365), with the egress gate (10 R188, 16 R270). -/

namespace Sys2Proof.Machine

/-! ### MSEND -/

/-- A message addressed to a tile that is on its way. -/
def NetItem.msgTo (i : NetItem) (t : Nat) : Bool :=
  i.dst == t && (match i.body with
    | .msg _ => true
    | _ => false)

/-- Credit used up for a tile: messages on the stitch network, those that a drift holds among them, queued, or being run
(13 R222). -/
def State.msgLoad (s : State) (t : Nat) : Nat :=
  s.traffic.countP (·.msgTo t) + (s.tile t).msgs.length + (if (s.tile t).feeder.msgRun.isSome then 1 else 0)

/-- The payload: ages 4 to 0 of the scalar queue (R363). -/
def State.payload (s : State) (c : CoreRef) : List SVal := [4, 3, 2, 1, 0].map (fun a => s.rdS c (BitVec.ofNat 6 a))

/-- MSEND after suppression. -/
def msendBody (a : BitVec 6) (cls : BitVec 3) (imm : BitVec 32) (c : CoreRef) (s : State) : Act :=
  let p := (s.rdS c a).v
  let t := tileOf c
  let x := s.ctxOfTile t
  if x.width ≤ pVX p ∨ x.height ≤ p.toNat / 2 ^ 56 % 256 then .trap PROT 0 s
  else match s.fetchN c (relTarget (s.core c).blk.hdr imm) 2 with
    | (s, .fault code va) => .trap code va s
    | (s, .wait) => .wait s
    | (s, .ok bytes) =>
      let d := s.ptrTile c p
      let m : Msg := { src := t, cls := cls.toNat, seq := mget 0 (s.tile t).chOut (d * 8 + cls.toNat), tpl := wordsOf bytes,
                       pay := s.payload c, kern := (s.core c).task.map (·.kern), c := c, at' := (s.core c).nextId }
      if 16 ≤ s.msgLoad d then .wait s
      else if s.storeHeld c none || s.chanHeld c d cls.toNat then .eff (s.hold c 31 (.scalar 8 false) (.msg d m) none none)
      else .eff ((s.sendItem t d cls.toNat c 0 (.msg m)).modCore c (fun x => { x with nextId := x.nextId + 1 }))

/-- MSEND (R363): the payload is read like operands, its validity suppresses nothing. -/
def execMsend (st : BitVec 3) (a : BitVec 6) (cls : BitVec 3) (imm : BitVec 32) (s : State) :
    Host.Outcome State Fault Refusal :=
  issue { opc := 0x76, st := st, n := 2, legal := fun k => sLegal k a,
          srcs := [.s a, .s 4, .s 3, .s 2, .s 1, .s 0], need := [.s a] } suppNone (msendBody a cls imm) s

/-! ### LAUNCH -/

/-- The 64 bytes of the packet image, read as ordinary loads: buffered bytes and L1 lines are seen. -/
def State.packetBytes (s : State) (t : Nat) (pas : List Nat) (z : Bool) : State × List Byte :=
  let s := s.zpTouch z pas
  (s, ((s.tile t).snap true pas).map (fun b => b.v.getD (memRead s.mem b.pa)))

/-- The numbers of LAUNCH's tags (16 R258): one of its atomic, and the next one of its kick. -/
def Core.launchSeq (kick : Bool) (x : Core) : Core := if kick then x.nextSeq.nextSeq else x.nextSeq

/-- LAUNCH has its packet and its queue (a packet image that an acquire, an open load or a shut way holds is read later): it enters
the store path, where its read of RIDX is an acquire at SYS scope. -/
def launchGo (q : Nat) (kick : Bool) (pk : List Byte) (c : CoreRef) (s : State) : Act :=
  if 32 ≤ s.tagged c then .wait s
  else
    let l : LaunchReq := ⟨q, 0, pk, kick, (s.core c).seq.toNat⟩
    .eff ((s.modCore c (Core.launchSeq kick)).await c 31 (.scalar 8 false) (.launch l) (some 5))

/-- LAUNCH after suppression (R364). -/
def launchBody (a b : BitVec 6) (c : CoreRef) (s : State) : Act :=
  let va := (s.rdS c a).v
  let w := (s.rdS c b).v
  let q := w.toNat % 65536
  let user := kindOf c ≠ .sysm ∧ !(s.core c).sysMode
  if va.toNat % 64 ≠ 0 then .trap ALIGN va s
  else match mfind s.queues q with
    | none => .trap PROT 0 s
    | some qu =>
      if user ∧ s.ctxOfCore c ≠ some qu.ctxn then .trap PROT 0 s
      else if !qu.en then
        .eff (s.logCtx qu.ctxn 0x0009 (if kindOf c = .sysm then 0 else s.vtileBits (tileOf c))
          (match c with
            | .worker _ => 0
            | .feeder _ => 1
            | .sys _ _ => 3
            | .mgmt _ _ => 4) (detail [(336, q)]) 0)
      else match kindOf c with
        | .sysm =>
          match ownCheck c va.toNat 64 64 with
          | some code => .trap code va s
          | none =>
            if 32 ≤ s.tagged c then .wait s
            else .eff ((s.modCore c (Core.launchSeq (w.getLsbD 16))).ownIssue c 31 (.scalar 8 false) va.toNat 64
              (.image q (w.getLsbD 16) (s.core c).seq.toNat) none (some 5))
        | _ =>
          match s.gcheck (s.agentOf c) (s.needOf c true false) 64 64 va with
          | (s, .bad code va) => .trap code va s
          | (s, .busy) => .wait (s.busyWait c va)
          | (s, .hold) => .wait s
          | (s, .ok pas z) =>
            if (s.core c).acqPending || (s.core c).flights.any Flight.isOpenLoad || s.memShut (s.coreRouter c) pas then
              if 32 ≤ s.tagged c then .wait s
              else .eff (((s.modCore c (Core.launchSeq (w.getLsbD 16))).hold c 31 (.scalar 8 false)
                (.launch q (w.getLsbD 16) pas z (s.core c).seq.toNat) none (some 5)).markVa c [va])
            else
              let r := s.packetBytes (tileOf c) pas z
              launchGo q (w.getLsbD 16) r.2 c r.1

/-- LAUNCH (R364). -/
def execLaunch (st : BitVec 3) (a b : BitVec 6) (s : State) : Host.Outcome State Fault Refusal :=
  issue { opc := 0x77, st := st, legal := fun k => sLegal k a && sLegal k b, srcs := [.s a, .s b],
          need := [.s a, .s b] } suppNone (launchBody a b) s

/-! ### The egress gate (10 R188) -/

/-- The queue of a kernel is immediate (MODE 1). -/
def State.immediateK (s : State) (k : Option Nat) : Bool :=
  match k with
  | some k => (match mfind s.kernels k with
    | some x => x.immed
    | none => false)
  | none => false

/-- The chiplet whose gate a kernel's stores pass: the home of its queue. -/
def State.gateChip (s : State) (k : Option Nat) (t : Nat) : Nat :=
  match k.bind (mfind s.kernels) with
  | some x => (match mfind s.queues x.q with
    | some q => s.queueHome q
    | none => chipOf t)
  | none => chipOf t

/-- The gate of a chiplet has no room for some stores (1,024 in all). -/
def State.gateFull (s : State) (chip n : Nat) : Bool := 1024 < (s.chip chip).gate.length + n

/-- A store enters a gate, tagged with the lowest point not yet cut (16 R270). -/
def State.gatePut (s : State) (chip n pa : Nat) (v : W64) (kern : Option Nat) : State :=
  s.modChip chip (fun h => { h with gate := h.gate ++ [⟨n, (s.ctx n).epoch, pa, v, kern⟩] })

/-- A store that leaves the panel at once. -/
def State.leave (s : State) (n pa : Nat) (v : W64) : State := s.put n (atAddr pa (natBytes 8 v.toNat))

/-! ### DONE -/

/-- The store of DONE, once it is released, at its physical address: performed, or in the gate; none where there is no room.
`k` is the kernel of its task. -/
def State.doneWrite (s : State) (c : CoreRef) (pa : Nat) (z : Bool) (v : W64) (kick : List Nat) (seq : Nat)
    (k : Option Nat) : Option State :=
  let t := tileOf c
  let n := (s.ctxOfCore c).getD 256
  let bytes := atAddr pa (natBytes 8 v.toNat)
  if s.inHbm pa then
    if s.undoFull n (linesOf (rangeFrom pa 8)) || s.memShut (s.coreRouter c) (rangeFrom pa 8) then none
    else
      let s := (s.homeWrite n z bytes).kickAt pa kick (agentNo c) seq
      some (s.modTile t (fun x => { x with l1 := l1Update x.l1 bytes }))
  else if s.immediateK k then some (s.leave n pa v)
  else
    let chip := s.gateChip k t
    if s.gateFull chip 1 then none else some (s.gatePut chip n pa v none)

/-- DONE after its check: watches are broken at issue; the store is made once it is released, or held. One that kicks carries a
tag (16 R258). -/
def State.doneStore (s : State) (c : CoreRef) (pas : List Nat) (z : Bool) (v : W64) (va : W64) : Act :=
  let pa := pas.headD 0
  let sh : Shape := .scalar 8 false
  let k := (s.core c).task.map (·.kern)
  let seq := (s.core c).seq.toNat
  let kick := if s.inHbm pa then s.notifyOf pas else []
  if !kick.isEmpty && decide (32 ≤ s.tagged c) then .wait s
  else
    let s := s.storeIssue c pas va 8 kick
    if (s.core c).acqPending || !s.relReady c 5 then .eff ((s.hold c 31 sh (.done pa z v kick seq) (some 5) none).markVa c [va])
    else match s.doneWrite c pa z v kick seq k with
      | some s => .eff s
      | none => .eff ((if s.inHbm pa then s.hold c 31 sh (.done pa z v kick seq) (some 5) none
        else s.await c 31 sh (.gate pa v) none).markVa c [va])

/-- DONE after suppression (R365): the check, a release at SYS scope, then the store. -/
def doneBody (a b : BitVec 6) (c : CoreRef) (s : State) : Act :=
  let va := (s.rdS c a).v
  let v := (s.rdS c b).v
  match s.gcheck (s.agentOf c) (s.needOf c false true) 8 8 va with
  | (s, .bad code va) => .trap code va s
  | (s, .busy) => .wait (s.busyWait c va)
  | (s, .hold) => .wait s
  | (s, .ok pas z) => s.doneStore c pas z v va

/-- DONE (R365). -/
def execDoneI (st : BitVec 3) (a b : BitVec 6) (s : State) : Host.Outcome State Fault Refusal :=
  issue { opc := 0x77, aux := true, st := st, legal := fun k => sLegal k a && sLegal k b, srcs := [.s a, .s b],
          need := [.s a, .s b] } suppNone (doneBody a b) s

end Sys2Proof.Machine
end

