-- ==== Sys2Proof/Machine/Held.lean ====
section
/-! DEFINITION. Accesses that have issued and are held (07 R142-R144; 15 R239): when each may be performed, and its
performance, which is that of an access performed at its issue. -/

namespace Sys2Proof.Machine

/-! ### What is earlier -/

/-- Two lists of addresses share one. -/
def meetsPa (a b : List Nat) : Bool := a.any b.contains

/-- The global bytes that a held access will write. -/
def HeldOp.writePas : HeldOp → List Nat
  | .st b _ _ _ _ => b.map (·.1)
  | .win _ _ b _ _ _ => b.map (·.1)
  | .done pa _ _ _ _ => rangeFrom pa 8
  | _ => []

/-- The global bytes that a held access reads or writes. -/
def HeldOp.pas : HeldOp → List Nat
  | .ld l _ => l
  | .launch _ _ l _ _ => l
  | .atom a => rangeFrom a.pa a.n
  | o => o.writePas

/-- The global bytes that a flight is still to write. -/
def Flight.writePas (f : Flight) : List Nat :=
  match f.kind with
  | .held h => h.op.writePas
  | .gate pa _ => rangeFrom pa 8
  | _ => []

/-- Some earlier read of the core does not have its value: a write is not performed yet (07 R143). -/
def Core.readBefore (x : Core) (id : Nat) : Bool := (x.before id).any (·.isRead)

/-- The range of a bank of its own tile that a held access touches, and whether it writes. -/
def HeldOp.bankRng (o : HeldOp) : Option (Rng × Bool) :=
  match o with
  | .bank g off (.load n _) => some (⟨g, off, off + n⟩, false)
  | .bank g off (.store _ n _) => some (⟨g, off, off + n⟩, true)
  | .bank g off (.atomic a) => some (⟨g, off, off + a.n⟩, true)
  | _ => none

/-- A flight holds an access to a bank, in tile issue order before a place, that overlaps a range in a granule, one of the two
writing (13 R214). -/
def Flight.bankBefore (f : Flight) (ord : Nat) (r : Rng) (isWrite : Bool) : Bool :=
  match f.kind with
  | .held h => (match h.op.bankRng with
    | some (g, w) => decide (h.ord < ord) && g.near r && (w || isWrite)
    | none => false)
  | _ => false

/-- A command of the engines was accepted before a held access of a bank and overlaps it (07 R136, 13 R214). -/
def VTile.engineAhead (v : VTile) (h : Held) : Bool :=
  match h.op.bankRng with
  | some (r, w) => v.engineBefore h.ord r w
  | none => false

/-- The bank of a held access is in retention (16 R254). -/
def State.bankSleeps (s : State) (c : CoreRef) (o : HeldOp) : Bool :=
  match o.bankRng with
  | some (r, _) => s.sleeps (tileOf c) r.h r.lo (r.hi - r.lo)
  | none => false

/-- The handle of its own tile that a held access names. -/
def Flight.heldHandle (f : Flight) : Option Nat :=
  match f.kind with
  | .held h => (match h.op with
    | .bank g _ _ => some g
    | .win g _ _ _ _ _ => some g
    | _ => none)
  | _ => none

/-! ### When a held access is performed -/

/-- A held access writes. -/
def HeldOp.writes : HeldOp → Bool
  | .ld _ _ => false
  | .bank _ _ op => !op.loads
  | .acc _ _ _ op => !op.loads
  | .grp _ _ => false
  | .launch _ _ _ _ _ => false
  | .own _ _ op => (match op with
    | .ld => false
    | .image _ _ _ => false
    | _ => true)
  | _ => true

/-- A held access must follow an earlier one that is not performed: to bytes it shares, at its handle, or on its channel. -/
def State.heldAfter (s : State) (c : CoreRef) (id : Nat) (h : Held) : Bool :=
  let old := (s.core c).before id
  match h.op with
  | .bank g _ _ => old.any (fun f => f.heldHandle == some g)
  | .win g _ b _ _ _ => old.any (fun f => f.heldHandle == some g || meetsPa f.writePas (b.map (·.1)))
  | .barv _ => false
  | .own a n _ => old.any (s.ownAfter c a n)
  | o => match o.chan with
    | some ch => (s.tile (tileOf c)).chanBefore ch h.ord
    | none => old.any (fun f => meetsPa f.writePas o.pas)

/-- The store of a system core to CMD waits for the load of the slot it names (28 R419), and an access to global memory and the read
of a packet image for the way there. -/
def State.ownWaits (s : State) (c : CoreRef) (o : HeldOp) : Bool :=
  (match o with
    | .own a n _ => (ownKey c a).1 == 1 && s.memShut (s.coreRouter c) (rangeFrom (ownKey c a).2 n)
    | .launch _ _ pas _ _ => s.memShut (s.coreRouter c) pas
    | _ => false) ||
  match o with
  | .own a _ (.st b _ _) => placeOf c a == .slotB 0x200 && s.cmdWaits (chipOfCore c) (BitVec.ofNat 64 (leNat b))
  | _ => false

/-- A held access may be performed (07 R141-R144). -/
def State.heldReady (s : State) (c : CoreRef) (id : Nat) (h : Held) : Bool :=
  !((s.core c).before id).any (·.acq.isSome) && !(h.op.writes && (s.core c).readBefore id) &&
    (match h.rel with
      | some p => s.relAt c id p
      | none => true) && !s.heldAfter c id h && !(s.tile (tileOf c)).engineAhead h &&
    !s.bankSleeps c h.op && !s.ownWaits c h.op

/-- A flight is held and its access may not be performed yet. -/
def State.holdsOn (s : State) (c : CoreRef) (f : Flight) : Bool :=
  match f.kind with
  | .held h => !s.heldReady c f.id h
  | _ => false

/-! ### Its performance -/

/-- Replacing what a flight waits for. -/
def Core.setKind (x : Core) (id : Nat) (k : FKind) : Core :=
  { x with flights := x.flights.map (fun g => if g.id = id then { g with kind := k } else g) }

/-- A flight whose access is performed and that answers nothing. -/
def Core.endFlight (x : Core) (id : Nat) : Core := { x with flights := x.flights.filter (fun f => f.id != id), blocked := false }

/-- A held load goes to its home slice, or is served at once. -/
def State.heldLoad (s : State) (c : CoreRef) (f : Flight) (pas : List Nat) (z : Bool) : State :=
  let free := !((s.core c).before f.id).any Flight.isOpenLoad
  let l := (s.tile (tileOf c)).snap free pas
  match (if free then bytesKnown f.shape l else none) with
  | some v => s.modCore c (·.resolve f.id v)
  | none => s.modCore c (·.setKind f.id (.load ((s.tile (tileOf c)).ask free pas) z))

/-- A held access at a bank of the own tile, at its place in tile issue order. -/
def State.heldBank (s : State) (c : CoreRef) (f : Flight) (g off : Nat) (op : RemOp) (ord : Nat) : State :=
  let t := tileOf c
  match mfind (s.tile t).handles g with
  | none => s.modCore c (·.resolve f.id (zeroOf f.cls))
  | some h =>
    match op with
    | .load n fe =>
      if fe ≠ 0 then
        if h.allFull off n && !(s.tile t).consumeAhead ord g off n then
          let r := s.consume t g off n (fe == 2)
          r.1.modCore c (·.resolve f.id (f.shape.make r.2))
        else
          (s.modCore c (·.setKind f.id .await)).putWait t ⟨c, f.id, g, off, n, fe == 2, ord⟩
      else if s.winFetch c f.id h g off n then s.modCore c (·.setKind f.id (.window g off))
      else s.modCore c (·.resolve f.id (f.shape.make (h.read off n)))
    | .store b _ fe =>
      let s' := if h.isStale then s else s.modHandle t g (·.write b fe)
      s'.modCore c (·.endFlight f.id)
    | .atomic q =>
      let r := s.bankAtomic t g off q
      r.1.modCore c (·.resolve f.id (.s (valid r.2)))

/-- A held store through a window: its line, and the global store; neither where the window has lost its page. -/
def State.heldWin (s : State) (c : CoreRef) (f : Flight) (g : Nat) (b pb : List (Nat × Byte)) (u : Nat) (kick : List Nat)
    (seq : Nat) : State :=
  let t := tileOf c
  let s' : State := match mfind (s.tile t).handles g with
    | none => s
    | some h =>
      if h.isStale then s
      else (s.modHandle t g (·.writeLine b)).sbufPut c pb u true kick seq f.id f.kern (some g) []
  s'.modCore c (·.endFlight f.id)

/-- What a flight waits for once its item has left. -/
def NetBody.waitKind : NetBody → FKind
  | .grp r => GReq.waits r.kind
  | _ => .await

/-- A GADV for which a task that has ended held issue: its answer is awaited no longer (11 R195, R196). -/
def NetBody.dropped (b : NetBody) (f : Flight) : Bool :=
  match b with
  | .grp r => r.kind == 4 && !f.hold
  | _ => false

/-- An item that waited for its turn leaves; one that asks for an answer is awaited. -/
def State.heldSend (s : State) (c : CoreRef) (f : Flight) (dst cls : Nat) (b : NetBody) (asks : Bool) : State :=
  let s := s.sendAt (tileOf c) dst cls c (if asks then f.id else 0) b f.kern f.id
  s.modCore c (fun x => if asks && !b.dropped f then x.setKind f.id b.waitKind else x.endFlight f.id)

/-- The flags of an atomic's result, raised when it returns. -/
def Core.flagFlight (x : Core) (id : Nat) (f : BitVec 5) : Core :=
  { x with flights := x.flights.map (fun g => if g.id = id then { g with flags := g.flags ||| f } else g) }

/-- An access of a system or management core is performed. An atomic of global memory leaves its tag at its home slice
(16 R258). -/
def State.ownPerform (s : State) (c : CoreRef) (f : Flight) (a n : Nat) : OwnOp → State
  | .ld => s.modCore c (·.resolve f.id (f.shape.make ((s.ownLoad c a n).map (fun b => (b, true)))))
  | .st b kick seq =>
    let pa := (ownKey c a).2
    (((s.ownStore c a b).kickAt pa kick (agentNo c) seq)).modCore c (·.endFlight f.id)
  | .atom q =>
    let m := leNat (s.ownLoad c a n)
    let r := atomNew q.op n m q.x.toNat q.c.toNat
    let s := s.ownStore c a (natBytes n r.1)
    let s := if (ownKey c a).1 = 1 then s.putTag ((s.homeChip (ownKey c a).2).getD 0) (agentNo c) q.seq (BitVec.ofNat 64 m) else s
    s.modCore c (fun x => (x.resolve f.id (.s (valid (BitVec.ofNat 64 m)))).flagFlight f.id r.2)
  | .image q kick seq => s.modCore c (·.setKind f.id (.launch ⟨q, 0, s.ownLoad c a n, kick, seq⟩))

/-- A held access is performed (07 R142). -/
def State.perform (s : State) (c : CoreRef) (f : Flight) (h : Held) : State :=
  let t := tileOf c
  match h.op with
  | .ld pas z => s.heldLoad c f pas z
  | .st b u z k q => (s.sbufPut c b u z k q f.id f.kern none f.trs).modCore c (·.endFlight f.id)
  | .atom a => s.modCore c (·.setKind f.id (.atomic a))
  | .bank g off op => s.heldBank c f g off op h.ord
  | .win g b pb u k q => s.heldWin c f g b pb u k q
  | .acc dst g off op => s.heldSend c f dst 0 (.acc g off op) op.reads
  | .msg dst m =>
    if 16 ≤ s.msgLoad dst then s
    else s.heldSend c f dst m.cls (.msg { m with seq := mget 0 (s.tile t).chOut (dst * 8 + m.cls) }) false
  | .grp dst r => s.heldSend c f dst 0 (.grp r) (r.kind != 1 && r.kind != 3)
  | .barv b =>
    (match s.barArrive t (coreBit c) b with
      | (s, some p) => s.modCore c (·.resolve f.id (.s (valid (p.setWidth 64))))
      | (s, none) => s.modCore c (·.resolve f.id (.s iz)))
  | .own a n op => s.ownPerform c f a n op
  | .done pa z v k q =>
    (match s.doneWrite c pa z v k q f.kern with
      | some s => s.modCore c (·.endFlight f.id)
      | none => if s.inHbm pa then s else s.modCore c (·.setKind f.id (.gate pa v)))
  | .launch q kick pas z n =>
    let r := s.packetBytes t pas z
    r.1.modCore c (·.setKind f.id (.launch ⟨q, 0, r.2, kick, n⟩))

end Sys2Proof.Machine
end

