-- ==== Sys2Proof/Machine/System.lean ====
section
/-! DEFINITION. System instructions (02 R34-R37, 04 R101, 06 R126, 22 R384-R392): control registers, the return from
interrupts, interrupt enables, SLEEP, HALT and TLBINV. -/

namespace Sys2Proof.Machine

/-! ### Control registers -/

/-- A control register that R34 lists. -/
def crKnown (n : Nat) : Bool := n ≤ 8 || (0x10 ≤ n && n ≤ 0x13) || n == 0x18 || n == 0x19 || (0x20 ≤ n && n ≤ 0x24)

/-- Tile-only registers (†). -/
def crTile (n : Nat) : Bool := n == 0 || n == 1 || n == 3 || n == 4 || n == 5 || n == 8 || (0x10 ≤ n && n ≤ 0x13)

/-- Registers marked "sys". -/
def crSys (n : Nat) : Bool := 0x20 ≤ n && n ≤ 0x24

/-- Registers marked RO. -/
def crRO (n : Nat) : Bool := n ≤ 5 || (0x10 ≤ n && n ≤ 0x13) || n == 0x18 || n == 0x19

/-- Bits [52:6]. -/
def bits52_6 (v : W64) : W64 := BitVec.ofNat 64 (v.toNat % 2 ^ 53 / 64 * 64)

/-- cr.ptile of a tile (R35). -/
def State.ptileBits (s : State) (t : Nat) : Nat :=
  match s.physOf t with
  | some p => p / 272 / 8 * 2 ^ 20 + p / 272 % 8 * 2 ^ 16 + p % 272 / 16 * 2 ^ 8 + p % 16
  | none => chipOf t / 8 * 2 ^ 20 + chipOf t % 8 * 2 ^ 16 + 31 * 2 ^ 8 + t % 16

/-- Whether the core is a management core. -/
def isMgmt : CoreRef → Bool
  | .mgmt _ _ => true
  | _ => false

/-- The value CRD delivers. -/
def State.crRead (s : State) (c : CoreRef) (n : Nat) : SVal :=
  let x := s.core c
  let t := tileOf c
  let h := s.chip (chipOfCore c)
  if kindOf c = .sysm ∧ crTile n then iz
  else ⟨match n with
    | 0x00 => (s.vtileBits t).setWidth 64
    | 0x01 => BitVec.ofNat 64 (s.ptileBits t)
    | 0x02 => BitVec.ofNat 64 (s.clock c)
    | 0x03 => x.taskarg
    | 0x04 => x.taskid.setWidth 64
    | 0x05 => x.kreg
    | 0x06 => if x.check then 1 else 0
    | 0x07 => x.r.fflags.setWidth 64
    | 0x08 => if x.r.yund then 1 else 0
    | 0x10 => (vget 0 (s.tile t).chDone 0).setWidth 64
    | 0x11 => (vget 0 (s.tile t).chDone 1).setWidth 64
    | 0x12 => (vget 0 (s.tile t).chDone 2).setWidth 64
    | 0x13 => (vget 0 (s.tile t).chDone 3).setWidth 64
    | 0x18 => x.trap.setWidth 64
    | 0x19 => (x.trap >>> 64).setWidth 64
    | 0x20 => if isMgmt c then 0 else BitVec.ofNat 64 h.pw.eff
    | 0x21 => if kindOf c = .sysm then x.ytab else (s.tile t).ytab
    | 0x22 => if isMgmt c ∨ h.pw.gust ≠ .ready then 0 else 2
    | 0x23 => x.mcause
    | _ => x.jbase, true⟩

/-- A flight that may still raise a flag. -/
def Flight.mayFlag (f : Flight) : Bool :=
  f.flags != 0 || f.yund || (match f.kind with
    | .atomic a => a.op == 10
    | .busy _ (some a) => a.op == 10
    | .held h => (match h.op with
      | .atom a => a.op == 10
      | .own _ _ (.atom a) => a.op == 10
      | _ => false)
    | _ => false)

/-- An earlier instruction of the core that can raise a flag has not completed, a command of an ended task among them (R101). -/
def State.flagsOpen (s : State) (c : CoreRef) : Bool :=
  (s.core c).flights.any (fun f => f.flagger || f.mayFlag) ||
  (match c with
    | .worker t => !((s.tile t).mq ++ (s.tile t).dq).isEmpty
    | _ => false)

/-- CRD's effect. -/
def crdBody (d : BitVec 5) (n : Nat) (c : CoreRef) (s : State) : Act :=
  if (n = 7 ∨ n = 8) ∧ s.flagsOpen c then .wait s
  else
    let s1 := s.modCore c (·.outS d 2 (s.crRead c n))
    if kindOf c ≠ .sysm ∧ 0x10 ≤ n ∧ n ≤ 0x13 then .eff (s1.acquire c 1) else .eff s1

/-- CRD (R384). -/
def execCrd (st : BitVec 3) (d : BitVec 5) (n : BitVec 16) (s : State) : Host.Outcome State Fault Refusal :=
  issue { opc := 0x78, st := st, sysReg := crSys n.toNat, legal := fun k => crKnown n.toNat && dLegal k d, srcs := [],
          need := [] } suppNone (crdBody d n.toNat) s

/-- The effect of a write to a register that is not RO. -/
def State.crWrite (s : State) (c : CoreRef) (n : Nat) (v : W64) : State :=
  match n with
  | 0x06 => s.modCore c (fun x => { x with check := v.getLsbD 0 })
  | 0x07 => s.modCore c (fun x => { x with r := { x.r with fflags := v.setWidth 5 } })
  | 0x08 => s.modCore c (fun x => { x with r := { x.r with yund := v.getLsbD 0 } })
  | 0x20 => if isMgmt c then s else s.modChip (chipOfCore c) (fun h => { h with pw := h.pw.write 0x010 v })
  | 0x21 =>
    if kindOf c = .sysm then s.modCore c (fun x => { x with ytab := bits52_6 v })
    else s.modTile (tileOf c) (fun x => { x with ytab := bits52_6 v })
  | 0x22 => if isMgmt c || !v.getLsbD 0 then s else s.gustNotice (chipOfCore c)
  | 0x23 => s.modCore c (fun x => { x with mcause := v &&& ~~~((3 : W64) <<< 53) })
  | 0x24 => s.modCore c (fun x => { x with jbase := bits52_6 v })
  | _ => s

/-- CWR's effect after suppression. -/
def cwrBody (a : BitVec 6) (n : Nat) (c : CoreRef) (s : State) : Act :=
  if crRO n then .trap PROT 0 s
  else if (n = 7 ∨ n = 8) ∧ s.flagsOpen c then .wait s
  else .eff (s.crWrite c n (s.rdS c a).v)

/-- CWR (R384): a tile-only register does not exist on system and management cores (R34). -/
def execCwr (st : BitVec 3) (a : BitVec 6) (n : BitVec 16) (s : State) : Host.Outcome State Fault Refusal :=
  issue { opc := 0x79, st := st, sysReg := crSys n.toNat,
          legal := fun k => crKnown n.toNat && sLegal k a && !(k == .sysm && crTile n.toNat), srcs := [.s a],
          need := [.s a] } suppNone (cwrBody a n.toNat) s

/-! ### The save handler (08 R151, R157) -/

/-- Bytes to a given length, with zeros after them. -/
def padTo (n : Nat) (l : List Byte) : List Byte := (l ++ List.replicate n 0).take n

/-- Some bits as bytes, the first the lowest. -/
def bitBytes (l : List Bool) : List Byte :=
  natBytes ((l.length + 7) / 8) (l.zipIdx.foldl (fun a e => if e.1 then a + 2 ^ e.2 else a) 0)

/-- The format context as 16 bytes: its validity, the two formats, the validity of the five bands, their scales. -/
def FmtCtx.bytes (f : FmtCtx) : List Byte :=
  let bands := (rangeFrom 0 4).map (fun i => f.bandA.getD i Option.none) ++ [f.bandB]
  bitBytes [f.valid] ++ natBytes 1 f.af.toNat ++ natBytes 1 f.bf.toNat ++ bitBytes (bands.map Option.isSome) ++
    bands.flatMap (fun b => natBytes 2 (b.getD 0).toNat) ++ natBytes 2 0

/-- The register area of a core, 2 KiB of a slot's 4 (R151, R157): what LIVE has left of the scalars and vectors; pointers, loop
counters, yarns; the loop stack; cr.check, cr.fflags, cr.ystat, cr.trap; the block's address; then the validity bits in the same
order and the format context. The order is R157's; widths and padding are the model's choice (log 39). -/
def Core.regArea (x : Core) (t : Option W64) : List Byte :=
  let b := x.r.norm
  let sv (l : List (Cell SVal)) : List Byte := l.flatMap (fun c => natBytes 8 c.val.v.toNat)
  let lanes := x.r.v.toList.flatMap (fun c => c.val.toList)
  let loop (i : Nat) : List Byte := match b.loops[i]? with
    | some e => natBytes 8 e.k ++ natBytes 8 e.body.toNat ++ natBytes 8 e.exit.toNat
    | none => natBytes 24 0
  padTo 2048
    (sv b.s.toList ++ lanes.flatMap (fun l => natBytes 4 l.v.toNat) ++ sv x.r.p.toList ++ sv b.k.toList ++
      x.r.y.toList.flatMap (fun c => natBytes 16 c.val.v.toNat) ++ natBytes 8 b.loops.length ++ (rangeFrom 0 4).flatMap loop ++
      natBytes 8 (if x.check then 1 else 0) ++ natBytes 8 x.r.fflags.toNat ++ natBytes 8 (if x.r.yund then 1 else 0) ++
      natBytes 16 x.trap.toNat ++ natBytes 8 (t.getD 0).toNat ++
      bitBytes (b.s.toList.map (·.val.ok) ++ lanes.map (·.ok) ++ x.r.p.toList.map (·.val.ok) ++ b.k.toList.map (·.val.ok) ++
        x.r.y.toList.map (·.val.ok)) ++ x.r.fmt.bytes)

/-- Where slot k of a save area stands (R151). -/
def slotAt (save k : Nat) : Nat := save + 6815744 * k

/-- The slot of a tile: its place in the partition, row by row. -/
def State.slotOf (s : State) (t : Nat) : Nat :=
  let x := s.ctxOfTile t
  slotAt x.save ((t / 128 - x.vy0) * x.width + (t % 128 - x.vx0))

/-- The end of the save handler: the register area is written, and the core issues nothing more. -/
def State.saveEnd (s : State) (c : CoreRef) (t : Option W64) : State :=
  let x := s.core c
  let a := s.slotOf (tileOf c) + (if isFeeder c then 2048 else 0)
  { s with mem := memWriteN s.mem a (x.regArea t) }.setCore c
    { x with phase := match t with
      | some t => .paused t
      | none => .idle }

/-- ERET's effect (R387): on a tile core it ends the save handler (08 R157). -/
def eretBody (c : CoreRef) (s : State) : Act :=
  let x := s.core c
  match kindOf c with
  | .sysm => if x.inh then .stop (s.setCore c x.eret) else .trap ILLOP 0 s
  | _ =>
    match x.phase with
    | .saving t => .stop (s.saveEnd c t)
    | _ => .trap ILLOP 0 s

/-- ERET (R387). -/
def execEret (st : BitVec 3) (s : State) : Host.Outcome State Fault Refusal :=
  issue { opc := 0x7a, st := st, legal := fun _ => true, srcs := [], need := [] } suppNone eretBody s

/-- INTEN (R388): the change applies from the next block entry; on a tile core in system mode ILLOP (R390). -/
def execInten (st : BitVec 3) (a : BitVec 6) (s : State) : Host.Outcome State Fault Refusal :=
  issue { opc := 0x7b, st := st, legal := fun k => sLegal k a && k == .sysm, srcs := [.s a], need := [.s a] } suppNone
    (fun c s => .eff (s.modCore c (fun x => { x with ienNext := x.ienNext ||| (s.rdS c a).v.setWidth 3 }))) s

/-- INTDIS (R388). -/
def execIntdis (st : BitVec 3) (a : BitVec 6) (s : State) : Host.Outcome State Fault Refusal :=
  issue { opc := 0x7b, st := st, legal := fun k => sLegal k a && k == .sysm, srcs := [.s a], need := [.s a] } suppNone
    (fun c s => .eff (s.modCore c (fun x => { x with ienNext := x.ienNext &&& ~~~((s.rdS c a).v.setWidth 3) }))) s

/-- SLEEP (R389): it ends its block; with a wake bit already set the next header is entered at once. -/
def execSleep (st : BitVec 3) (s : State) : Host.Outcome State Fault Refusal :=
  issue { opc := 0x7c, st := st, legal := fun k => k == .sysm, srcs := [], need := [] } suppNone
    (fun c s =>
      let x := s.core c
      .stop (s.setCore c { x with phase := if s.wakeBit c then .entering x.blk.next .fall else .sleeping x.blk.next })) s

/-- HALT (R390). -/
def execHalt (st : BitVec 3) (s : State) : Host.Outcome State Fault Refusal :=
  issue { opc := 0x7e, st := st, legal := fun k => k == .sysm, srcs := [], need := [] } suppNone
    (fun c s => .stop (s.haltCore c (mcauseVal 4 0 false (s.core c).blk.hdr))) s

/-! ### TLBINV (06 R126) -/

/-- A cached translation that a form of TLBINV removes: 0 page, 1 context, 2 all. -/
def TlbE.killed (e : TlbE) (form ctx va : Nat) : Bool :=
  form == 2 || (e.ctx == ctx && (form == 1 || e.vpn == va / 2 ^ (13 + 10 * e.level)))

/-- Removing translations from every L1 and shared TLB of the panel. -/
def State.tlbKill (s : State) (form ctx va : Nat) : State :=
  let keep (l : List TlbE) : List TlbE := l.filter (fun e => !e.killed form ctx va)
  { s with tiles := mmapv (fun (v : VTile) => { v with tlb := keep v.tlb }) s.tiles,
           chips := mmapv (fun (h : Chip) => { h with tlb := keep h.tlb }) s.chips }

/-- TLBINV's effect: the translations are gone; the core issues nothing until TLBINV_COMPLETE. -/
def tlbinvBody (form : Nat) (w : CoreRef → State → W64) (c : CoreRef) (s : State) : Act :=
  let v := w c s
  let ctx := wf v 56 8
  let va := wf v 13 40 * 8192
  .eff ((s.tlbKill form ctx va).modCore c (fun x => x.launch .s 31
    { Flight.base with kind := .tlbinv form ctx va, hold := true }))

/-- TLBINV.page (R126). -/
def execTlbinvPage (st : BitVec 3) (a : BitVec 6) (s : State) : Host.Outcome State Fault Refusal :=
  issue { opc := 0x7d, st := st, legal := fun k => sLegal k a, srcs := [.s a], need := [.s a] } suppNone
    (tlbinvBody 0 (fun c s => (s.rdS c a).v)) s

/-- TLBINV.ctx (R126). -/
def execTlbinvCtx (st : BitVec 3) (a : BitVec 6) (s : State) : Host.Outcome State Fault Refusal :=
  issue { opc := 0x7d, st := st, legal := fun k => sLegal k a, srcs := [.s a], need := [.s a] } suppNone
    (tlbinvBody 1 (fun c s => (s.rdS c a).v)) s

/-- TLBINV.all (R126). -/
def execTlbinvAll (st : BitVec 3) (s : State) : Host.Outcome State Fault Refusal :=
  issue { opc := 0x7d, st := st, legal := fun _ => true, srcs := [], need := [] } suppNone
    (tlbinvBody 2 (fun _ _ => 0)) s

end Sys2Proof.Machine
end

