-- ==== Sys2Proof/Machine/EvCore.lean ====
section
/-! DEFINITION. Events of the cores: block entry (19 R301, 03 R45-R48, R59, 02 R41), delivery of results (03 R57), block
replay (16 R256, R257), waking (22 R389), task entry (10 R183), stealing (09 R175) and stitch messages (13 R222).

An event that is not due leaves the state as it is. -/

namespace Sys2Proof.Machine

/-- An event at a core. -/
def atCore (c : CoreRef) (f : State → State) (s : State) : Host.Outcome State Fault Refusal :=
  if coreExists c then .next (f s) else .fault .noSuchCore

/-- An event at a virtual tile, chiplet, or any agent numbered below a bound. -/
def atUnit (n bound : Nat) (f : State → State) (s : State) : Host.Outcome State Fault Refusal :=
  if n < bound then .next (f s) else .fault .noSuchCore

/-- An event at a virtual tile. -/
def atTile (t : Nat) (f : State → State) (s : State) : Host.Outcome State Fault Refusal := atUnit t 16384 f s

/-- An event at a chiplet. -/
def atChip (h : Nat) (f : State → State) (s : State) : Host.Outcome State Fault Refusal := atUnit h 64 f s

/-! ### Pauses (02 R42, 08 R156, 15 R239, 16 R267) -/

/-- The drift of a tile whose traffic still takes two ways (15 R241). -/
def State.driftAt (s : State) (t : Nat) : Option Drift :=
  match (s.chip (chipOf t)).drift with
  | some d => if d.tile = t then some d else none
  | none => none

/-- The drift in progress on a tile, if there is one: until its cores go on at the landing tile (15 R242). -/
def State.driftOf (s : State) (t : Nat) : Option Drift := (s.driftAt t).filter (fun d => !d.resumed)

/-- Routers: 17,408 of tiles, by physical tile, and 64 more at the edges of the panel; the number after them stands for all that
have not applied a change yet (log 14). -/
def nRouters : Nat := 17472

/-- A router has applied the entry of a drift. -/
def Drift.knows (d : Drift) (p : Nat) : Bool := d.applied.contains p || d.applied.contains nRouters

/-- A marker wave of the context is under way. -/
def Ctx.cutting (x : Ctx) : Bool :=
  match x.points with
  | p :: _ => p.st == .cutting
  | [] => false

/-- The cores of a tile are to pause at their next block entry. -/
def State.pauseWanted (s : State) (t : Nat) : Bool :=
  let x := s.ctxOfTile t
  (x.stopFor.isSome && !x.stopRetry) || x.cutting || (s.driftOf t).isSome || x.st != .running

/-- A core that issues nothing at a block entry, or has no task. -/
def Core.quiet (x : Core) : Bool :=
  x.msgRun.isNone && (match x.phase with
    | .idle => true
    | .paused _ => true
    | _ => false)

/-- Both cores of a tile are paused. -/
def VTile.quiet (v : VTile) : Bool := v.worker.quiet && v.feeder.quiet

/-- A tile at its freeze: its engines start nothing (15 R239, 16 R267). -/
def State.frozen (s : State) (t : Nat) : Bool :=
  (match s.driftOf t with
    | some d => d.phase != .drain
    | none => false) || ((s.ctxOfTile t).cutting && (s.tile t).quiet)

/-! ### Block entry -/

/-- The loop check of an entry (R301): the innermost loop whose exit header is entered, loops inside it abandoned. -/
def Bank.resolve (b : Bank) (t : W64) : List LoopEntry → Bank × W64
  | [] => (b, t)
  | e :: r =>
    if t = e.exit then
      let k := (vget ic b.k e.k).val
      if !k.ok then ({ b with loops := r }, t)
      else if k.v.toNat ≤ 1 then ({ b with loops := r, k := vset b.k e.k (Cell.mk0 ⟨0, true⟩) }, t)
      else ({ b with loops := e :: r, k := vset b.k e.k (Cell.mk0 ⟨k.v - 1, true⟩) }, e.body)
    else Bank.resolve b t r

/-- The counter of the innermost loop whose exit header is entered is still in flight: the entry waits for it (03 R57). -/
def Bank.loopWaits (b : Bank) (t : W64) : Bool :=
  match b.loops.find? (fun e => e.exit == t) with
  | some e => (vget ic b.k e.k).pend.isSome
  | none => false

/-- A cell whose fixed-latency value has been delivered. -/
def Cell.settle {α : Type} (c : Cell α) : Cell α := { c with ready := 0 }

/-- A register kept or cleared under LIVE. -/
def Cell.live {α : Type} (keep : Bool) (z : α) (c : Cell α) : Cell α := if keep then c.settle else Cell.mk0 z

/-- Registers kept by their bits. -/
def liveList {α : Type} (live : Nat) (z : α) : Nat → List (Cell α) → List (Cell α)
  | _, [] => []
  | i, c :: r => c.live (live / 2 ^ i % 2 = 1) z :: liveList live z (i + 1) r

/-- The length of a list is kept. -/
theorem liveList_length {α : Type} (live : Nat) (z : α) (l : List (Cell α)) :
    ∀ i, (liveList live z i l).length = l.length := by
  induction l with
  | nil => intro i; rfl
  | cons c r ih => intro i; simp [liveList, ih]

/-- Registers of a vector kept by their bits. -/
def liveVec {α : Type} {n : Nat} (live : Nat) (z : α) (v : Vector (Cell α) n) : Vector (Cell α) n :=
  ⟨⟨liveList live z 0 v.toList⟩, by simp [liveList_length]⟩

/-- The clearing of a block entry in a bank (R41): the queue is empty, named scalars follow LIVE.S. -/
def Bank.enter (b : Bank) (live : Nat) : Bank :=
  { b with q := Ring.empty iz, s := liveVec live iz b.s, k := vmap Cell.settle b.k }

/-- The clearing of a block entry (R41). -/
def Core.clearLive (x : Core) (head : W64) : Core :=
  let x := x.setBank (x.bank.enter (wf head 24 16))
  { x with r := { x.r with vq := Ring.empty vz, v := liveVec (wf head 40 8) vz x.r.v, p := vmap Cell.settle x.r.p,
                           y := vmap Cell.settle x.r.y } }

/-- What the header check finds (R47, R48). -/
inductive HChk where
  | good
  | badTgt (hdr : W64) (word : Nat)
  | badHdr
deriving DecidableEq, Repr

/-- The header check. -/
def headerCheck (head : W64) (how : Entry) : HChk :=
  let tag := wf head 56 8
  let len := wf head 48 8
  let tagBad := tag ≠ 0xb5 ∧ tag ≠ 0xb6
  let rest := tagBad ∨ len = 0 ∨ len = 255 ∨ wf head 0 3 ≠ 0
  match how with
  | .branch hdr word => if tagBad then .badTgt hdr word else if rest then .badHdr else .good
  | .start => if rest ∨ tag ≠ 0xb6 then .badHdr else .good
  | .interrupt => if rest ∨ tag ≠ 0xb6 then .badHdr else .good
  | _ => if rest then .badHdr else .good

/-- The vector of the interrupt a core takes at a block entry (R386): MC, TH, QE, TM in this order. -/
def State.irq (s : State) (c : CoreRef) : Option Nat :=
  let x := s.core c
  if x.inh then none
  else if x.mc then some 3
  else if x.ien.getLsbD 1 && s.thPending c then some 1
  else if x.ien.getLsbD 2 && x.qe then some 2
  else if x.ien.getLsbD 0 && s.tmPending c then some 0
  else none

/-- The end of a block entry whose header is good: the clearing, the interrupt enables as they were set (22 R388), then a pending
pause, an interrupt, or the block. -/
def State.enterAt (s : State) (c : CoreRef) (t head : W64) (words : List W32) : State :=
  let x := (s.core c).clearLive head
  let x := { x with blk := { hdr := t, head := head, words := words, widx := 0, slot := 0 }, blocked := false,
                    awaits := false, began := none, resume := none, busyAt := none, replay := [], replayTo := 0, shadow := some x.r, ien := x.ienNext }
  match kindOf c with
  | .sysm =>
    let s' := s.setCore c x
    match s'.irq c with
    | some v => s'.setCore c (x.interrupt v t)
    | none => s.setCore c { x with phase := .running }
  | _ =>
    let step := x.stepOnce && (s.ctxOfTile (tileOf c)).st == .debugging
    if s.pauseWanted (tileOf c) && !step then s.setCore c { x with phase := .paused t }
    else s.setCore c { x with phase := .running, stepOnce := false }

/-- Marking a core as unable to go on for now. -/
def State.block (s : State) (c : CoreRef) : State := s.modCore c (fun x => { x with blocked := true })

/-- A block entry (R301): the loop check stands whatever the fetch and the header check find; none while a stitch message runs
(13 R222). -/
def State.blockEntry (s : State) (c : CoreRef) : State :=
  let x := s.core c
  match x.phase with
  | .entering t0 how =>
    if x.sel = .msg then s
    else if x.held || (decide (how ≠ .direct) && x.bank.loopWaits t0) then s.block c
    else
      let r := if how = .direct then (x.bank, t0) else x.bank.resolve t0 x.bank.loops
      let t := r.2
      match s.fetch8 c t with
      | (s, .wait) => s.block c
      | (s, .fault code va) => (s.modCore c (·.setBank r.1)).headerTrap c code t va
      | (s, .ok hb) =>
        let head : W64 := BitVec.ofNat 64 (leNat hb)
        match headerCheck head how with
        | .badTgt hdr word => (s.modCore c (·.setBank r.1)).lateTrap c BADTGT word hdr 0
        | .badHdr => (s.modCore c (·.setBank r.1)).headerTrap c BADHDR t 0
        | .good =>
          match s.fetchN c (t + 8) ((wf head 48 8 + 1) / 2) with
          | (s, .wait) => s.block c
          | (s, .fault code va) => (s.modCore c (·.setBank r.1)).headerTrap c code t va
          | (s, .ok bytes) =>
            (s.modCore c (fun x => x.setBank r.1)).enterAt c t head ((wordsOf bytes).take (wf head 48 8))
  | _ => s

/-- BLOCK_ENTRY (R301). -/
def execBlockEntry (c : CoreRef) (s : State) : Host.Outcome State Fault Refusal := atCore c (·.blockEntry c) s

/-! ### Delivery -/

/-- A flight by its number. -/
def Core.flight? (x : Core) (id : Nat) : Option Flight := x.flights.find? (fun f => f.id == id)

/-- The flags of a completed operation: to the core while the kernel's task is there, else to the kernel (R96). -/
def State.lateFlags (s : State) (c : CoreRef) (f : Flight) : State :=
  if f.flags = 0 ∧ !f.yund then s
  else if (s.core c).task.map (·.kern) = f.kern then s.modCore c (·.raiseLate f.flags f.yund)
  else match f.kern with
    | some k => s.modKern k (fun x => { x with fflags := x.fflags ||| f.flags, yund := x.yund || f.yund })
    | none => s

/-- A tile is being moved: its image is copied or the routers learn its new place. What waits there goes on at the landing
tile (15 R239-R242). -/
def State.moving (s : State) (t : Nat) : Bool :=
  match s.driftOf t with
  | some d => d.phase == .copy || d.phase == .remap
  | none => false

/-- The core's tile is being moved. -/
def State.movingC (s : State) (c : CoreRef) : Bool := kindOf c != .sysm && s.moving (tileOf c)

/-- A result arrives (03 R57): it fills the entry and the register that wait for it, raises its flags, and acts as the acquire it
is (07 R142). A held access is performed once it may be. -/
def State.complete (s : State) (c : CoreRef) (id : Nat) : State :=
  if s.movingC c then s
  else match (s.core c).flight? id with
  | none => s
  | some f =>
    match f.res, f.kind with
    | none, .held h => if s.heldReady c id h then s.perform c f h else s
    | some v, .plain =>
      let s := (s.modCore c (fun x => { x.deliver id v with blocked := false })).lateFlags c f
      match f.acq with
      | some p =>
        -- an acquire breaks the watches set before it, not one that its own or a later LDA has set (21 R353)
        let own := (s.core c).watches.filter (fun w => decide (id ≤ w.fid))
        (s.acquire c p).modCore c (fun x => { x with watches := own })
      | none => s
    | _, _ => s

/-- VARIABLE_LATENCY_COMPLETION (R57). -/
def execVariableLatencyCompletion (c : CoreRef) (id : Nat) (s : State) : Host.Outcome State Fault Refusal :=
  atCore c (·.complete c id) s

/-! ### Block replay (16 R256, R257) -/

/-- The physical tile counts a fault of a reason, with its time; those older than 24 h no longer count. Two fringe mismatches,
three failed replays or two SRAM words make it one that the controller is to retire (16 R263). -/
def State.countFault (s : State) (p reason : Nat) : State :=
  let x := s.ptile p
  let l := (x.faults.filter (fun e => s.time < e.2 + 86400000000000)) ++ [(reason, s.time)]
  let many := decide ((if reason = 3 then 3 else 2) ≤ l.countP (fun e => e.1 == reason))
  s.setPtile p { x with faults := l, retire := if many then reason else x.retire }

/-- A reported fault that leads to rollback (16 R251, R252): nothing of the context issues before ROLLBACK. -/
def State.reportFault (s : State) (n : Nat) : State :=
  let x := s.ctx n
  if x.st = .running ∨ x.st = .stopping ∨ x.st = .saving ∨ x.st = .debugging then s.modCtx n (fun x => { x with fault := true })
  else s

/-- A reported fault outside any context's tiles is logged, and has no other effect (16 R252). -/
def State.faultFree (s : State) (chip : Nat) : State :=
  s.logSys (Config.freeFault chip).1 2 0 (Config.freeFault chip).2

/-- The message's own bank: payload word 0 is pushed first (R43). -/
def msgBank (m : Msg) : Bank :=
  { Bank.clear with q := m.pay.foldl (fun q v => q.push (Cell.mk0 v)) (Ring.empty iz) }

/-- BLOCK_REPLAY: a check of the core has failed. The first failure of a block runs the block again from its shadow; a
second is reported. -/
def State.blockReplay (s : State) (c : CoreRef) : State :=
  let x := s.core c
  -- the second failure in one block instance, or one message, is reported (R251, R257)
  let report (s : State) : State :=
    match kindOf c with
    | .sysm => s
    | _ =>
      let s := match s.physOf (tileOf c) with
        | some p => s.countFault p 3
        | none => s
      match (s.tile (tileOf c)).ctx with
      | some n => s.reportFault n
      | none => s
  match x.sel, x.msgRun with
  | .msg, some (m, _) =>
    if x.msgTo ≠ 0 then report s
    else s.setCore c { x with r := { x.r with msg := msgBank m }, blk := { x.blk with widx := 0, slot := 0 },
                              msgTo := max 1 x.blk.widx, blocked := false, awaits := false, busyAt := none }
  | _, _ =>
  match x.phase, x.shadow with
  | .running, some r =>
    if x.replayTo ≠ 0 then report s
    else s.setCore c { x with r := r, blk := { x.blk with widx := 0, slot := 0 }, replayTo := max 1 x.blk.widx,
                              blocked := false, awaits := false, busyAt := none,
                              began := if x.blk.widx = 0 then x.began else none,
                              resume := if x.blk.widx = 0 then none else x.began.map (fun k => (x.blk.widx, k)) }
  | _, _ => s

/-- BLOCK_REPLAY (R256). -/
def execBlockReplay (c : CoreRef) (s : State) : Host.Outcome State Fault Refusal := atCore c (·.blockReplay c) s

/-! ### Waking -/

/-- SLEEP_WAKE (R389). -/
def State.sleepWake (s : State) (c : CoreRef) : State :=
  match (s.core c).phase with
  | .sleeping t => if s.wakeBit c then s.modCore c (fun x => { x with phase := .entering t .fall }) else s
  | _ => s

/-- SLEEP_WAKE (R389). -/
def execSleepWake (c : CoreRef) (s : State) : Host.Outcome State Fault Refusal := atCore c (·.sleepWake c) s

/-! ### Task entry (10 R183, 02 R40) -/

/-- The top record of a deque: the oldest of the highest priority, among those a test admits. -/
def topRec (ok : TaskRec → Bool) (l : List TaskRec) : Option TaskRec :=
  l.foldl (fun o r => if !ok r then o else match o with
    | none => some r
    | some b => if b.prio < r.prio then some r else o) none

/-- A deque without its first record that equals a given one. -/
def dropRec (r : TaskRec) : List TaskRec → List TaskRec
  | [] => []
  | x :: l => if x = r then l else x :: dropRec r l

/-- The deque of a core's class on a tile. -/
def VTile.deque (v : VTile) (feeder : Bool) : List TaskRec := if feeder then v.fdq else v.wdq

/-- Replacing it. -/
def VTile.setDeque (v : VTile) (feeder : Bool) (l : List TaskRec) : VTile :=
  if feeder then { v with fdq := l } else { v with wdq := l }

/-- A core can start a task: it is idle at block entry, nothing it is to pause for, and no flag of an ended task is still
to come. -/
def State.canStart (s : State) (c : CoreRef) : Bool :=
  let t := tileOf c
  kindOf c != .sysm && (s.core c).phase == .idle && (s.core c).msgRun.isNone && !s.pauseWanted t &&
    !(s.ctxOfTile t).fault && !(s.core c).flights.any Flight.mayFlag &&
    (match (s.tile t).power with
      | .busy => true
      | .hold _ => true
      | _ => false)

/-- The member index of a primary task (11 R196); a stolen task may stand outside its packet's box. -/
def memberIndex (s : State) (k : Kernel) (t taskid : Nat) : Int :=
  let vt := (s.vtileBits t).toNat
  (((vt / 256 : Nat) - (k.by' : Int)) * k.bw + ((vt % 256 : Nat) - (k.bx : Int))) * k.tpt + taskid

/-- The group of a kernel is joined at entry (11 R196): the request follows what the channel to the home tile still holds (07
R144). -/
def State.entryJoin (s : State) (c : CoreRef) (g : Nat) (m : W64) : State :=
  let home := s.homeOf c g
  if s.chanHeld c home 0 then
    let o := (s.tile (tileOf c)).order
    (s.modTile (tileOf c) (fun v => { v with order := o + 1 })).modCore c (·.launch .s 31
      { Flight.base with kind := .held ⟨.grp home (s.groupReqOf c 0 g m), none, o⟩, hold := true })
  else
    let id := (s.core c).nextId
    (s.modCore c (·.launch .s 31 { Flight.base with kind := .await, hold := true })).groupSend c id 0 g m

/-- A record leaves a deque; when it is the last one, the deque is empty from now on (09 R175). -/
def State.takeRec (s : State) (t : Nat) (feeder : Bool) (r : TaskRec) : State :=
  let l := dropRec r ((s.tile t).deque feeder)
  let s := s.modTile t (·.setDeque feeder l)
  if l.isEmpty then
    s.modCore (if feeder then .feeder t else .worker t) (fun x => { x with steal := { x.steal with since := s.time } })
  else s

/-- Task entry: registers are cleared, the task's control registers set, the group is joined, the entry block comes
next. The task starts after the fetch of its packet, an acquire (07 R147): the tile's lines are dropped. A pending cr.ytable is
applied where no worker task is running (08 R155). -/
def State.startTask (s : State) (c : CoreRef) (r : TaskRec) : State :=
  match mfind s.kernels r.kern with
  | none => s
  | some k =>
    let t := tileOf c
    let entry := if isFeeder c then k.fentry else k.wentry
    let s := s.modCore c (fun x =>
      { x with r := Regs.clear, sel := .norm, trap := BitVec.ofNat 128 (x.trap.toNat / 2 ^ 120 * 2 ^ 120),
               taskarg := k.arg, taskid := BitVec.ofNat 32 r.taskid, kreg := BitVec.ofNat 64 (k.seq.toNat + k.q * 2 ^ 32),
               task := some r, gen := x.gen + 1, watches := [], phase := .entering entry .start, blocked := false,
               awaits := false, began := none, resume := none, busyAt := none, shadow := none, replay := [], replayTo := 0,
               steal := { x.steal with refusals := 0, backoff := false } })
    let s := s.modTile t (fun v =>
      let free := !isFeeder c || v.worker.phase == .idle
      let n := v.invalidate
      { n with power := .busy, ytab := if free then v.ytabNext.getD v.ytab else v.ytab,
               ytabNext := if free then none else v.ytabNext })
    if r.prim ∧ k.group ≠ 0xffff then
      s.entryJoin c k.group (BitVec.ofInt 64 (memberIndex s k t r.taskid))
    else s

/-- TASK_TAKE (09 R174, 10 R183). -/
def State.taskTake (s : State) (c : CoreRef) : State :=
  if !s.canStart c then s
  else
    let t := tileOf c
    match topRec (fun _ => true) ((s.tile t).deque (isFeeder c)) with
    | none => s
    | some r => (s.takeRec t (isFeeder c) r).startTask c r

/-- TASK_TAKE (R174). -/
def execTaskTake (c : CoreRef) (s : State) : Host.Outcome State Fault Refusal := atCore c (·.taskTake c) s

/-! ### Stealing (09 R175) -/

/-- Manhattan distance of two tiles. -/
def manhattan (a b : Nat) : Nat :=
  (a % 128 - b % 128) + (b % 128 - a % 128) + (a / 128 - b / 128) + (b / 128 - a / 128)

/-- A list turned round by n places. -/
def turn {α : Type} (l : List α) (n : Nat) : List α :=
  let k := n % max l.length 1
  l.drop k ++ l.take k

/-- The n-th victim of a thief's attempt: rings of equal distance outward, each begun at a place that moves by one with every
attempt. -/
def victim (ts : List Nat) (t tries : Nat) : Nat → Nat → Nat → Option Nat
  | 0, _, _ => none
  | fuel + 1, d, n =>
    let ring := ts.filter (fun o => manhattan t o == d)
    if n < ring.length then (turn ring tries)[n]? else victim ts t tries fuel (d + 1) (n - ring.length)

/-- STEAL_REQUEST: a core whose deque has been empty for 1 µs asks one victim; never in a reproducible context. -/
def State.stealRequest (s : State) (c : CoreRef) : State :=
  let t := tileOf c
  let x := s.core c
  let cx := s.ctxOfTile t
  if !s.canStart c ∨ cx.repro ∨ x.steal.victim.isSome ∨ x.steal.backoff ∨ s.time < x.steal.since + 1000 ∨
      !((s.tile t).deque (isFeeder c)).isEmpty then s
  else
    match victim (ctxTiles cx) t x.steal.tries 256 1 x.steal.refusals with
    | none => s
    | some v => s.setCore c { x with steal := { x.steal with victim := some v } }

/-- STEAL_REQUEST (R175). -/
def execStealRequest (c : CoreRef) (s : State) : Host.Outcome State Fault Refusal := atCore c (·.stealRequest c) s

/-- STEAL_ANSWER: the victim gives its top floating record of the thief's class, or refuses; eight refusals in a row make
the thief wait. A core that has started a task meanwhile takes none. A tile that is being moved answers once it has landed (15 R240). -/
def State.stealAnswer (s : State) (c : CoreRef) : State :=
  let x := s.core c
  match x.steal.victim with
  | none => s
  | some v =>
    if s.moving v then s else
    let f := isFeeder c
    let done (st : Steal) : State := s.setCore c { x with steal := st }
    match (if s.canStart c then topRec (·.float) ((s.tile v).deque f) else none) with
    | some r =>
      let s := done { x.steal with victim := none, refusals := 0, tries := x.steal.tries + 1 }
      (s.takeRec v f r).startTask c r
    | none =>
      if !s.canStart c then done { x.steal with victim := none }
      else
        let n := x.steal.refusals + 1
        done { x.steal with victim := none, refusals := n, backoff := decide (8 ≤ n),
                            waitAt := if 8 ≤ n then s.time else x.steal.waitAt }

/-- STEAL_ANSWER (R175). -/
def execStealAnswer (c : CoreRef) (s : State) : Host.Outcome State Fault Refusal := atCore c (·.stealAnswer c) s

/-- STEAL_BACKOFF_EXPIRY: after 1 µs the thief starts again. -/
def State.stealBackoff (s : State) (c : CoreRef) : State :=
  let x := s.core c
  if x.steal.backoff ∧ x.steal.waitAt + 1000 ≤ s.time then
    s.setCore c { x with steal := { x.steal with refusals := 0, backoff := false, tries := x.steal.tries + 1 } }
  else s

/-- STEAL_BACKOFF_EXPIRY (R175). -/
def execStealBackoffExpiry (c : CoreRef) (s : State) : Host.Outcome State Fault Refusal := atCore c (·.stealBackoff c) s

/-! ### Channel traffic at its destination (07 R144, R146; 15 R240, R241; 01 R24) -/

/-- A message of a channel is queued or running at its destination. -/
def VTile.msgAhead (v : VTile) (src cls : Nat) : Bool :=
  v.msgs.any (fun m => m.src == src && m.cls == cls) || (match v.feeder.msgRun with
    | some (m, _) => m.src == src && m.cls == cls
    | none => false)

/-- Whether an item is a stitch message. -/
def NetBody.isMsg : NetBody → Bool
  | .msg _ => true
  | _ => false

/-- An item that may be applied next: it has crossed its die-to-die links, no router holds it, it is the oldest of its channel, and no message
of its channel is still queued or running at the destination. -/
def State.itemReady (s : State) (i : Nat) : Option NetItem :=
  match s.net[i]? with
  | none => none
  | some x =>
    let older := (s.net.take i).any (fun y => y.src == x.src && y.cls == x.cls && y.dst == x.dst)
    if x.flit.isSome || x.parked || older || ((s.tile x.dst).msgAhead x.src x.cls && !x.body.isMsg) then none else some x

/-- The item of a channel has been applied before (R146). -/
def VTile.seen (v : VTile) (x : NetItem) : Bool :=
  (mget 0 v.chIn (x.src * 8 + x.cls) + 2 ^ 24 - x.seq - 1) % 2 ^ 24 < 2 ^ 23

/-- The codes of UNDELIV (16 R275). A multicast copy, an acknowledgement and a group request, which R275 does not name, take that of
postings and arrivals (log 27). -/
def NetBody.code : NetBody → Nat
  | .acc _ _ (.load _ _) => 0
  | .acc _ _ (.store _ _ _) => 1
  | .acc _ _ (.atomic _) => 2
  | .msg _ => 3
  | _ => 4

/-- Nobody answers: the flight that waits for the item gets invalid zero of its class. -/
def State.giveZero (s : State) (c : CoreRef) (id : Nat) : State :=
  match (s.core c).flight? id with
  | some f => if (f.kind = .await ∨ f.kind = .bwait) ∧ f.res = none then s.modCore c (·.resolve id (zeroOf f.cls)) else s
  | none => s

/-- Whether an item asks for an answer: a load, an atomic, and a group request other than GLEAVE and GAUGE. A returned group request
is answered with an invalid zero as a load is (R24 names loads and atomics only; log 27). -/
def NetBody.asks : NetBody → Bool
  | .acc _ _ (.load _ _) => true
  | .acc _ _ (.atomic _) => true
  | .grp r => r.kind != 1 && r.kind != 3
  | _ => false

/-- An item is returned as undeliverable (R24). -/
def State.undeliverable (s : State) (x : NetItem) : State :=
  let s := s.logTile x.src 0x000b (if isFeeder x.c then 1 else 0)
    (detail [(336, (s.vtileBits x.dst).toNat), (328, x.body.code)])
  if x.body.asks then s.giveZero x.c x.id else s

/-- A wake cause for a tile (18 R294): it ends HOLD; a gated tile joins the in-rush queue of its chiplet. -/
def State.wake (s : State) (t : Nat) : State :=
  match (s.tile t).power with
  | .hold _ => s.modTile t (fun v => { v with power := .busy })
  | .gated => (s.modTile t (fun v => { v with power := .queued })).modChip (chipOf t) (fun h =>
      { h with inrush := h.inrush ++ [t] })
  | _ => s

/-- Arrival of the i-th item of the networks, if it may arrive: it is returned where no row serves its tile, held where
the tile is being moved (forwarded or direct, as its router has the new entry or not), dropped if it is a duplicate, and
else applied. Traffic for a tile that is waking waits (18 R295). -/
def State.arrive (s : State) (i : Nat) (ok : NetBody → Bool) (apply : State → NetItem → State) : State :=
  match s.itemReady i with
  | none => s
  | some x =>
    if !ok x.body then s
    else
      let s' := { s with net := delAt s.net i }
      if (s.physOf x.dst).isNone then s'.undeliverable x
      else match s.driftAt x.dst with
        | some d =>
          let h := chipOf x.dst
          let app := d.phase == .remap && d.knows (s.routerOf x.src)
          if d.phase = .drain ∨ d.phase = .quiesce then
            let w := s.wake x.dst
            (if (w.tile x.dst).power ≠ .busy then w
             else if (s.tile x.dst).seen x then { w with net := delAt s.net i } else apply { w with net := delAt s.net i } x)
          else if app then
            (if 64 ≤ d.direct.length then s
             else s'.modChip h (fun y => { y with drift := some { d with direct := d.direct ++ [x] } }))
          else if 64 ≤ d.held.length then s
          else s'.modChip h (fun y => { y with drift := some { d with held := d.held ++ [x] } })
        | none =>
          let w := s.wake x.dst
          if (w.tile x.dst).power ≠ .busy then w
          else if (s.tile x.dst).seen x then { w with net := delAt s.net i } else apply { w with net := delAt s.net i } x

/-- The channel's next expected number moves on. -/
def State.markSeen (s : State) (x : NetItem) : State :=
  s.modTile x.dst (fun v => { v with chIn := mput v.chIn (x.src * 8 + x.cls) ((x.seq + 1) % 2 ^ 24) })

/-- A message enters the queue of its tile (R222). -/
def State.applyMsg (s : State) (x : NetItem) : State :=
  match x.body with
  | .msg m => (s.markSeen x).modTile x.dst (fun v => { v with msgs := v.msgs ++ [m] })
  | _ => s

/-- STITCH_MESSAGE_ARRIVAL (R144, R222). -/
def execStitchMessageArrival (i : Nat) (s : State) : Host.Outcome State Fault Refusal :=
  .next (s.arrive i (fun b => match b with
    | .msg _ => true
    | _ => false) State.applyMsg)

/-! ### Running a stitch message (13 R222, 02 R43) -/

/-- A moment at which the feeder runs messages: at block entry, idle, or held at issue for a result of its own. -/
def Core.takesMsg (x : Core) : Bool :=
  x.msgRun.isNone && (match x.phase with
    | .idle => true
    | .entering _ _ => true
    | .running => x.blocked && x.awaits
    | _ => false)

/-- A tile only queues its messages: frozen (15 R239), with a core paused for a stop, as an idle core is at once (08 R156, R162),
being saved or restored, or stopped on a fault (16 R252). -/
def State.queuesOnly (s : State) (t : Nat) : Bool :=
  let x := s.ctxOfTile t
  let v := s.tile t
  s.frozen t || x.fault || (x.st != .running && x.st != .stopping) ||
    (x.stopFor.isSome && !x.stopRetry && (v.worker.quiet || v.feeder.quiet))

/-- STITCH_MESSAGE_RUN: the oldest queued message becomes what the feeder issues, until its four words are done. -/
def State.msgStart (s : State) (t : Nat) : State :=
  let v := s.tile t
  match v.msgs with
  | [] => s
  | m :: r =>
    if !v.feeder.takesMsg ∨ s.queuesOnly t then s
    else
      let x := v.feeder
      s.setTile t { v with
        msgs := r,
        feeder := { x with r := { x.r with msg := msgBank m }, sel := .msg, msgRun := some (m, x.blk), blocked := false,
                           awaits := false, began := none, busyAt := none, msgRec := [], msgTo := 0,
                           blk := { Blk.none with words := m.tpl } } }

/-- STITCH_MESSAGE_RUN (R222). -/
def execStitchMessageRun (t : Nat) (s : State) : Host.Outcome State Fault Refusal := atTile t (·.msgStart t) s

end Sys2Proof.Machine
end

