-- ==== Sys2Proof/Machine/EvMemory.lean ====
section
/-! DEFINITION. Events of memory: remote accesses (05 R111, 21 R349), waiting consuming loads (05 R113), the store buffer and
the home slices (07 R137, R142; 16 R258-R261, R269), zero-pending frames and translation (06 R122-R131), and the life of
handles (05 R107, R108, R114).

An event that is not due leaves the state as it is. -/

namespace Sys2Proof.Machine

/-! ### Remote accesses -/

/-- The bytes a remote access touches. -/
def RemOp.size : RemOp → Nat
  | .load n _ => n
  | .store _ n _ => n
  | .atomic a => a.n

/-- The code of a refused access in its record. -/
def RemOp.code : RemOp → Nat
  | .load _ _ => 0
  | .store _ _ _ => 1
  | .atomic _ => 2

/-- Whether it writes. -/
def RemOp.writes : RemOp → Bool
  | .load _ _ => false
  | _ => true

/-- Whether R110 allows it only to a plain SCR handle. -/
def RemOp.scrOnly : RemOp → Bool
  | .load _ fe => fe != 0
  | .store _ _ fe => fe
  | .atomic _ => true

/-- The destination performs the access (R111): the handle is ALLOCATED, long enough, and of a kind that is reached from
other tiles. -/
def Handle.takes (h : Handle) (off : Nat) (op : RemOp) : Bool :=
  h.st == .allocated && h.kind == 0 && h.level != 2 && decide (off + op.size ≤ h.extent) &&
    (!op.scrOnly || h.level == 0)

/-- A refused access: the answer is invalid zero, nothing is written, and a REMREF record is made. -/
def State.remRefuse (s : State) (x : NetItem) (h off : Nat) (op : RemOp) : State :=
  let s := s.logTile x.dst 0x0002 (if isFeeder x.c then 1 else 0)
    (detail [(336, (s.vtileBits x.src).toNat), (328, h % 256), (296, off % 2 ^ 32), (288, op.code)])
  if op.reads then s.giveZero x.c x.id else s

/-- The shape of the result that a flight waits for. -/
def State.shapeOf (s : State) (c : CoreRef) (id : Nat) : Shape :=
  match (s.core c).flight? id with
  | some f => f.shape
  | none => .scalar 8 false

/-- A remote access at its destination. -/
def State.applyAcc (s : State) (x : NetItem) : State :=
  match x.body with
  | .acc h off op =>
    let s := s.markSeen x
    match mfind (s.tile x.dst).handles h with
    | none => s.remRefuse x h off op
    | some hd =>
      if !hd.takes off op then s.remRefuse x h off op
      else match op with
        | .load n fe =>
          let o := (s.tile x.dst).order
          if fe ≠ 0 ∧ !(hd.allFull off n && !(s.tile x.dst).consumeAhead o h off n) then
            s.putWait x.dst ⟨x.c, x.id, h, off, n, fe == 2, o⟩
          else
            let r := s.consume x.dst h off n (fe == 2)
            r.1.modCore x.c (·.resolve x.id ((s.shapeOf x.c x.id).make r.2))
        | .store bytes _ fe => s.modHandle x.dst h (·.write bytes fe)
        | .atomic a =>
          let r := s.bankAtomic x.dst h off a
          r.1.modCore x.c (·.resolve x.id (.s (valid r.2)))
  | _ => s

/-- An engine command accepted before an access or a multicast copy arrived holds it (07 R136), or its bank is in retention
(16 R254); the sender's own copy of a multicast is its own command's. -/
def State.itemHeld (s : State) (x : NetItem) : Bool :=
  match x.body with
  | .acc h off op => s.bankHeld x.dst ⟨h, off, off + op.size⟩ op.writes
  | .mcast h off bytes _ _ _ _ => x.src != x.dst && s.bankHeld x.dst ⟨h, off, off + bytes.length⟩ true
  | _ => false

/-- The same of an item on the network. -/
def State.netHeld (s : State) (i : Nat) : Bool :=
  match s.net[i]? with
  | some x => s.itemHeld x
  | none => false

/-- REMOTE_ACCESS_ARRIVAL (R111, R349). -/
def execRemoteAccessArrival (i : Nat) (s : State) : Host.Outcome State Fault Refusal :=
  .next (if s.netHeld i then s else s.arrive i (fun b => match b with
    | .acc _ _ _ => true
    | _ => false) State.applyAcc)

/-! ### Waiting consuming loads -/

/-- Serving a waiting load on one tile: its granules are full and no earlier one shares one. -/
def State.serveWait (s : State) (t : Nat) (c : CoreRef) (id : Nat) : State :=
  match (s.tile t).waits.find? (fun w => decide (w.c = c ∧ w.id = id)) with
  | none => s
  | some w =>
    match mfind (s.tile t).handles w.h with
    | none => s
    | some hd =>
      if hd.allFull w.off w.n && !(s.tile t).consumeAhead w.ord w.h w.off w.n && !s.sleeps t w.h w.off w.n then
        let sh := s.shapeOf c id
        let r := (s.modTile t (fun v => { v with waits := v.waits.filter (fun x => !decide (x.c = c ∧ x.id = id)) })).consume t
          w.h w.off w.n w.fec
        r.1.modCore c (·.resolve id (sh.make r.2))
      else s

/-- The tile in whose wait list a load stands. -/
def State.waitTile (s : State) (c : CoreRef) (id : Nat) : Option Nat :=
  (s.tiles.find? (fun e => e.2.waits.any (fun w => decide (w.c = c ∧ w.id = id)))).map (·.1)

/-- CONSUMING_LOAD_SERVED (R113). -/
def execConsumingLoadServed (c : CoreRef) (id : Nat) (s : State) : Host.Outcome State Fault Refusal :=
  atCore c (fun s => match s.waitTile c id with
    | some t => if s.frozen t then s else s.serveWait t c id
    | none => s) s

/-! ### The store buffer -/

/-- Two buffered stores share a byte. -/
def SBEntry.meets (a b : SBEntry) : Bool := a.bytes.any (fun x => b.bytes.any (fun y => x.1 == y.1))

/-- The core that issued a buffered store. -/
def SBEntry.core (e : SBEntry) (t : Nat) : CoreRef := if e.feeder then .feeder t else .worker t

/-- A buffered store may be performed: no older buffered store shares a byte with it. Every earlier read of its core had its
value when it entered the buffer (07 R143). -/
def State.mayDrain (s : State) (t i : Nat) : Bool :=
  let l := (s.tile t).sbuf
  match l[i]? with
  | none => false
  | some e => !(l.take i).any (·.meets e)

/-- STORE_BUFFER_DRAIN: the store is on its way to its home slice. -/
def State.sbufDrain (s : State) (t i : Nat) : State :=
  match (s.tile t).sbuf[i]? with
  | some e => if s.mayDrain t i then s.modTile t (fun v => { v with sbuf := setAt v.sbuf i { e with sent := true } }) else s
  | none => s

/-- STORE_BUFFER_DRAIN (R142). -/
def execStoreBufferDrain (t i : Nat) (s : State) : Host.Outcome State Fault Refusal := atTile t (·.sbufDrain t i) s

/-! ### Home slices -/

/-- The bytes of a buffered store that are performed next, and those after them: one unit of R132 at a time. -/
def SBEntry.unit (e : SBEntry) : Mem × Mem :=
  match e.bytes with
  | [] => ([], [])
  | (a, _) :: _ => e.bytes.partition (fun b => b.1 / max e.u 1 == a / max e.u 1)

/-- A unit of a sent store performed at its home slice, unless the undo log it needs is full; with its last unit the store leaves
the buffer, and its kick is forwarded. -/
def State.sbufWrite (s : State) (t i : Nat) : State :=
  match (s.tile t).sbuf[i]? with
  | none => s
  | some e =>
    let n := ((s.tile t).ctx).getD 256
    let now := e.unit.1
    let rest := e.unit.2
    let pas := now.map (·.1)
    if !e.sent || s.memShut (s.routerOf t) pas then s
    else if s.undoFull n (linesOf pas) then
      s.modTile t (fun v => { v with sbuf := setAt v.sbuf i { e with stuck := true } })
    else
      let s := s.homeWrite n e.zp now
      if !rest.isEmpty then s.modTile t (fun v => { v with sbuf := setAt v.sbuf i { e with bytes := rest, stuck := false } })
      else
        let s := s.modTile t (fun v => { v with sbuf := delAt v.sbuf i })
        s.kickAt (pas.headD 0) e.kick (agentNo (e.core t)) e.seq

/-- Another unit of a buffered store comes next: the order of the units is not the spec's (R132). -/
def State.otherUnit (s : State) (t i : Nat) : State :=
  match (s.tile t).sbuf[i]? with
  | some e => s.modTile t (fun v => { v with sbuf := setAt v.sbuf i { e with bytes := e.unit.2 ++ e.unit.1 } })
  | none => s

/-- HOME_SLICE_WRITE (R137). -/
def execHomeSliceWrite (t i : Nat) (s : State) : Host.Outcome State Fault Refusal := atTile t (·.sbufWrite t i) s

/-- UNDO_LOG_SPACE_FREED (R269): the write that waited is performed once its log has room. -/
def execUndoLogSpaceFreed (t i : Nat) (s : State) : Host.Outcome State Fault Refusal :=
  atTile t (fun s => match (s.tile t).sbuf[i]? with
    | some e => if e.stuck then s.sbufWrite t i else s
    | none => s) s

/-- Contents of a stretch of table entries below a level name a frame. -/
def State.mapsFrame (s : State) (pa : Nat) : Nat → Nat → Bool
  | lv, tab => (rangeFrom 0 1024).any (fun i =>
      let e := memReadLE s.mem (tab + 8 * i) 8
      if !pbit e 0 || s.malformed lv e then false
      else if pbit e 1 then decide (pframe e ≤ pa ∧ pa < pframe e + 2 ^ (13 + 10 * lv))
      else match lv with
        | 0 => false
        | k + 1 => State.mapsFrame s pa k (pframe e))

/-- A lost line (R260): the contexts that map its frame fail, and the frame is withheld. -/
def State.lineLost (s : State) (pa : Nat) : State :=
  let hit := s.ctxs.filter (fun e => e.2.st != .destroyed && s.mapsFrame pa 3 e.2.root)
  let s := { s with withheld := setIns s.withheld (pa / 8192) }
  hit.foldl (fun s e => s.failCtx e.1 2) s

/-- The record of a channel. -/
def State.hbmCh (s : State) (stack ch : Nat) : Hbm := mget ⟨[], false⟩ s.hbm (32 * stack + ch)

/-- Retirement of a channel (R261): it is logged, and its group is reported as degraded. -/
def State.retireCh (s : State) (stack ch : Nat) : State :=
  let x := s.hbmCh stack ch
  if x.retired then s
  else
    let s := { s with hbm := mput s.hbm (32 * stack + ch) { x with retired := true } }
    (s.logSys 0x002a 2 0 (detail [(345, stack), (340, ch)])).logSys 0x002b 2 0
      (detail [(346, stack / 4), (330, ch)])

/-- An uncorrectable read counted against its channel; the 16th within 24 h retires it. -/
def State.badRead (s : State) (stack ch : Nat) : State :=
  let x := s.hbmCh stack ch
  let l := (x.bad.filter (fun t => s.time < t + 86400000000000)) ++ [s.time]
  let s := { s with hbm := mput s.hbm (32 * stack + ch) { x with bad := l } }
  if 16 ≤ l.length then s.retireCh stack ch else s

/-- The check of a read (R259-R261): `bad` has a bit for each member of the stripe's channel group whose stack cannot correct
the error of its unit. A failing unit, or one of a retired channel, is rebuilt from the other three; where one of these fails or
is retired too, the line is lost. Each failing unit that is read counts against its own channel. Gives whether the data stands. -/
def State.readCheck (s : State) (pa bad : Nat) : State × Bool :=
  match s.unitAt pa with
  | none => (s, true)
  | some u =>
    let q := u.1 / 4 * 4
    let dead (k : Nat) : Bool := (s.hbmCh (q + k) u.2).retired
    let fails (k : Nat) : Bool := pbit bad k || dead k
    if !fails (u.1 % 4) then (s, true)
    else
      let s' := ((rangeFrom 0 4).filter (fun k => pbit bad k && !dead k)).foldl (fun s k => s.badRead (q + k) u.2) s
      if (rangeFrom 0 4).any (fun k => k != u.1 % 4 && fails k) then (s'.lineLost pa, false) else (s', true)

/-- CHANNEL_RETIRE_REQUEST (R261). -/
def execChannelRetireRequest (stack ch : Nat) (s : State) : Host.Outcome State Fault Refusal :=
  atUnit stack 128 (fun s => if ch < 32 then s.retireCh stack ch else s) s

/-- An earlier store of the tile's buffer overlaps an atomic: it is performed first (R142). A store that its core issued
after the atomic is not earlier. -/
def State.sbufAhead (s : State) (c : CoreRef) (id : Nat) (pas : List Nat) : Bool :=
  (s.tile (tileOf c)).sbuf.any (fun e => meetsPa (e.bytes.map (·.1)) pas &&
    !(e.feeder == isFeeder c && decide (id < e.after)))

/-- A home slice performs an atomic once: a tag among the core's last 64 is answered with its recorded result (16 R258). -/
def State.homeAtomic (s : State) (c : CoreRef) (id : Nat) : State :=
  let x := s.core c
  match x.flight? id with
  | none => s
  | some f =>
    match f.kind with
    | .atomic a =>
      let pas := rangeFrom a.pa a.n
      let n := (s.ctxOfCore c).getD 256
      if f.res.isSome || s.movingC c then s
      else
        let chip := (s.homeChip a.pa).getD 0
        match s.tagOf chip (agentNo c) a.seq with
        | some v => s.modCore c (·.resolve id (.s (valid v)))
        | none =>
          if x.readBefore id || s.sbufAhead c id pas || s.memShut (s.coreRouter c) pas || s.undoFull n (linesOf pas) then s
          else
            let s := s.zpTouch a.zp pas
            let m := memReadLE s.mem a.pa a.n
            let r := atomNew a.op a.n m a.x.toNat a.c.toNat
            let s := s.homeWrite n a.zp (atAddr a.pa (natBytes a.n r.1))
            let s := s.putTag chip (agentNo c) a.seq (BitVec.ofNat 64 m)
            let s := s.modTile (tileOf c) (fun v => { v with l1 := l1Drop v.l1 pas })
            s.modCore c (fun x => (x.resolve id (.s (valid (BitVec.ofNat 64 m)))).flagFlight id r.2)
    | _ => s

/-- HOME_SLICE_ATOMIC (R357). -/
def execHomeSliceAtomic (c : CoreRef) (id : Nat) (s : State) : Host.Outcome State Fault Refusal :=
  atCore c (·.homeAtomic c id) s

/-- SENDER_TIME_OUT (R251, R258): the request is sent again; its tag makes it take effect once. A kick is dropped by its
tag at the home slice, which has forwarded it. -/
def execSenderTimeOut (c : CoreRef) (id : Nat) (s : State) : Host.Outcome State Fault Refusal :=
  atCore c (·.homeAtomic c id) s

/-! ### Zero-pending frames -/

/-- The lowest number from a bound on that a rising list lacks. -/
def firstGap : Nat → List Nat → Nat
  | lo, [] => lo
  | lo, a :: r => if a = lo then firstGap (lo + 1) r else lo

/-- ZERO_PENDING_BACKGROUND: one more line is zeroed, or, with every line zero, ZP is cleared in each leaf through which the
frame was entered and which still gives it, and the frame leaves the table. -/
def State.zpBack (s : State) (chip frame : Nat) : State :=
  match mfind (s.chip chip).zp frame with
  | none => s
  | some z =>
    let l := firstGap (frame / 256) z.zeroed
    if l < frame / 256 + z.len / 256 then s.zpLine l
    else
      let s := { s with mem := (z.leaves.filter (s.zpLeaf frame)).foldl (fun m a =>
        memWrite m (a + 7) (memRead m (a + 7) &&& 0x7f)) s.mem }
      s.modChip chip (fun h => { h with zp := mdel h.zp frame })

/-- ZERO_PENDING_BACKGROUND (R127). -/
def execZeroPendingBackground (chip frame : Nat) (s : State) : Host.Outcome State Fault Refusal :=
  atChip chip (·.zpBack chip frame) s

/-! ### Translation -/

/-- PAGE_WALK (R124): a walker serves a miss of a tile. -/
def execPageWalk (t : Nat) (va : BitVec 64) (s : State) : Host.Outcome State Fault Refusal :=
  atTile t (fun s => match (s.tile t).ctx with
    | some n => (s.translate { ctx := n, tile := some t, chip := chipOf t } va ⟨false, false, false, false⟩).1
    | none => s) s

/-- A fault found after its instruction has issued (R122): it traps while the task is there; LDA gets invalid zero. -/
def State.flightFault (s : State) (c : CoreRef) (f : Flight) (code : Nat) (va : W64) : State :=
  if f.lda then s.modCore c (·.resolve f.id (zeroOf f.cls))
  else
    let there := kindOf c == .sysm || ((s.core c).task.isSome && decide ((s.core c).task.map (·.kern) = f.kern))
    let s := s.modCore c (fun x => { x with flights := x.flights.filter (fun g => g.id != f.id) })
    if there then s.lateTrap c code f.word f.hdr va else s

/-- The tile's buffered bytes as a load sees them that its core issued before some of the stores. -/
def VTile.sbufBefore (v : VTile) (c : CoreRef) (id : Nat) : List SBEntry :=
  v.sbuf.filter (fun e => !(e.feeder == isFeeder c && decide (id < e.after)))

/-- A flight's translation waits on a BUSY entry, from now on where it did not before, or no longer. -/
def Core.waitBusy (x : Core) (id : Nat) (now : Option Nat) : Core :=
  { x with flights := x.flights.map (fun f => if f.id = id then { f with since := match now with
    | some t => some (f.since.getD t)
    | none => none } else f) }

/-- A flight's addresses are translated. -/
def State.setTrs (s : State) (c : CoreRef) (id : Nat) (vas : List W64) : State :=
  s.modCore c (fun x => { x with flights := x.flights.map (fun f =>
    if f.id = id then { f with since := none, trs := vas.map (s.trOf (s.agentOf c)) } else f) })

/-- The need of an access by a core. -/
def State.flightNeed (s : State) (c : CoreRef) (atom : Option AtomReq) : Need := s.needOf c true atom.isSome

/-- A flight takes more of cr.ystat's UND and ends with its result. -/
def State.resolveY (s : State) (c : CoreRef) (id : Nat) (v : RVal) (und : Bool) : State :=
  (s.modCore c (·.resolve id v)).modCore c (fun x =>
    { x with flights := x.flights.map (fun g => if g.id = id then { g with yund := g.yund || und } else g) })

/-- A yarn operation goes on with the digit blocks it has (14 R225): its result, its next block, or a fault. -/
def State.tableGo (s : State) (c : CoreRef) (f : Flight) (op : YOp) (got : List YGot) : State :=
  match s.yGo c false op 5 got with
  | (s, .res v und) => s.resolveY c f.id v und
  | (s, .fly k) =>
    let s := s.modCore c (·.setKind f.id k)
    (match k with
      | .table _ _ va _ _ (some _) => s.setTrs c f.id [va]
      | .table _ _ va _ _ none => s.modCore c (·.waitBusy f.id (if s.isBusy c va then some s.time else none))
      | _ => s)
  | (s, .bad code va) => s.flightFault c f code va

/-- HWIN tries its pages and its units again (05 R114, R107): a fault, invalid zero where a pin or the units are refused, the
window, or another wait. It takes its units once every page is translated, as a HALLOC that issues then would. -/
def State.hwinTry (s : State) (c : CoreRef) (f : Flight) (h : Nat) (base : W64) (n : Nat) (took : Bool) (ord : Nat) : State :=
  let t := tileOf c
  match s.winPages c base n with
  | (s, _, some (some (code, va))) => s.flightFault c f code va
  | (s, _, some none) =>
    s.modCore c (·.waitBusy f.id (if (winVas base n).any (s.isBusy c) then some s.time else none))
  | (s, frames, none) =>
    let u := unitsFor 0 (winDesc n).extent
    let ord := if took then ord else (s.tile t).order
    if (!took && decide ((s.tile t).freeUnits 0 < u)) ∨ s.pinRefused frames then s.modCore c (·.resolve f.id (.s iz))
    else if !(s.tile t).scrubbed ⟨h, 0, u, ord⟩ then
      ((if took then s else s.modTile t (fun v => { v with order := ord + 1 })).modCore c
        (·.setKind f.id (.hwin h base n true ord))).modCore c (·.waitBusy f.id none)
    else
      ((s.pin frames).modTile t (fun v =>
        { v with handles := mput v.handles h (Handle.fresh (winDesc n) base frames) })).modCore c
        (·.resolve f.id (.s (valid (BitVec.ofNat 64 h))))

/-- The watch of an LDA that is set late: a replay of its block sets it as well (21 R366). -/
def Core.lateWatch (x : Core) (f : Flight) (w : Watch) : Core :=
  { x.setWatch w with replay := x.replay.map (fun e =>
      if f.hdr = x.blk.hdr ∧ e.word = f.word then { e with watch := some w } else e) }

/-- A load or atomic whose translation was awaited looks again, with every check of R345. An atomic that is not reproducible
traps once its checks have passed. -/
def State.loadReread (s : State) (c : CoreRef) (f : Flight) (vas : List W64) (atom : Option AtomReq) : State :=
  let n := match atom with
    | some a => a.n
    | none => f.shape.per vas.length
  match s.gchecks (s.agentOf c) (s.flightNeed c atom) n n vas with
  | (s, .bad code va) => s.flightFault c f code va
  | (s, .ok pas z) =>
    let s := s.setTrs c f.id vas
    (match atom with
      | some a =>
        if a.op = 10 ∧ (s.ctxOfTile (tileOf c)).repro then s.flightFault c f NONREPRO 0
        else
          let a := { a with pa := pas.headD 0, zp := z }
          let h : Held := ⟨.atom a, a.rel, 0⟩
          (s.breakW c pas []).modCore c (·.setKind f.id (if s.heldReady c f.id h then .atomic a else .held h))
      | none =>
        let h : Held := ⟨.ld pas z, none, 0⟩
        let s := s.modCore c (·.setKind f.id (if s.heldReady c f.id h then .load (pas.map (fun a => ⟨a, none⟩)) z else .held h))
        if f.lda then s.modCore c (·.lateWatch f { d := f.dst, a := vas.headD 0, n := n, pas := pas, fid := f.id, val := none })
        else s)
  | (s, .busy) => s.modCore c (·.waitBusy f.id (some s.time))
  | (s, .hold) => s.modCore c (·.waitBusy f.id none)

/-- The walker reads a BUSY entry again: the access goes on, keeps waiting, or faults (R123). -/
def State.busyReread (s : State) (c : CoreRef) (id : Nat) : State :=
  let s := s.modCore c (fun x => { x with blocked := false })
  match (s.core c).flight? id with
  | none => s
  | some f =>
    if f.res.isSome || s.movingC c then s
    else match f.kind with
    | .busy vas atom => s.loadReread c f vas atom
    | .hwin h base n took ord => s.hwinTry c f h base n took ord
    | .table op got _ _ _ none => s.tableGo c f op got
    | _ => s

/-- BUSY_REREAD (R123). -/
def execBusyReread (c : CoreRef) (id : Nat) (s : State) : Host.Outcome State Fault Refusal := atCore c (·.busyReread c id) s

/-- ZERO_PENDING_TABLE_FREED (R127): the requests of a core (0 the worker, else the feeder) that a full table held are tried
again: what it holds at issue, and what is in flight. -/
def execZeroPendingTableFreed (t i : Nat) (s : State) : Host.Outcome State Fault Refusal :=
  atTile t (fun s =>
    if s.chips.any (fun e => decide (4096 ≤ e.2.zp.length)) then s
    else
      let c : CoreRef := if i = 0 then .worker t else .feeder t
      (s.core c).flights.foldl (fun s f => match f.kind with
        | .busy _ _ => s.busyReread c f.id
        | .hwin _ _ _ _ _ => s.busyReread c f.id
        | .table _ _ _ _ _ none => s.busyReread c f.id
        | _ => s) (s.modCore c (fun x => { x with blocked := false }))) s

/-- The 64-byte lines of some addresses. -/
def linesOf64 (l : List Nat) : List Nat := l.foldl (fun a x => setIns a (x / 64)) []

/-- The bytes of a read as its home slice and the tile give them: the lines of L1 it had at issue, the tile's buffered stores of
before it, then memory. -/
def State.readBytes (s : State) (c : CoreRef) (id : Nat) (l : List LByte) : List Byte :=
  let b := (s.tile (tileOf c)).sbufBefore c id
  l.map (fun a => a.v.getD ((sbufByte b a.pa).getD (memRead s.mem a.pa)))

/-- A home slice serves a read: the bytes the tile did not have; the lines enter its L1. A block of the table stream is read as
an ordinary load (14 R225), after the acquires of before it and its core's own earlier stores to its bytes. -/
def State.homeRead (s : State) (c : CoreRef) (id bad : Nat) : State :=
  let x := s.core c
  let go (l : List LByte) (z : Bool) (f : State → List Byte → State) : State :=
    let pas := l.map (·.pa)
    if s.earlier c id pas || s.memShut (s.coreRouter c) pas then s
    else
      let r := (s.zpTouch z pas).readCheck (pas.headD 0) bad
      if !r.2 then r.1
      else (linesOf64 pas).foldl (fun s n => s.l1Fill (tileOf c) n) (f r.1 (r.1.readBytes c id l))
  match x.flight? id with
  | none => s
  | some f =>
    if f.res.isSome || s.movingC c then s
    else match f.kind with
      | .load l z => go l z (fun s b => s.modCore c (·.resolve id (f.shape.make (b.map (fun y => (y, true))))))
      | .table op got _ pos j (some r) =>
        if (x.before id).any (fun g => g.acq.isSome || meetsPa g.writePas (r.1.map (·.pa))) then s
        else go r.1 r.2 (fun s b => s.tableGo c f op (⟨pos, j, digitsOf b⟩ :: got))
      | _ => s

/-- HOME_SLICE_READ (R137, R259-R261). -/
def execHomeSliceRead (c : CoreRef) (id bad : Nat) (s : State) : Host.Outcome State Fault Refusal :=
  atCore c (·.homeRead c id bad) s

/-- The addresses whose BUSY entries a flight may be waiting on; those of LAUNCH's ring are in the address space of its queue's
context. -/
def State.busyVas (s : State) (f : Flight) : List W64 :=
  match f.kind with
  | .busy vas _ => vas
  | .hwin _ base n _ _ => winVas base n
  | .table _ _ va _ _ none => [va]
  | .launch l => (match mfind s.queues l.q with
    | some qu =>
      if l.idx = 0 then [BitVec.ofNat 64 qu.base]
      else [BitVec.ofNat 64 (qu.base + 8), BitVec.ofNat 64 (qu.base + 64 + 64 * ((l.idx - 1) % 2 ^ qu.log2n)),
            BitVec.ofNat 64 (qu.base + 16)]
    | none => [])
  | _ => []

/-- The address space in which a flight's addresses are translated. -/
def State.busyCtx (s : State) (c : CoreRef) (f : Flight) : Nat :=
  match f.kind with
  | .launch l => ((mfind s.queues l.q).map (·.ctxn)).getD 256
  | _ => (s.ctxOfCore c).getD 256

/-- A wait on a BUSY entry has lasted 1 ms. -/
def State.busyOver (s : State) (since : Option Nat) : Bool :=
  match since with
  | some t => decide (t + 1000000 ≤ s.time)
  | none => false

/-- After 1 ms on a BUSY entry an access faults PAGE: one in flight, a ring access of LAUNCH among them, or what is held at
issue or at the block entry (R122). -/
def State.busyTimeout (s : State) (c : CoreRef) (id : Nat) : State :=
  match (s.core c).flight? id with
  | some f =>
    (match (s.busyVas f).find? (fun va => s.walk va.toNat 3 (s.ctx (s.busyCtx c f)).root == .busy) with
      | some va => if f.res.isSome || s.movingC c || !s.busyOver f.since then s else s.flightFault c f PAGE va
      | none => s)
  | none =>
    match (s.core c).blocked, (s.core c).busyAt with
    | true, some (va, t) =>
      if !s.isBusy c va || !s.busyOver (some t) then s
      else match (s.core c).phase with
        | .entering t _ => s.headerTrap c PAGE t va
        | _ => s.takeTrap c PAGE va
    | _, _ => s

/-- BUSY_TIMEOUT (R122). -/
def execBusyTimeout (c : CoreRef) (id : Nat) (s : State) : Host.Outcome State Fault Refusal :=
  atCore c (·.busyTimeout c id) s

/-- A translation is one that a TLBINV removes (R126): of the page form, one that covers the address. -/
def trHit (form va : Nat) (t : Nat × Nat) : Bool := form != 0 || t.2 == va / 2 ^ (13 + 10 * t.1)

/-- An access that used a translation removed by TLBINV is still to be performed (R126): one of a core, a buffered store, or the
stores of a kernel's completion. A store that stands in an egress gate has been performed as far as it can be (log 32). -/
def State.usesOld (s : State) (form ctx va : Nat) : Bool :=
  let openC (x : Core) : Bool := x.flights.any (fun f => f.res.isNone && f.trs.any (trHit form va))
  s.tiles.any (fun e => (form == 2 || e.2.ctx == some ctx) && e.2.ctx.isSome &&
    (e.2.sbuf.any (fun b => b.trs.any (trHit form va)) || openC e.2.worker || openC e.2.feeder)) ||
  s.kernels.any (fun e => (form == 2 || e.2.ctx == ctx) && e.2.xl.isSome && e.2.trs.any (trHit form va))

/-- TLBINV_COMPLETE: every acknowledgement has come and the old accesses are done: the core issues again. -/
def State.tlbinvDone (s : State) (c : CoreRef) : State :=
  match (s.core c).flights.find? (fun f => match f.kind with
    | .tlbinv _ _ _ => true
    | _ => false) with
  | none => s
  | some f =>
    match f.kind with
    | .tlbinv form ctx va =>
      if s.usesOld form ctx va then s
      else (s.tlbKill form ctx va).modCore c (fun x => { x.deliver f.id (.s iz) with blocked := false })
    | _ => s

/-- TLBINV_COMPLETE (R126). -/
def execTlbinvComplete (c : CoreRef) (s : State) : Host.Outcome State Fault Refusal := atCore c (·.tlbinvDone c) s

/-! ### Pins and forced pages (R128-R131) -/

/-- A window loses a forced page: it is STALE, and its pin on the page is gone. -/
def Handle.force (h : Handle) (frame : Nat) : Handle :=
  if h.kind = 1 ∧ h.pins.contains frame then
    { h with st := if h.st = .allocated then .stale else h.st, pins := h.pins.filter (· != frame) }
  else h

/-- Every window of a tile or tile image loses a forced page. -/
def VTile.force (v : VTile) (frame : Nat) : VTile := { v with handles := mmapv (fun (h : Handle) => h.force frame) v.handles }

/-- A STALE record for each page that a window loses (R131). -/
def State.logStale (s : State) (n : Nat) (vt : BitVec 16) (h : Nat) (base : W64) (pages : List Nat) : State :=
  pages.foldl (fun s i => s.logCtx n 0x0003 vt 2 (detail [(344, h), (291, (base.toNat + 8192 * i) % 2 ^ 53)]) 0) s

/-- The pages of a window on a frame. -/
def Handle.pagesOn (h : Handle) (frame : Nat) : List Nat :=
  if h.kind = 1 then (rangeFrom 0 h.pins.length).filter (fun i => h.pins.getD i 0 == frame) else []

/-- The records of the windows of one tile, or of a tile's image. -/
def State.staleOf (s : State) (n : Nat) (vt : BitVec 16) (v : VTile) (frame : Nat) : State :=
  v.handles.foldl (fun s e => s.logStale n vt e.1 e.2.base (e.2.pagesOn frame)) s

/-- The pins that the windows of some tiles hold on a frame. -/
def pinsOn (l : List VTile) (frame : Nat) : List Nat :=
  l.flatMap (fun v => v.handles.flatMap (fun e => (e.2.pagesOn frame).map (fun _ => frame)))

/-- A tile whose windows lose a frame: stores made through them that are still buffered are suppressed, with the tile's copies of
their bytes and of the frame's lines (R131). -/
def VTile.forced (v : VTile) (frame : Nat) : VTile :=
  let hs := (v.handles.filter (fun e => !(e.2.pagesOn frame).isEmpty)).map (·.1)
  if hs.isEmpty then v
  else
    let gone (e : SBEntry) : Bool := match e.win with
      | some h => hs.contains h
      | none => false
    { v.force frame with
      sbuf := v.sbuf.filter (fun e => !gone e),
      l1 := (l1Drop v.l1 ((v.sbuf.filter gone).flatMap (fun e => e.bytes.map (·.1)))).filter
        (fun e => e.1 / 128 != frame / 8192) }

/-- FORCE_PAGE (R131): the windows that hold the page are STALE, their pins on it are released, and each holder's log gets
a record; those of saved images as well, whose tiles are named as the partition stood when they were made. Windows of recovery points are
marked. -/
def State.forcePage (s : State) (frame : Nat) : State :=
  let live := s.tiles
  let saved := s.ctxs.flatMap (fun e => e.2.image.map (·.2))
  let s := live.foldl (fun s e => match e.2.ctx with
    | some n => s.staleOf n (s.vtileBits e.1) e.2 frame
    | none => s) s
  let s := s.ctxs.foldl (fun s e => e.2.image.foldl (fun s v =>
    s.staleOf e.1 (BitVec.ofNat 16 ((v.1 / 128 - e.2.imgAt.1) % 256 * 256 + (v.1 % 128 - e.2.imgAt.2) % 256)) v.2 frame) s) s
  let s := s.unpin (pinsOn (live.map (·.2) ++ saved) frame)
  { s with tiles := mmapv (fun (v : VTile) => v.forced frame) s.tiles,
           ctxs := mmapv (fun (x : Ctx) =>
             { x with image := mmapv (fun (v : VTile) => v.force frame) x.image,
                      points := x.points.map (fun (p : RPoint) =>
                        { p with image := mmapv (fun (v : VTile) => v.force frame) p.image }) }) s.ctxs }

/-- FORCE_PAGE (R131). -/
def execForcePage (frame : Nat) (s : State) : Host.Outcome State Fault Refusal := .next (s.forcePage frame)

/-- FRAME_STATUS_READ (R130): the pin count. -/
def execFrameStatusRead (frame : Nat) (s : State) : Host.Outcome State Fault Refusal :=
  .next { s with reply := [BitVec.ofNat 64 (mget 0 s.pins frame)] }

/-! ### The life of handles -/

/-- HALLOC_COMPLETE: the units are scrubbed and no earlier allocation waits for them; the handle exists and its number is
returned. A window that waits for units is tried the same way. -/
def State.hallocDone (s : State) (c : CoreRef) (id : Nat) : State :=
  match (s.core c).flight? id with
  | none => s
  | some f =>
    if f.res.isSome || s.movingC c then s
    else match f.kind, f.alloc? with
    | .halloc h w _, some a =>
      if !(s.tile (tileOf c)).scrubbed a then s
      else
        (s.modTile (tileOf c) (fun v => { v with handles := mput v.handles h (Handle.fresh (descOf w) 0 []) })).modCore c
          (·.resolve id (.s (valid (BitVec.ofNat 64 h))))
    | .hwin h base n took ord, _ => s.hwinTry c f h base n took ord
    | _, _ => s

/-- HALLOC_COMPLETE (R107). -/
def execHallocComplete (c : CoreRef) (id : Nat) (s : State) : Host.Outcome State Fault Refusal := atCore c (·.hallocDone c id) s

/-- A flight of some core holds an access to a handle of a tile: a window load or an access held at its own tile, or a remote
access that has passed its checks and is held at its issuer. -/
def Flight.onHandle (f : Flight) (own : Bool) (t h : Nat) : Bool :=
  match f.kind with
  | .window g _ => own && g == h && f.res.isNone
  | .held x => (match x.op with
    | .acc dst g _ _ => dst == t && g == h
    | _ => own && f.heldHandle == some h)
  | _ => false

/-- An access to a handle that HFREE waits for: a flight of some core, a footprint, a remote access or a multicast copy on its
way, or a store through a window that is not yet performed. -/
def State.handleBusy (s : State) (t h : Nat) : Bool :=
  let v := s.tile t
  v.worker.flights.any (·.onHandle true t h) || v.feeder.flights.any (·.onHandle true t h) ||
    s.tiles.any (fun e => (e.2.worker.flights ++ e.2.feeder.flights).any (·.onHandle (e.1 == t) t h)) ||
    v.feet.any (fun f => (f.2.reads ++ f.2.write).any (fun r => r.h == h)) ||
    s.traffic.any (fun i => i.dst == t && (match i.body with
      | .acc g _ _ => g == h
      | .mcast g _ _ _ _ _ _ => g == h
      | _ => false)) || v.sbuf.any (fun e => e.win == some h)

/-- HFREE's core learns that the handle is FREE. -/
def Core.freed (x : Core) (h : Nat) : Core :=
  let up (k : Nat) : Nat := if k = h then h + 256 else k
  { x with began := x.began.map up, resume := x.resume.map (fun r => (r.1, up r.2)),
           blocked := if x.began = some h then false else x.blocked }

/-- HFREE_COMPLETE: blocked consuming loads get invalid zero, the handle is FREE, its units are scrubbed, a window's pins
are released. -/
def State.hfreeDone (s : State) (t h : Nat) : State :=
  match mfind (s.tile t).handles h with
  | none => s
  | some x =>
    if x.st ≠ .freeing ∨ s.handleBusy t h then s
    else
      let ws := (s.tile t).waits.filter (fun w => w.h == h)
      let s := ws.foldl (fun s w => s.giveZero w.c w.id) s
      let s := if x.kind = 1 then s.unpin x.pins else s
      s.modTile t (fun v =>
        { v with handles := mdel v.handles h, waits := v.waits.filter (fun w => w.h != h),
                 scrub := setAt v.scrub x.level (v.scrubbing x.level + x.units), worker := v.worker.freed h,
                 feeder := v.feeder.freed h })

/-- HFREE_COMPLETE (R108). -/
def execHfreeComplete (t h : Nat) (s : State) : Host.Outcome State Fault Refusal := atTile t (·.hfreeDone t h) s

/-- UNIT_SCRUB_DONE (R108): one more unit of the level is scrubbed. -/
def execUnitScrubDone (t level : Nat) (s : State) : Host.Outcome State Fault Refusal :=
  atTile t (·.modTile t (fun v => { v with scrub := setAt v.scrub level (v.scrubbing level - 1) })) s

/-- WINDOW_LINE_FILL: the line of the pinned frame, under the tile's buffered stores, then the load; a line that is there by then
serves it as it is. An earlier read of its bytes goes first (07 R143). -/
def State.windowFill (s : State) (c : CoreRef) (id : Nat) : State :=
  let t := tileOf c
  match (s.core c).flight? id with
  | none => s
  | some f =>
    match f.kind with
    | .window h off =>
      if f.res.isSome || s.moving t then s
      else match mfind (s.tile t).handles h with
        | none => s.modCore c (·.resolve id (zeroOf f.cls))
        | some x =>
          let n := f.shape.per 1
          if s.earlier c id ((s.tile t).winPas h off n) then s
          else if !x.lineAbsent off then s.modCore c (·.resolve id (f.shape.make (x.read off n)))
          else
            let o := off / 64 * 64
            let pa := x.pins.getD (o / 8192) 0 + o % 8192
            if s.memShut (s.coreRouter c) [pa] then s else
            let s := s.zpTouch true [pa]
            let bytes := (rangeFrom 0 64).map (fun i =>
              (o + i, (sbufByte (s.tile t).sbuf (pa + i)).getD (memRead s.mem (pa + i))))
            let x := { x.write bytes false with lines := setIns x.lines (o / 64) }
            (s.modTile t (fun v => { v with handles := mput v.handles h x })).modCore c
              (·.resolve id (f.shape.make (x.read off n)))
    | _ => s

/-- WINDOW_LINE_FILL (R114). -/
def execWindowLineFill (c : CoreRef) (id : Nat) (s : State) : Host.Outcome State Fault Refusal := atCore c (·.windowFill c id) s

end Sys2Proof.Machine
end

