-- ==== Sys2Proof/Machine/EvTransfer.lean ====
section
/-! DEFINITION. Events of the engines: transfers (13 R211-R213, R217; 06 R128), the matrix and drain units (13 R219, R220; 04
R96), barrier and group traffic at its destination (11 R194, 12 R201, R206), and the Zephyr engine (14 R235).

A transfer is named by its tile and its place in tile issue order. An event that is not due leaves the state as it is. -/

namespace Sys2Proof.Machine

/-! ### Transfers -/

/-- An event of a transfer that is in a given state. -/
def atXfer (t x : Nat) (st : XSt) (f : State → Xfer → State) (s : State) : Host.Outcome State Fault Refusal :=
  atTile t (fun s => match (s.tile t).xfer? x with
    | some k => if k.st = st then f s k else s
    | none => s) s

/-- What a command of the engines waits for: of the accesses of its core that issued before it (numbered below n), an acquire
or a load without its value (07 R142, R143), and, for a command with global accesses, the core's own stores (07 R136); of the
accesses that either core holds since before the command's place in tile issue order, and of the consuming loads that wait since
then, those to its footprint (07 R136, R214). -/
def State.cmdHeld (s : State) (t : Nat) (feeder : Bool) (n order : Nat) (foot : Foot) (global : Bool) : Bool :=
  let old := (s.core (if feeder then .feeder t else .worker t)).before n
  old.any (fun f => f.acq.isSome || f.isOpenLoad || (global && !f.writePas.isEmpty && f.isHeld)) ||
    ((s.tile t).worker.flights ++ (s.tile t).feeder.flights).any (fun f =>
      foot.write.any (f.bankBefore order · true) || foot.reads.any (f.bankBefore order · false)) ||
    (s.tile t).waits.any (fun w => decide (w.ord < order) && (foot.write.any (Rng.near ⟨w.h, w.off, w.off + w.n⟩) ||
      (w.fec && foot.reads.any (Rng.near ⟨w.h, w.off, w.off + w.n⟩)))) ||
    (global && (s.tile t).sbuf.any (fun e => e.feeder == feeder && decide (e.after ≤ n)))

/-- The same of a transfer and of a matrix or drain command. -/
def State.xferHeld (s : State) (t : Nat) (k : Xfer) : Bool :=
  s.cmdHeld t k.feeder k.after k.order k.foot (k.kind != 1 && !(k.kind == 0 && k.dir == 2))

def State.mcmdHeld (s : State) (t : Nat) (m : MCmd) : Bool := s.cmdHeld t false m.after m.order m.foot false

/-- A bank of the physical tile behind a virtual one is in retention: an engine command wakes its banks before it starts (16 R254;
which bytes a bank holds the spec does not say, log 59). -/
def State.asleep (s : State) (t : Nat) : Bool :=
  match s.physOf t with
  | some p => !(s.ptile p).retention.isEmpty
  | none => false

/-- TRANSFER_START (R211, R214): no older footprint or access holds it back, and the tile's engines are not frozen. -/
def execTransferStart (t x : Nat) (s : State) : Host.Outcome State Fault Refusal :=
  atXfer t x .queued (fun s k =>
    if s.frozen t || (s.ctxOfTile t).fault || s.asleep t || (s.tile t).heldBack k.order k.foot || s.xferHeld t k then s
    else s.setXfer t { k with st := .running }) s

/-- PIN_RETRY (R128): a transfer that waits for a pin tries its next move again. -/
def execPinRetry (t x : Nat) (s : State) : Host.Outcome State Fault Refusal :=
  atXfer t x .running (fun s k => if k.kind = 1 || s.frozen t || (s.ctxOfTile t).fault then s else (s.xferMove t k 1).1) s

/-- TRANSFER_FINISH: what is left of the transfer moves, and it is DONE; a multicast is sent, and is DONE with its last
acknowledgement. -/
def State.xferFinish (s : State) (t : Nat) (k : Xfer) : State :=
  if s.frozen t || (s.ctxOfTile t).fault then s
  else if k.kind = 1 then (if k.sent then s else s.xferCast t k)
  else
    let r := s.xferMove t k (k.total + 1)
    if r.2.st = .running ∧ r.2.total ≤ r.2.doneb then r.1.xferDone t r.2 else r.1

/-- TRANSFER_FINISH (R211). -/
def execTransferFinish (t x : Nat) (s : State) : Host.Outcome State Fault Refusal :=
  atXfer t x .running (fun s k => s.xferFinish t k) s

/-- The global addresses of a transfer's next move. -/
def State.nextVas (s : State) (t : Nat) (k : Xfer) : List W64 :=
  let h := (s.tile t).hd k.hnd
  if k.kind = 1 ∨ k.total ≤ k.doneb then [] else (k.vas (k.hopLen (rowBytes h.fmt h.cols))).filterMap id

/-- A transfer cannot use the page of an address: the cause, 0 where it stands behind a BUSY entry. -/
def State.pageBad (s : State) (t : Nat) (k : Xfer) (va : W64) : Option Nat :=
  match (s.translate { ctx := ((s.tile t).ctx).getD 256, tile := some t, chip := chipOf t } va
      ⟨!k.isWrite, k.isWrite, false, true⟩).2 with
  | .page => some 1
  | .prot => some 2
  | .busy => some 0
  | _ => none

/-- The page a transfer cannot go on in: the first of its next move that it cannot use. -/
def State.xferBad (s : State) (t : Nat) (k : Xfer) : Option (Nat × W64) :=
  (s.nextVas t k).findSome? (fun va => (s.pageBad t k va).map (fun c => (c, va)))

/-- The transfer has waited for a page for 1 ms. -/
def State.xferOver (s : State) (t : Nat) (k : Xfer) (va : W64) : Bool := (s.waited (xferAgent t k) (va.toNat / 8192)).2

/-- TRANSFER_FAULT (R213): the transfer passes its remainder to the controller. Causes 1 PAGE and 2 PROT are found by its
next move, 3 is an uncorrectable memory error. -/
def execTransferFault (t x cause : Nat) (s : State) : Host.Outcome State Fault Refusal :=
  atXfer t x .running (fun s k =>
    if cause = 3 then (if k.kind = 1 then s else s.setXfer t { k with st := .slow, cause := 3 })
    else match s.xferBad t k with
      | some (0, va) =>
        -- a BUSY entry is a PAGE fault after 1 ms (06 R122)
        if cause = 1 && s.xferOver t k va then s.setXfer t { k with st := .slow, cause := 1 } else s
      | some (c, va) => if c = cause then (s.setXfer t { k with st := .slow, cause := c }).xferWaits t k va else s
      | none => s) s

/-- SLOW_PATH_RETRY (R213): four moves of a granule; a page that cannot be used stops it where it is. -/
def execSlowPathRetry (t x : Nat) (s : State) : Host.Outcome State Fault Refusal :=
  atXfer t x .slow (fun s k => if s.frozen t || (s.ctxOfTile t).fault then s else (s.xferMove t k 4).1) s

/-- A move without what a page that cannot be used holds back: of a write the bytes in it, of a read the granules that take a byte
from it. -/
def State.movable (s : State) (t : Nat) (k : Xfer) (l : List MByte) : List MByte :=
  let bad (b : MByte) : Bool := match k.va b.i with
    | some va => (s.pageBad t k va).isSome
    | none => false
  if k.isWrite then l.filter (fun b => !bad b)
  else l.filter (fun b => !(l.any (fun c => bad c && c.o / 16 == b.o / 16)))

/-- The next move of a transfer is made without what a page holds back, and so is every move after it that needs the page: the
addresses at which such pages were met, one for each page. -/
def State.skipMoves (s : State) (t page : Nat) : Nat → Xfer → List W64 → State × Xfer × List W64
  | 0, k, bad => (s, k, bad)
  | n + 1, k, bad =>
    let vas := s.nextVas t k
    if !vas.any (fun va => va.toNat / 8192 == page) then (s, k, bad)
    else
      let h := (s.tile t).hd k.hnd
      let rowB := rowBytes h.fmt h.cols
      let m := k.hopLen rowB
      let bad := vas.foldl (fun b va => if (s.pageBad t k va).isSome && !b.any (fun o => o.toNat / 8192 == va.toNat / 8192)
        then b ++ [va] else b) bad
      let l := s.movable t k ((rangeFrom k.doneb m).map (fun i => ⟨k.loc rowB i, none, i⟩))
      match s.xferXls t k k.isWrite (l.map (fun b => k.va b.i)) with
      | (s, k, (ps, z, .moved)) =>
        if k.isWrite && s.undoFull (((s.tile t).ctx).getD 256) (linesOf (ps.filterMap id)) then (s, k, bad)
        else
          State.skipMoves (s.xferMoveBytes t k ((l.zip ps).map (fun e => { e.1 with pa := e.2 })) z) t page n
            { k with doneb := k.doneb + m } bad
      | (s, k, _) => (s, k, bad)

/-- SLOW_PAGE_SKIP (R213): a page still absent or forbidden after 1 ms is skipped and an XFAULT record written. What else a move
that needs it carries, in whole granules, is still moved. -/
def State.pageSkip (s : State) (t : Nat) (k : Xfer) : State :=
  match s.xferBad t k with
  | none => s
  | some (_, va) =>
    if !s.xferOver t k va then s.xferWaits t k va
    else
      match s.skipMoves t (va.toNat / 8192) (k.total + 1) k [] with
      | (s, k, bad) => bad.foldl (fun s va => s.logTile t 0x0004 2
          (detail [(320, k.xid.toNat), (318, k.ch), (265, va.toNat % 2 ^ 53)])) (s.setXfer t k)

/-- SLOW_PAGE_SKIP (R213). -/
def execSlowPageSkip (t x : Nat) (s : State) : Host.Outcome State Fault Refusal :=
  atXfer t x .slow (fun s k => if s.frozen t || (s.ctxOfTile t).fault then s else s.pageSkip t k) s

/-- SLOW_PATH_FINISH (R213): firmware moves the transfer to DONE. -/
def execSlowPathFinish (t x : Nat) (s : State) : Host.Outcome State Fault Refusal :=
  atXfer t x .slow (fun s k => if k.total ≤ k.doneb then s.xferDone t k else s) s

/-! ### Matrix and drain units -/

/-- MATRIX_START (R219, 18 R291): a start is a notice cause; it waits for READY and for older footprints. -/
def State.matStart (s : State) (t : Nat) : State :=
  match (s.tile t).mq with
  | [] => s
  | m :: r =>
    if m.running || s.frozen t || (s.ctxOfTile t).fault || s.asleep t || (s.tile t).heldBack m.order m.foot || s.mcmdHeld t m then s
    else
      let ready := (s.chip (chipOf t)).pw.gust == .ready
      let s := s.gustNotice (chipOf t)
      if ready then s.modTile t (fun v => { v with mq := { m with running := true } :: r }) else s

/-- MATRIX_START (R219). -/
def execMatrixStart (t : Nat) (s : State) : Host.Outcome State Fault Refusal := atTile t (·.matStart t) s

/-- A corrected error counted on the physical tile behind a virtual one (16 R262). -/
def State.addErr (s : State) (t : Nat) : State :=
  match s.physOf t with
  | some p => s.setPtile p { s.ptile p with errs := ((s.ptile p).errs + 1) % 2 ^ 32 }
  | none => s

/-- MATRIX_COMPLETION (R96) under the outcome of its fringes (R220): 0 no mismatch, 1 one pass sum corrected, else the pass
is discarded and the fault reported. -/
def State.matDone (s : State) (t fringe : Nat) : State :=
  match (s.tile t).mq with
  | [] => s
  | m :: _ =>
    if !m.running || (s.ctxOfTile t).fault then s
    else if fringe = 0 then s.mmaDone t m
    else if fringe = 1 then (s.addErr t).mmaDone t m
    else
      let s := match s.physOf t with
        | some p => s.countFault p 2
        | none => s
      match (s.tile t).ctx with
      | some n => s.reportFault n
      | none => s

/-- MATRIX_COMPLETION (R96, R220). -/
def execMatrixCompletion (t fringe : Nat) (s : State) : Host.Outcome State Fault Refusal := atTile t (·.matDone t fringe) s

/-- The drain unit works on the head of its list, unless something holds it back. -/
def State.drainHead (s : State) (t : Nat) (f : State → MCmd → State) : State :=
  match (s.tile t).dq with
  | [] => s
  | m :: _ =>
    if s.frozen t || (s.ctxOfTile t).fault || s.asleep t || (s.tile t).heldBack m.order m.foot || s.mcmdHeld t m then s else f s m

/-- DRAIN_COMPLETION (22 R377, R378). -/
def execDrainCompletion (t : Nat) (s : State) : Host.Outcome State Fault Refusal :=
  atTile t (fun s => s.drainHead t (fun s m => s.drainDone t m)) s

/-! ### Multicasts, barriers and groups at their destination -/

/-- A receiver of a multicast (R206, R217): it writes the data with its granules full, posts the bytes, and acknowledges;
where the handle is absent or short, or of level BST (log 26), it only acknowledges. -/
def State.applyMcast (s : State) (x : NetItem) : State :=
  match x.body with
  | .mcast h off bytes bar post ch xid =>
    let s := s.markSeen x
    let ok := match mfind (s.tile x.dst).handles h with
      | some hd => hd.takes off (.load bytes.length 0)
      | none => false
    let s :=
      if ok then
        let s := s.modHandle x.dst h (·.write (atAddr off bytes) true)
        if post then s.barPost x.dst bar bytes.length else s
      else s.logTile x.dst 0x000f 2 (detail [(336, (s.vtileBits x.dst).toNat), (328, h % 256)])
    s.sendItem x.dst x.src 0 x.c 0 (.mack bar ch xid false)
  | _ => s

/-- MULTICAST_RECEIVE (R217). -/
def execMulticastReceive (i : Nat) (s : State) : Host.Outcome State Fault Refusal :=
  .next (if s.netHeld i then s else s.arrive i (fun b => match b with
    | .mcast _ _ _ _ _ _ _ => true
    | _ => false) State.applyMcast)

/-- An acknowledgement at the sender: one arrival on its barrier, if that has not been counted, and one fewer awaited. -/
def State.applyMack (s : State) (x : NetItem) : State :=
  match x.body with
  | .mack bar ch xid counted =>
    let s := s.markSeen x
    let s := if counted then s else (s.barArrive x.dst (barCore bar) bar).1
    match (s.tile x.dst).xfers.find? (fun k => k.kind == 1 && k.ch == ch && k.xid == xid) with
    | none => s
    | some k =>
      let k := { k with acks := k.acks - 1 }
      if k.acks = 0 then s.xferDone x.dst k else s.setXfer x.dst k
  | _ => s

/-- MULTICAST_ACK (R206). -/
def execMulticastAck (i : Nat) (s : State) : Host.Outcome State Fault Refusal :=
  .next (s.arrive i (fun b => match b with
    | .mack _ _ _ _ => true
    | _ => false) State.applyMack)

/-- BARRIER_ARRIVAL: the arrival that an acknowledgement carries is counted. -/
def State.barrierArrival (s : State) (i : Nat) : State :=
  match s.itemReady i with
  | none => s
  | some x =>
    match x.body with
    | .mack bar ch xid false =>
      if (s.physOf x.dst).isNone || (s.driftAt x.dst).isSome || (s.tile x.dst).seen x || (s.tile x.dst).power != .busy then s
      else
        let s := (s.barArrive x.dst (barCore bar) bar).1
        { s with net := setAt s.net i { x with body := .mack bar ch xid true } }
    | _ => s

/-- BARRIER_ARRIVAL (R201). -/
def execBarrierArrival (i : Nat) (s : State) : Host.Outcome State Fault Refusal := .next (s.barrierArrival i)

/-- A group request at the group's home tile. -/
def State.applyGrp (s : State) (x : NetItem) : State :=
  match x.body with
  | .grp r => (s.markSeen x).groupReq x.dst x.c x.id r
  | _ => s

/-- GROUP_REQUEST_ARRIVAL (R194, R208). -/
def execGroupRequestArrival (i : Nat) (s : State) : Host.Outcome State Fault Refusal :=
  .next (s.arrive i (fun b => match b with
    | .grp _ => true
    | _ => false) State.applyGrp)

/-- Whatever a channel item is, applied at its destination. -/
def State.applyItem (s : State) (x : NetItem) : State :=
  match x.body with
  | .acc _ _ _ => s.applyAcc x
  | .msg _ => s.applyMsg x
  | .grp _ => s.applyGrp x
  | .mcast _ _ _ _ _ _ _ => s.applyMcast x
  | .mack _ _ _ _ => s.applyMack x

/-! ### Accesses of agents that act for a context (06 R426) -/

/-- What an access by an agent met. -/
inductive SysAcc where
  | ok
  | wait
  | fault (code : Nat) (va : Nat)
deriving DecidableEq, Repr

/-- A translation for an agent that acts for a context: on a BUSY entry it waits, for 1 ms at most (06 R122, R426). `key`: the
agent among those that wait. -/
def State.agentXl (s : State) (key n chip : Nat) (va : W64) (nd : Need) : State × Xl :=
  match s.translate (sysAgent n chip) va nd with
  | (s, .busy) =>
    let r := s.waited key va.toNat
    if r.2 then ({ r.1 with busy := mdel s.busy key }, .page) else (r.1, .busy)
  | (s, r) => (if (mfind s.busy key).map (·.1) = some va.toNat then { s with busy := mdel s.busy key } else s, r)

/-- The kicks that a write of such an agent makes (09 R169). -/
def State.agentKick (s : State) (qs : List Nat) (agent : Nat) : State :=
  { s with kicks := s.kicks ++ qs.map (fun q => ⟨q, agent, s.kicks.length⟩) }

/-- A write of bytes within one page by an agent for a context: translated, undo-logged, performed at its home slice, a kick
where it touches a NOTIFY word. -/
def State.sysWrite (s : State) (n chip agent : Nat) (nd : Need) (va : Nat) (bytes : List Byte) : State × SysAcc :=
  match s.agentXl agent n chip (BitVec.ofNat 64 va) nd with
  | (s, .ok pa z) =>
    let l := atAddr pa bytes
    if s.undoFull n (linesOf (l.map (·.1))) || s.memShut (272 * chip) (l.map (·.1)) then (s, .wait)
    else
      let s := s.homeWrite n z l
      (s.agentKick (s.notifyOf (l.map (·.1))) agent, .ok)
  | (s, .busy) => (s, .wait)
  | (s, .full) => (s, .wait)
  | (s, .page) => (s, .fault 1 va)
  | (s, .prot) => (s, .fault 2 va)

/-- A read of n bytes within one page by an agent for a context. -/
def State.sysRead (s : State) (n chip agent va k : Nat) : State × SysAcc × List Byte :=
  match s.agentXl agent n chip (BitVec.ofNat 64 va) ⟨true, false, false, false⟩ with
  | (s, .ok pa z) =>
    if s.memShut (272 * chip) (rangeFrom pa k) then (s, .wait, []) else
    let s := s.zpTouch z (rangeFrom pa k)
    (s, .ok, memReadN s.mem pa k)
  | (s, .busy) => (s, .wait, [])
  | (s, .full) => (s, .wait, [])
  | (s, .page) => (s, .fault 1 va, [])
  | (s, .prot) => (s, .fault 2 va, [])

/-- The agents of 06 R426 by number: a queue's slot, and the completion stores of a kernel. -/
def slotAgent (q : Nat) : Nat := 100000 + q
def complAgent (kn : Nat) : Nat := 200000 + kn

/-- The need of an agent's write: U is not asked for. -/
def sysW : Need := ⟨false, true, false, false⟩

/-! ### The Zephyr engine (R235) -/

/-- ZEPHYR_FILL_REQUEST: a request with a field out of range is refused; one fill runs at a time. -/
def State.zephyrRequest (s : State) (chip ctx : Nat) (req : BitVec 256) : State :=
  let f (lo n : Nat) : Nat := req.toNat / 2 ^ lo % 2 ^ n
  let z : Zephyr := { ctx := ctx, dest := f 203 53, count := f 171 32, sel := BitVec.ofNat 16 (f 155 16), pos0 := f 115 40,
                      cword := f 62 53, status := none }
  if f 0 62 ≠ 0 ∨ z.sel = 0xffff ∨ z.count = 0 ∨ z.dest % 16 ≠ 0 ∨ z.cword % 8 ≠ 0 ∨ 2 ^ 40 < z.pos0 + z.count ∨
      (s.chip chip).zeph.isSome ∨ 256 ≤ ctx then s
  else s.modChip chip (fun h => { h with zeph := some z })

/-- ZEPHYR_FILL_REQUEST (R235). -/
def execZephyrFillRequest (chip ctx : Nat) (req : BitVec 256) (s : State) : Host.Outcome State Fault Refusal :=
  atChip chip (·.zephyrRequest chip ctx req) s

/-- The need of the engine's writes, which are ordinary writes of the context. -/
def zephW : Need := ⟨false, true, false, true⟩

/-- Filling block after block; what is left, and what stopped it. -/
def State.zephyrFill (s : State) (chip : Nat) (z : Zephyr) : Nat → State × Zephyr × SysAcc
  | 0 => (s, z, .ok)
  | n + 1 =>
    if z.count = 0 then (s, z, .ok)
    else
      let b := zf128 (s.ctx z.ctx).key 0x5a z.sel.toNat z.pos0 0
      match s.sysWrite z.ctx chip (42000 + chip) zephW z.dest (natBytes 16 b.toNat) with
      | (s, .ok) => State.zephyrFill s chip { z with dest := z.dest + 16, count := z.count - 1, pos0 := z.pos0 + 1 } n
      | (s, r) => (s, z, r)

/-- ZEPHYR_FILL_COMPLETE: the blocks are written, then the completion word: 1, or 2 where a page was absent or forbidden, at which
the fill has ended. A wait keeps what is left. -/
def State.zephyrDone (s : State) (chip : Nat) : State :=
  match (s.chip chip).zeph with
  | none => s
  | some z =>
    let keep (s : State) (z : Zephyr) : State := s.modChip chip (fun h => { h with zeph := some z })
    let fin (s : State) (z : Zephyr) (st : Nat) : State :=
      match s.sysWrite z.ctx chip (42000 + chip) zephW z.cword (natBytes 8 st) with
      | (s, .wait) => keep s { z with status := some st }
      | (s, _) => s.modChip chip (fun h => { h with zeph := none })
    match z.status with
    | some st => fin s z st
    | none =>
      match s.zephyrFill chip z (z.count + 1) with
      | (s, z, .wait) => keep s z
      | (s, z, .ok) => fin s z 1
      | (s, z, _) => fin s z 2

/-- ZEPHYR_FILL_COMPLETE (R235). -/
def execZephyrFillComplete (chip : Nat) (s : State) : Host.Outcome State Fault Refusal := atChip chip (·.zephyrDone chip) s

end Sys2Proof.Machine
end

