-- ==== Sys2Proof/Machine/EvQueue.lean ====
section
/-! DEFINITION. Events of queues, slots and kernels: kicks and slots (09 R164-R176, R179; 28 R418-R421), the scheduler firmware
with its journal (09 R176-R178), kernel boundaries and completions (07 R147; 10 R186-R189), and the ring side of LAUNCH (21
R364).

An event that is not due leaves the state as it is. -/

namespace Sys2Proof.Machine

/-! ### Slots -/

/-- Changing a slot, if it is not FREE. -/
def State.modSlot (s : State) (chip n : Nat) (f : Slot → Slot) : State :=
  match mfind (s.chip chip).slots n with
  | some x => s.modChip chip (fun h => { h with slots := mput h.slots n (f x) })
  | none => s

/-- The chiplet and slot that hold a queue. -/
def State.slotFor (s : State) (q : Nat) : Option (Nat × Nat × Slot) :=
  s.chips.findSome? (fun e => (e.2.slots.find? (fun x => x.2.q == q)).map (fun x => (e.1, x.1, x.2)))

/-- The unmap of a slot because its queue is disabled or its context stops: a slot that still loads unmaps after it. -/
def State.unmapSlot (s : State) (chip n : Nat) (noBit : Bool) : State :=
  s.modSlot chip n (fun x =>
    if x.st = .mapping then { x with unmapReq := true, noBit := x.noBit || noBit }
    else { x with st := .unmapping, noBit := x.noBit || noBit, unmapReq := false })

/-- Disabling a queue (R173): EN 0, its slot unmaps without setting bit q, bit q is cleared. -/
def State.disableQueue (s : State) (q : Nat) : State :=
  match mfind s.queues q with
  | none => s
  | some qu =>
    let s := { s with queues := mput s.queues q { qu with en := false } }
    let s := s.modChip (s.queueHome qu) (fun h => { h with pkb := mdel h.pkb q })
    match s.slotFor q with
    | some (chip, n, _) => s.unmapSlot chip n true
    | none => s

/-- A fault on a slot's ring access (06 R426): the queue is disabled, and the fault recorded. -/
def State.slotFault (s : State) (q : Nat) (code va : Nat) : State :=
  match mfind s.queues q with
  | none => s
  | some qu =>
    (s.disableQueue q).logCtx qu.ctxn 0x0010 0 2
      (detail [(344, 1), (328, q), (275, va % 2 ^ 53), (273, code)]) 0

/-- WIDX and RIDX of queue n, as its home chiplet reads them. -/
def State.ringRead (s : State) (n : Nat) (q : Queue) : State × SysAcc × Nat × Nat :=
  match s.sysRead q.ctxn (s.queueHome q) (slotAgent n) q.base 16 with
  | (s, r, l) => (s, r, leNat (l.take 8), leNat (l.drop 8))

/-- Bytes of a packet slot of the ring: packet index i uses slot i mod N. -/
def Queue.slotVa (q : Queue) (i : Nat) : Nat := q.base + 64 + 64 * (i % 2 ^ q.log2n)

/-- The packet at an index. -/
def State.pktRead (s : State) (n : Nat) (q : Queue) (i : Nat) : State × SysAcc × List Byte :=
  s.sysRead q.ctxn (s.queueHome q) (slotAgent n) (q.slotVa i) 64

/-- A field of n bytes of a packet. -/
def pk (l : List Byte) (off n : Nat) : Nat := leNat ((l.drop off).take n)

/-- A packet is complete at an index (R168). -/
def pkComplete (l : List Byte) (i : Nat) : Bool := pk l 4 4 == i % 2 ^ 32

/-- Logged packets of a queue that a rollback asks to place again. -/
def State.againOf (s : State) (q : Nat) (qu : Queue) : Option PktLog :=
  (s.ctx qu.ctxn).again.find? (fun p => p.q == q)

/-! ### KICK (R169) -/

/-- KICK: the kick reaches the home controller of its queue. -/
def State.kick (s : State) (i : Nat) : State :=
  match s.kicks[i]? with
  | none => s
  | some k =>
    let s := { s with kicks := delAt s.kicks i }
    match mfind s.queues k.q with
    | none => s
    | some qu =>
      if !qu.en || !(s.ctx qu.ctxn).live then s
      else match s.slotFor k.q with
        | some (chip, n, x) =>
          if x.st = .unmapping then s.setPkb (s.queueHome qu) k.q
          else if x.st = .idle then s.modSlot chip n (fun x => { x with st := .active })
          else s
        | none => s.setPkb (s.queueHome qu) k.q

/-- KICK (R169). -/
def execKick (i : Nat) (s : State) : Host.Outcome State Fault Refusal := .next (s.kick i)

/-! ### The life of a slot (R170-R172) -/

/-- SLOT_LOADED: the descriptor is read, bit q cleared; an unmap that waited for the load (R173) is carried out. -/
def State.slotLoaded (s : State) (chip n : Nat) : State :=
  match mfind (s.chip chip).slots n with
  | some x =>
    if x.st ≠ .mapping then s
    else
      let s := s.modChip chip (fun h => { h with pkb := mdel h.pkb x.q })
      if x.unmapReq then s.modSlot chip n (fun x => x.unmap x.noBit)
      else s.modSlot chip n (fun x => { x with st := .active })
  | none => s

/-- SLOT_LOADED (R170). -/
def execSlotLoaded (chip slot : Nat) (s : State) : Host.Outcome State Fault Refusal := atChip chip (·.slotLoaded chip slot) s

/-- The status of a packet's check (R167): 0 when it is accepted. -/
def pkStatus (q : Queue) (x : Ctx) (l : List Byte) : Nat :=
  let fl := pk l 2 2
  let cls := fl % 2
  let flt := fl / 2 % 2 == 1
  let immed := fl / 4 % 2 == 1
  let repro := fl / 8 % 2 == 1
  let w := pk l 8 8
  let f := pk l 16 8
  let prim := if cls = 0 then w else f
  let comp := if cls = 0 then f else w
  if pk l 0 2 ≠ 1 then 1
  else if fl / 16 ≠ 0 ∨ pk l 56 1 / 8 ≠ 0 ∨ pk l 57 1 / 8 ≠ 0 ∨ pk l 60 4 ≠ 0 then 2
  else if 5 < pk l 56 1 then 3
  else if q.maxprio < pk l 57 1 then 4
  else if immed != q.mode || repro != x.repro then 5
  else if pk l 26 1 = 0 ∨ pk l 27 1 = 0 ∨ x.width < pk l 24 1 + pk l 26 1 ∨ x.height < pk l 25 1 + pk l 27 1 then 6
  else if pk l 28 4 = 0 then 7
  else if prim = 0 ∨ prim % 8 ≠ 0 ∨ comp % 8 ≠ 0 then 8
  else if flt && (x.repro || comp != 0) then 9
  else if 4096 ≤ pk l 58 2 ∧ pk l 58 2 ≠ 0xffff then 10
  else if pk l 40 8 % 8 ≠ 0 then 11
  else 0

/-- The kernel of a packet. -/
def pkKernel (q : Nat) (qu : Queue) (seq : W32) (l : List Byte) : Kernel :=
  let fl := pk l 2 2
  { ctx := qu.ctxn, q := q, seq := seq, cls := fl % 2 == 1, float := fl / 2 % 2 == 1, immed := fl / 4 % 2 == 1,
    wentry := BitVec.ofNat 64 (pk l 8 8), fentry := BitVec.ofNat 64 (pk l 16 8), bx := pk l 24 1, by' := pk l 25 1,
    bw := pk l 26 1, bh := pk l 27 1, tpt := pk l 28 4, arg := BitVec.ofNat 64 (pk l 32 8),
    cword := BitVec.ofNat 64 (pk l 40 8), cvalue := BitVec.ofNat 64 (pk l 48 8), scope := pk l 56 1, prio := pk l 57 1,
    group := pk l 58 2, st := .placing, left := 0, placed := 0, skind := 0, scode := 0, fflags := 0, yund := false,
    trapAt := none, trapCode := 0, trapWord := 0, ntrap := 0, boundaryDone := false, xl := none, trs := [],
    xlBad := none }

/-- A primary task has a companion. -/
def Kernel.companion (k : Kernel) : Bool := if k.cls then k.wentry != 0 else k.fentry != 0

/-- Primary tasks of a kernel. -/
def Kernel.prims (k : Kernel) : Nat := k.bw * k.bh * k.tpt

/-- A checked packet becomes a kernel (R171 steps 4 and 5): placed, or rejected with its error completion. -/
def State.accept (s : State) (q : Nat) (qu : Queue) (seq : W32) (l : List Byte) : State :=
  let st := pkStatus qu (s.ctx qu.ctxn) l
  let k := pkKernel q qu seq l
  let n := s.nextKern
  let s := { s with nextKern := n + 1 }
  -- a packet of a FAILED context is answered with the error completion of KIND 3 (08 R161)
  if (s.ctx qu.ctxn).st = .failed then s.setKern n ({ k with immed := true }.kill 3)
  else if st = 0 then s.setKern n { k with left := k.prims * (if k.companion then 2 else 1) }
  else
    let k := { k with st := .boundary, skind := 1, scode := st, boundaryDone := true, immed := qu.mode,
                      cword := if st = 11 then 0 else k.cword }
    (s.setKern n k).logCtx qu.ctxn 0x000e 0 2 (detail [(336, q), (304, seq.toNat), (300, st)]) 0

/-- Kernels of a queue that are still being placed. -/
def State.placingOf (s : State) (q : Nat) : Option (Nat × Kernel) :=
  s.kernels.find? (fun e => e.2.q == q && e.2.st == .placing)

/-- A serial queue's previous kernel is not complete (R171 step 3). -/
def State.serialBusy (s : State) (q : Nat) (qu : Queue) : Bool :=
  qu.ser && s.kernels.any (fun e => e.2.q == q && e.2.st != .complete)

/-- A fetched packet in the packet log of its context (16 R270). -/
def State.logPkt (s : State) (q : Nat) (qu : Queue) (seq : W32) (l : List Byte) : State :=
  s.modCtx qu.ctxn (fun x => { x with pktLog := x.pktLog ++ [⟨q, l, seq, x.epoch⟩] })

/-- Packets that the packet log of a chiplet holds: 64 MiB of them at most (16 R268). -/
def State.logged (s : State) (chip : Nat) : Nat :=
  (s.ctxs.flatMap (fun e => e.2.pktLog)).countP (fun p => match mfind s.queues p.q with
    | some qu => s.queueHome qu == chip
    | none => false)

/-- PACKET_FETCH: the slot takes the packet at RIDX, or goes IDLE. Packets that a rollback asks to place again come first. The
placement of a packet never overlaps the fetch of the next in the model, though R171 lets it; a fetch waits while the chiplet's
packet log is full, of which the spec says nothing (log 52). -/
def State.packetFetch (s : State) (chip n : Nat) : State :=
  match mfind (s.chip chip).slots n with
  | none => s
  | some x =>
    match mfind s.queues x.q with
    | none => s
    | some qu =>
      if x.st ≠ .active ∨ (s.placingOf x.q).isSome ∨ (!(s.ctx qu.ctxn).live ∧ (s.ctx qu.ctxn).st ≠ .failed) ∨ (s.ctx qu.ctxn).fault then s
      else match s.againOf x.q qu with
        | some p =>
          if s.serialBusy x.q qu then s
          else (s.modCtx qu.ctxn (fun c => { c with again := c.again.erase p })).accept x.q qu p.seq p.pk
        | none =>
          match s.ringRead x.q qu with
          | (s, .wait, _, _) => s
          | (s, .fault code va, _, _) => s.slotFault x.q code va
          | (s, .ok, w, r) =>
            if w ≤ r then s.modSlot chip n (fun x => { x with st := .idle })
            else match s.pktRead x.q qu r with
              | (s, .wait, _) => s
              | (s, .fault code va, _) => s.slotFault x.q code va
              | (s, .ok, l) =>
                if !pkComplete l r then s.modSlot chip n (fun x => { x with st := .idle })
                else if s.serialBusy x.q qu || decide (2 ^ 20 ≤ s.logged chip) then s
                else match s.sysWrite qu.ctxn (s.queueHome qu) (slotAgent x.q) sysW (qu.base + 8) (natBytes 8 (r + 1)) with
                  | (s, .wait) => s
                  | (s, .fault code va) => s.slotFault x.q code va
                  | (s, .ok) => (s.logPkt x.q qu (BitVec.ofNat 32 r) l).accept x.q qu (BitVec.ofNat 32 r) l

/-- PACKET_FETCH (R171). -/
def execPacketFetch (chip slot : Nat) (s : State) : Host.Outcome State Fault Refusal := atChip chip (·.packetFetch chip slot) s

/-- The tile that a kernel's next record goes to. -/
def State.placeTile (s : State) (k : Kernel) : Nat :=
  let i := k.placed / max k.tpt 1
  absTile (s.ctx k.ctx) (k.bx + i % max k.bw 1) (k.by' + i / max k.bw 1)

/-- The deques of a tile have room for a kernel's next record and its companion (R174). -/
def VTile.room (v : VTile) (k : Kernel) : Bool :=
  (v.deque k.cls).length < 64 && (!k.companion || (v.deque (!k.cls)).length < 64)

/-- A kernel's next record, or its companion's, enters the feeder's deque, or the worker's. -/
def Kernel.enters (k : Kernel) (feeder : Bool) : Bool := k.cls == feeder || k.companion

/-- Two kernels' next records enter one deque of a tile. -/
def Kernel.shares (k e : Kernel) : Bool := (k.enters false && e.enters false) || (k.enters true && e.enters true)

/-- A deque of a tile, by number. -/
def dequeNo (t : Nat) (feeder : Bool) : Nat := 2 * t + (if feeder then 1 else 0)

/-- How far a slot stands behind the one that was served last on the deque that two kernels share, the worker's before the
feeder's. -/
def Chip.turnOf (h : Chip) (t : Nat) (k e : Kernel) (n : Nat) : Nat :=
  (n + 127 - mget 63 h.lastSlot (dequeNo t (!(k.enters false && e.enters false)))) % 64

/-- A slot has placed a kernel's record on the deques of a tile. -/
def Chip.served (h : Chip) (t : Nat) (k : Kernel) (n : Nat) : Chip :=
  let put (m : SMap Nat) (f : Bool) : SMap Nat := if k.enters f then mput m (dequeNo t f) n else m
  { h with lastSlot := put (put h.lastSlot false) true }

/-- Another slot that waits on a deque of the kernel's next tile is served first: higher PRIO, or next in the slot-number
rotation among equal PRIO (R174). Between slots of two chiplets the rotation says nothing. -/
def State.outranked (s : State) (chip n : Nat) (k : Kernel) : Bool :=
  let t := s.placeTile k
  s.kernels.any (fun e => e.2.st == .placing && e.2.ctx == k.ctx && s.placeTile e.2 == t && k.shares e.2 && (s.tile t).room e.2 &&
    (match s.slotFor e.2.q with
      | some (c, m, _) => decide (k.prio < e.2.prio) || (e.2.prio == k.prio && c == chip &&
          decide ((s.chip chip).turnOf t k e.2 m < (s.chip chip).turnOf t k e.2 n))
      | none => false))

/-- A context into whose deques a slot places records: also the packet at hand while it stops for a save (R172, R173). -/
def Ctx.takesRecords (x : Ctx) (st : SlotSt) : Bool :=
  !x.fault && (x.live || (st == .unmapping && (x.st == .stopping || x.st == .saving)))

/-- RECORD_PLACEMENT: the next record, and its companion's, enter their deques; a record that arrives is a wake cause and a
gust notice (18 R291, R294). -/
def State.placeRecord (s : State) (chip n : Nat) : State :=
  match mfind (s.chip chip).slots n with
  | none => s
  | some x =>
    match s.placingOf x.q with
    | none => s
    | some (kn, k) =>
      let t := s.placeTile k
      if x.st = .mapping ∨ !(s.tile t).room k ∨ s.outranked chip n k ∨ !(s.ctx k.ctx).takesRecords x.st ∨ (s.driftOf t).isSome then s
      else
        let id := k.placed % max k.tpt 1
        let s := s.modTile t (fun v =>
          let v := v.setDeque k.cls (v.deque k.cls ++ [⟨kn, id, true, k.float, k.prio⟩])
          if k.companion then v.setDeque (!k.cls) (v.deque (!k.cls) ++ [⟨kn, id, false, false, k.prio⟩]) else v)
        let s := ((s.modChip chip (·.served t k n)).wake t).gustNotice (chipOf t)
        s.setKern kn { k with placed := k.placed + 1, st := if k.placed + 1 < k.prims then .placing else .running }

/-- RECORD_PLACEMENT (R174). -/
def execRecordPlacement (chip slot : Nat) (s : State) : Host.Outcome State Fault Refusal := atChip chip (·.placeRecord chip slot) s

/-- SLOT_POLL: an IDLE slot looks for a complete packet at the head of its ring. -/
def State.slotPoll (s : State) (chip n : Nat) : State :=
  match mfind (s.chip chip).slots n with
  | none => s
  | some x =>
    match mfind s.queues x.q with
    | none => s
    | some qu =>
      let go (s : State) : State := s.modSlot chip n (fun x => { x with st := .active })
      if x.st ≠ .idle then s
      else if (s.againOf x.q qu).isSome then go s
      else match s.ringRead x.q qu with
        | (s, .wait, _, _) => s
        | (s, .fault code va, _, _) => s.slotFault x.q code va
        | (s, .ok, w, r) =>
          if w ≤ r then s
          else match s.pktRead x.q qu r with
            | (s, .wait, _) => s
            | (s, .fault code va, _) => s.slotFault x.q code va
            | (s, .ok, l) => if pkComplete l r then go s else s

/-- SLOT_POLL (R170). -/
def execSlotPoll (chip slot : Nat) (s : State) : Host.Outcome State Fault Refusal := atChip chip (·.slotPoll chip slot) s

/-- A destroy request for a disabled queue completes once no slot holds the queue (R173). -/
def State.dequeue (s : State) (q : Nat) : State :=
  if !s.dequeues.contains q then s
  else match mfind s.queues q with
    | some qu => if qu.en || s.mapped q then s else { s with queues := mdel s.queues q, dequeues := setDel s.dequeues q }
    | none => { s with dequeues := setDel s.dequeues q }

/-- UNMAP_COMPLETE (R172): the packet at hand is placed; with work left bit q is set, unless the queue is disabled or parked;
the slot is FREE. -/
def State.unmapDone (s : State) (chip n : Nat) : State :=
  match mfind (s.chip chip).slots n with
  | none => s
  | some x =>
    let free (s : State) : State :=
      let s := s.modChip chip (fun h => { h with slots := mdel h.slots n })
      { s with busy := mdel s.busy (slotAgent x.q) }.dequeue x.q
    match mfind s.queues x.q with
    | none => if x.st = .unmapping then free s else s
    | some qu =>
      if x.st ≠ .unmapping ∨ (s.placingOf x.q).isSome then s
      else if x.noBit || !((s.ctx qu.ctxn).live || (s.ctx qu.ctxn).st == .failed) then free s
      else match s.ringRead x.q qu with
        | (s, .wait, _, _) => s
        | (s, .fault code va, _, _) => free (s.slotFault x.q code va)
        | (s, .ok, w, r) => free (if r < w ∨ (s.againOf x.q qu).isSome then s.setPkb (s.queueHome qu) x.q else s)

/-- UNMAP_COMPLETE (R172). -/
def execUnmapComplete (chip slot : Nat) (s : State) : Host.Outcome State Fault Refusal := atChip chip (·.unmapDone chip slot) s

/-! ### Descriptors (R164, R173, R179) -/

/-- The fields of a queue descriptor. -/
def queueOf (d : BitVec 128) : Queue :=
  let f (lo n : Nat) : Nat := d.toNat / 2 ^ lo % 2 ^ n
  { base := f 81 47 * 64, log2n := f 76 5, ctxn := f 68 8, maxprio := f 65 3, mode := f 64 1 == 1, hcy := f 61 3,
    hcx := f 58 3, en := f 57 1 == 1, ser := f 56 1 == 1 }

/-- A descriptor that is accepted: ring size, zero field, a home chiplet within the partition of an existing context. -/
def State.queueOk (s : State) (d : BitVec 128) : Bool :=
  let q := queueOf d
  let x := s.ctx q.ctxn
  4 ≤ q.log2n && q.log2n ≤ 20 && d.toNat % 2 ^ 56 == 0 && x.st != .destroyed && decide (q.hcy < x.height / 16) &&
    decide (q.hcx < x.width / 16)

/-- QUEUE_DESCRIPTOR_WRITE: create, enable, or disable. -/
def State.queueWrite (s : State) (q : Nat) (d : BitVec 128) : State :=
  if 65536 ≤ q ∨ !s.queueOk d then s
  else
    let s := { s with queues := mput s.queues q (queueOf d) }
    if (queueOf d).en then s else s.disableQueue q

/-- QUEUE_DESCRIPTOR_WRITE (R164). -/
def execQueueDescriptorWrite (q : Nat) (d : BitVec 128) (s : State) : Host.Outcome State Fault Refusal :=
  .next (s.queueWrite q d)

/-- QUEUE_DESTROY (R173): a request that names a disabled queue. -/
def State.queueDestroy (s : State) (q : Nat) : State :=
  match mfind s.queues q with
  | some qu => if qu.en then s else { s with dequeues := setIns s.dequeues q }.dequeue q
  | none => s

/-- QUEUE_DESTROY (R173). -/
def execQueueDestroy (q : Nat) (s : State) : Host.Outcome State Fault Refusal := .next (s.queueDestroy q)

/-- QUEUE_ACL_WRITE (R179): 4,096 entries; the zero bits stay zero. -/
def execQueueAclWrite (i : Nat) (e : BitVec 64) (s : State) : Host.Outcome State Fault Refusal :=
  .next (if 4096 ≤ i then s else { s with acl := mput s.acl i (e &&& 0xffffffff00000007) })

/-! ### The journal (R177; 28 R421, R422) -/

/-- The two halves of a journal record of a system core. -/
def State.jrec (s : State) (c : CoreRef) (i : Nat) : Nat × Nat :=
  let a := (s.core c).jbase.toNat + 16 * (i % 4096)
  (leNat (s.ownRead c (a + 8) 8), leNat (s.ownRead c a 8))

/-- KIND and SEQ of a record. -/
def jKind (r : Nat × Nat) : Nat := r.1 / 2 ^ 56 % 256
def jSeq (r : Nat × Nat) : Nat := r.2 % 2 ^ 32

/-- The newest record from an index on: the next record has a KIND and a SEQ one higher. -/
def State.jwalk (s : State) (c : CoreRef) : Nat → Nat → Nat
  | 0, i => i
  | n + 1, i =>
    let a := s.jrec c i
    let b := s.jrec c (i + 1)
    if jKind b ≠ 0 ∧ jSeq b = (jSeq a + 1) % 2 ^ 32 then State.jwalk s c n (i + 1) else i

/-- The index of the newest record, if there is one. -/
def State.jhead (s : State) (c : CoreRef) : Option Nat :=
  if jKind (s.jrec c 0) = 0 then none else some (s.jwalk c 4095 0)

/-- Appending a record; its SEQ is one more than the newest one's, 1 for the first. -/
def State.jappend (s : State) (c : CoreRef) (kind slot queue prio ref : Nat) : State × Nat :=
  let i := match s.jhead c with
    | some h => h + 1
    | none => 0
  let seq := match s.jhead c with
    | some h => (jSeq (s.jrec c h) + 1) % 2 ^ 32
    | none => 1
  let hi := kind % 256 * 2 ^ 56 + slot % 256 * 2 ^ 48 + queue % 65536 * 2 ^ 32 + prio % 8 * 2 ^ 29
  let lo := ref % 2 ^ 32 * 2 ^ 32 + seq
  let a := (s.core c).jbase.toNat + 16 * (i % 4096)
  (s.ownWrite c a (natBytes 8 lo ++ natBytes 8 hi), seq)

/-- A decision: its record, the action, its DONE. -/
def State.decide' (s : State) (c : CoreRef) (kind slot queue prio ref : Nat) (act : State → State) : State :=
  let r := s.jappend c kind slot queue prio ref
  ((act r.1).jappend c 4 0 0 0 r.2).1

/-! ### The scheduler (R176) -/

/-- A CMD word. -/
def cmdWord (op slot prio queue : Nat) : W64 :=
  BitVec.ofNat 64 (op * 2 ^ 60 + slot % 64 * 2 ^ 48 + prio % 8 * 2 ^ 40 + queue % 65536)

/-- The lowest number below 64 that a test admits. -/
def lowSlot (ok : Nat → Bool) : Option Nat := (rangeFrom 0 64).find? ok

/-- The slot that gives way in step 3: ACTIVE, of lower effective priority, held for 2 ms; the lowest, then the first. -/
def State.giveWay (s : State) (chip e : Nat) : Option Nat :=
  ((s.chip chip).slots.filter (fun x => x.2.st == .active && decide (x.2.prio < e ∧ x.2.since + 2000000 ≤ s.time))).foldl
    (fun o x => match o with
      | none => some x.1
      | some b => if x.2.prio < ((mfind (s.chip chip).slots b).map (·.prio)).getD 8 then some x.1 else some b) none

/-- Effective priority of a pending queue. -/
def State.effPrio (s : State) (q since : Nat) : Nat :=
  match mfind s.queues q with
  | some qu => min 7 (qu.maxprio + (s.time - since) / 1000000)
  | none => 0

/-- Handling one pending queue. A queue for which a slot is unmapped is mapped at a later scan, with the slots that are FREE then;
PRIO of its UNMAP record is the effective priority of the pending queue (log 53). -/
def State.schedOne (s : State) (chip : Nat) (c : CoreRef) (q since : Nat) : State :=
  let e := s.effPrio q since
  let isSt (st : SlotSt) (n : Nat) : Bool := match mfind (s.chip chip).slots n with
    | some x => x.st == st
    | none => false
  let unmap (n : Nat) : State :=
    let v := ((mfind (s.chip chip).slots n).map (·.q)).getD 0
    s.decide' c 2 n v e 0 (fun s => s.cmdWrite chip (cmdWord 2 n 0 v))
  match lowSlot (fun n => (mfind (s.chip chip).slots n).isNone) with
  | some n => s.decide' c 1 n q e 0 (fun s => s.cmdWrite chip (cmdWord 1 n e q))
  | none =>
    match lowSlot (isSt .idle) with
    | some n => unmap n
    | none =>
      match s.giveWay chip e with
      | some n => unmap n
      | none => s

/-- Pending queues in the order of a scan: effective priority falling, wait falling, number rising. -/
def insPending (p : Nat × Nat × Nat) : List (Nat × Nat × Nat) → List (Nat × Nat × Nat)
  | [] => [p]
  | x :: r =>
    if x.2.2 < p.2.2 ∨ (x.2.2 = p.2.2 ∧ (p.2.1 < x.2.1 ∨ (p.2.1 = x.2.1 ∧ p.1 < x.1))) then p :: x :: r
    else x :: insPending p r

/-- Releasing the sealed points of the gate, oldest first (10 R188). -/
def State.releaseSealed (s : State) (chip : Nat) (c : CoreRef) : Nat → State
  | 0 => s
  | n + 1 =>
    match s.oldestSealed chip with
    | none => s
    | some g =>
      State.releaseSealed (s.decide' c 5 0 g.ctx 0 g.tag (fun s =>
        s.grelWrite chip (BitVec.ofNat 64 (g.ctx * 2 ^ 32 + g.tag % 2 ^ 32)))) chip c n

/-- Firmware runs on a chiplet's active system core. -/
def Core.alive (x : Core) : Bool :=
  match x.phase with
  | .halted => false
  | .unloaded => false
  | _ => true

/-- A scan: QE is cleared before the bitmap is read. -/
def State.scan (s : State) (chip : Nat) : State :=
  let c : CoreRef := .sys chip (s.chip chip).active
  if !(s.core c).alive then s
  else
    let s := s.modCore c (fun x => { x with qe := false })
    let s := s.releaseSealed chip c 1024
    let l := ((s.chip chip).pkb.map (fun e => (e.1, e.2, s.effPrio e.1 e.2))).foldr insPending []
    l.foldl (fun s p => s.schedOne chip c p.1 p.2.1) s

/-- SCHEDULER_SCAN (R176). -/
def execSchedulerScan (chip : Nat) (s : State) : Host.Outcome State Fault Refusal := atChip chip (·.scan chip) s

/-- The records from the newest back to one with KIND 0 or an unexpected SEQ, oldest first. -/
def State.jback (s : State) (c : CoreRef) : Nat → Nat → List (Nat × Nat) → List (Nat × Nat)
  | 0, _, acc => acc
  | n + 1, i, acc =>
    let r := s.jrec c i
    let ok := jKind r != 0 && (match acc with
      | [] => true
      | b :: _ => jSeq b == (jSeq r + 1) % 2 ^ 32)
    if ok then State.jback s c n (i + 4095) (r :: acc) else acc

/-- The actions of undone decisions are repeated (R178); each is idempotent. An UNMAP of a slot that is loading waits for the
load. -/
def State.redo (s : State) (chip : Nat) (c : CoreRef) (l : List (Nat × Nat)) : State :=
  l.foldl (fun s r =>
    let done := l.any (fun d => jKind d == 4 && d.2 / 2 ^ 32 == jSeq r)
    let slot := r.1 / 2 ^ 48 % 256
    let queue := r.1 / 2 ^ 32 % 65536
    let prio := r.1 / 2 ^ 29 % 8
    let kind := jKind r
    if done ∨ ¬(kind = 1 ∨ kind = 2 ∨ kind = 3 ∨ kind = 5) then s
    else
      let w := cmdWord kind slot prio queue
      let s := if kind = 5 then s.grelWrite chip (BitVec.ofNat 64 (queue % 256 * 2 ^ 32 + r.2 / 2 ^ 32))
        else (if s.cmdWaits chip w then s.slotLoaded chip (slot % 64) else s).cmdWrite chip w
      (s.jappend c 4 0 0 0 (jSeq r)).1) s

/-- Writing a datum of the takeover program. -/
def State.tkPut (s : State) (c : CoreRef) (label off n v : Nat) : State :=
  s.ownWrite c (Config.takeoverAt label + off) (natBytes n v)

/-- `dtab` names the decisions that a DONE of the journal names, by SEQ mod 4,096. -/
def State.tkDone (s : State) (c : CoreRef) (l : List (Nat × Nat)) : State :=
  let s := s.ownWrite c (Config.takeoverAt 1) (List.replicate 4096 0)
  l.foldl (fun s r => if jKind r = 4 then s.tkPut c 1 (r.2 / 2 ^ 32 % 4096) 1 1 else s) s

/-- `jcur`: the SEQ and the index of the next record. -/
def State.tkCur (s : State) (c : CoreRef) : State :=
  match s.jhead c with
  | some h => (s.tkPut c 2 0 8 ((jSeq (s.jrec c h) + 1) % 2 ^ 32)).tkPut c 2 8 8 ((h + 1) % 4096)
  | none => (s.tkPut c 2 0 8 1).tkPut c 2 8 8 0

/-- `smap` takes the value of a slot. -/
def State.tkSlot (s : State) (chip : Nat) (c : CoreRef) (n : Nat) : State :=
  s.tkPut c 3 (8 * n) 8 ((s.chip chip).slotWord n).toNat

/-- The scan of the takeover program (28 R422): QE is cleared, then the set bits are taken in increasing queue number and each
queue is mapped to the lowest FREE slot; with none FREE the rest stay set. -/
def State.tkScan (s : State) (chip : Nat) (c : CoreRef) : State :=
  let s := s.modCore c (fun x => { x with qe := false })
  (s.chip chip).pkb.foldl (fun s e => match lowSlot (fun n => (mfind (s.chip chip).slots n).isNone) with
    | some n => ((s.decide' c 1 n e.1 0 0 (fun s => s.cmdWrite chip (cmdWord 1 n 0 e.1))).tkSlot chip c n).tkCur c
    | none => s) s

/-- The core comes back from the machine check that brought the takeover about, to the block that it was to enter (22 R386,
R387), with QE enabled. -/
def Core.tkReturn (x : Core) : Core :=
  let t := match x.phase with
    | .sleeping t => t
    | .entering t _ => t
    | _ => x.blk.next
  { x with phase := .entering t .direct, retBlk := t, last := 3, ien := x.ien ||| 4, ienNext := x.ienNext ||| 4 }

/-- STANDBY_TAKEOVER: the program of 28 R422 on the new active core, on which MC has been raised. Without PEER the core halts;
else the journal is replayed, the slot map rebuilt, the bitmap scanned, and the core goes back to what it was about. -/
def State.takeover (s : State) (chip : Nat) : State :=
  let c : CoreRef := .sys chip (s.chip chip).active
  let x := s.core c
  if !x.alive || !x.mc || x.inh then s
  else
    let s := (s.setCore c { x with mc := false, half := [] }).tkPut c 0 0 8 x.mcause.toNat
    if !x.mcause.getLsbD 55 then s.haltCore c (mcauseVal 4 0 false x.blk.hdr)
    else
      let s := s.modCore c (fun x => { x with mcause := 0 })
      let l := match s.jhead c with
        | some h => s.jback c 4096 h []
        | none => []
      let s := ((s.tkDone c l).redo chip c l).tkCur c
      let s := (rangeFrom 0 64).foldl (fun s n => s.tkSlot chip c n) s
      (s.tkScan chip c).modCore c Core.tkReturn

/-- STANDBY_TAKEOVER (R178). -/
def execStandbyTakeover (chip : Nat) (s : State) : Host.Outcome State Fault Refusal := atChip chip (·.takeover chip) s

/-! ### Stores to the slot block, the journal and plain registers (28 R418-R421; 22 R385; 18 R285) -/

/-- An event at a system core. -/
def atSys (c : CoreRef) (f : State → State) (s : State) : Host.Outcome State Fault Refusal :=
  atCore c (fun s => match c with
    | .sys _ _ => f s
    | _ => s) s

/-- An access of the core to the slot block or the journal is still to be performed: a later one follows it (28 R421). -/
def State.ownBusy (s : State) (c : CoreRef) : Bool :=
  (s.core c).flights.any (fun f => match f.kind with
    | .held ⟨.own a _ _, _, _⟩ => s.ownOrdered c a
    | _ => false)

/-- A store to CMD of a given OP; one that waits for a load is performed after it. -/
def cmdOp (op : Nat) (c : CoreRef) (w : W64) (s : State) : Host.Outcome State Fault Refusal :=
  atSys c (fun s => if wf w 60 4 = op ∧ !s.cmdWaits (chipOfCore c) w ∧ !s.ownBusy c then s.cmdWrite (chipOfCore c) w else s) s

/-- CMD_MAP (R419). -/
def execCmdMap (c : CoreRef) (w : BitVec 64) (s : State) : Host.Outcome State Fault Refusal := cmdOp 1 c w s

/-- CMD_UNMAP (R419). -/
def execCmdUnmap (c : CoreRef) (w : BitVec 64) (s : State) : Host.Outcome State Fault Refusal := cmdOp 2 c w s

/-- CMD_PRIO (R419). -/
def execCmdPrio (c : CoreRef) (w : BitVec 64) (s : State) : Host.Outcome State Fault Refusal := cmdOp 3 c w s

/-- GREL (R420). -/
def execGrel (c : CoreRef) (w : BitVec 64) (s : State) : Host.Outcome State Fault Refusal :=
  atSys c (fun s => if s.ownBusy c then s else s.grelWrite (chipOfCore c) w) s

/-- JOURNAL_HALF_STORE (R421). -/
def execJournalHalfStore (c : CoreRef) (a : Nat) (w : BitVec 64) (s : State) : Host.Outcome State Fault Refusal :=
  atSys c (fun s => if s.inJournal c a ∧ a % 8 = 0 ∧ !s.ownBusy c then s.journalStore c a w else s) s

/-- QE_CLEAR (22 R385). -/
def execQeClear (c : CoreRef) (s : State) : Host.Outcome State Fault Refusal :=
  atCore c (·.modCore c (fun x => { x with qe := false })) s

/-- REGISTER_WRITE (18 R285): an 8-byte store to a register. -/
def execRegisterWrite (c : CoreRef) (a : Nat) (w : BitVec 64) (s : State) : Host.Outcome State Fault Refusal :=
  atCore c (fun s => if kindOf c = .sysm ∧ a % 8 = 0 then s.placeWrite c (placeOf c a) w else s) s

/-! ### Kernel boundary and completion (07 R147; 10 R186-R188) -/

/-- An access or command of a kernel's tasks is still to be performed. -/
def State.kernelOpen (s : State) (kn : Nat) (ts : List Nat) : Bool :=
  let mineF (x : Core) : Bool := x.flights.any (fun f => f.isAccess && f.kern == some kn) || (match x.msgRun with
    | some (m, _) => m.kern == some kn
    | none => false)
  ts.any (fun t =>
    let v := s.tile t
    mineF v.worker || mineF v.feeder || v.sbuf.any (fun e => e.kern == some kn) || v.xfers.any (fun x => x.kern == some kn) ||
      v.mq.any (fun m => m.kern == some kn) || v.dq.any (fun m => m.kern == some kn) ||
      v.msgs.any (fun m => m.kern == some kn)) ||
  s.traffic.any (fun i => i.kern == some kn)

/-- Translating one word that a completion stores. -/
def State.complXl (s : State) (kn n chip : Nat) (va : W64) : State × Xl := s.agentXl (complAgent kn) n chip va sysW

/-- The status word (R187). -/
def Kernel.status (k : Kernel) : W64 :=
  let at' := k.trapAt.getD (0, 0, 0, 0)
  BitVec.ofNat 64 (k.skind % 16 * 2 ^ 60 + k.scode % 16 * 2 ^ 56 + k.fflags.toNat * 2 ^ 51 + (if k.yund then 2 ^ 50 else 0) +
    (at'.1 % 256 * 256 + at'.2.1 % 256) * 2 ^ 32 + k.trapWord % 256 * 2 ^ 24 + k.ntrap % 2 ^ 24)

/-- A faulting completion: neither word is stored, the record carries both, the kernel completes. -/
def State.complFault (s : State) (kn : Nat) (k : Kernel) (va : W64) (code : Nat) : State :=
  (s.setKern kn { k with st := .complete }).logCtx k.ctx 0x0010 0 2
    (detail [(344, 2), (328, k.q), (275, va.toNat % 2 ^ 53), (273, code)])
    (BitVec.ofNat 128 (k.status.toNat + k.cvalue.toNat * 2 ^ 64))

/-- A kernel that has reached BOUNDARY translates the addresses of its two stores, once (R187): what it met, or the fault's
address and code. -/
def State.kernXl (s : State) (kn : Nat) (k : Kernel) : State × Option (W64 × Nat) :=
  let chip := s.gateChip (some kn) 0
  let bad (s : State) (va : W64) (code : Nat) : State × Option (W64 × Nat) :=
    (s.setKern kn { k with xlBad := some (va, code) }, some (va, code))
  let tr (s : State) (va : W64) : Nat × Nat := s.trOf (sysAgent k.ctx chip) va
  if k.xlBad.isSome then (s, k.xlBad)
  else if k.xl.isSome ∨ k.cword = 0 then (s, none)
  else
    match s.complXl kn k.ctx chip (k.cword + 8) with
    | (s, .page) => bad s (k.cword + 8) 1
    | (s, .prot) => bad s (k.cword + 8) 2
    | (s, .ok pst z1) =>
      (match s.complXl kn k.ctx chip k.cword with
        | (s, .page) => bad s k.cword 1
        | (s, .prot) => bad s k.cword 2
        | (s, .ok pv z2) =>
          (s.setKern kn { k with xl := some (pst, pv, z1 || z2), trs := [tr s (k.cword + 8), tr s k.cword] }, none)
        | (s, _) => (s, none))
    | (s, _) => (s, none)

/-- Kernels whose tasks can still end reach their boundaries: a stop performs none (R190; 08 R159, R162). -/
def Ctx.atWork (x : Ctx) : Bool := (x.st == .running || x.st == .stopping) && !x.fault

/-- KERNEL_BOUNDARY: the stores of the completion are translated; with everything performed, L1 and window lines of the partition
are written back and invalidated. -/
def State.boundary (s : State) (kn : Nat) : State :=
  match mfind s.kernels kn with
  | none => s
  | some k =>
    let ts := ctxTiles (s.ctx k.ctx)
    if k.st ≠ .boundary ∨ k.boundaryDone ∨ !(s.ctx k.ctx).atWork then s
    else
      let r := s.kernXl kn k
      let s := r.1
      if s.kernelOpen kn ts then s
      else
        let s := (ts.foldl (fun s t => s.modTile t VTile.invalidate) s).modKern kn (fun k => { k with boundaryDone := true })
        match r.2 with
        | some (va, code) => s.complFault kn k va code
        | none => s

/-- KERNEL_BOUNDARY (R147). -/
def execKernelBoundary (k : Nat) (s : State) : Host.Outcome State Fault Refusal := .next (s.boundary k)

/-- The two stores of a completion at their physical addresses: at once in this panel's HBM, else through the gate of the
queue's home chiplet, from an immediate queue and for KIND 3 and 4 at once. -/
def State.complStore (s : State) (kn : Nat) (k : Kernel) (pst pv : Nat) (z : Bool) : State :=
  let done (s : State) : State := s.setKern kn { k with st := .complete }
  let chip := s.gateChip (some kn) 0
  if s.inHbm pv then
    let l := atAddr pst (natBytes 8 k.status.toNat) ++ atAddr pv (natBytes 8 k.cvalue.toNat)
    if s.undoFull k.ctx (linesOf (l.map (·.1))) || s.memShut (272 * chip) (l.map (·.1)) then s
    else
      let s := done (s.homeWrite k.ctx z l)
      s.agentKick (s.notifyOf (l.map (·.1))) (43000 + chip)
  else if 3 ≤ k.skind then done ((s.leave k.ctx pst k.status).leave k.ctx pv k.cvalue)
  else if k.immed then
    (done ((s.leave k.ctx pst k.status).leave k.ctx pv k.cvalue)).modCtx k.ctx (fun x => { x with immEpoch := some x.epoch })
  else if s.gateFull chip 2 then s
  else
    ((s.gatePut chip k.ctx pst k.status (some kn)).gatePut chip k.ctx pv k.cvalue (some kn)).setKern kn { k with st := .gated }

/-- COMPLETION_STORE: a completion that is not translated yet (of a rejected packet, KIND 3 or 4, or after a wait) is now. -/
def State.completion (s : State) (kn : Nat) : State :=
  match mfind s.kernels kn with
  | none => s
  | some k =>
    if k.st ≠ .boundary ∨ !k.boundaryDone ∨ (s.ctx k.ctx).fault then s
    else if k.cword = 0 then s.setKern kn { k with st := .complete }
    else match s.kernXl kn k with
      | (s, some (va, code)) => s.complFault kn k va code
      | (s, none) => match mfind s.kernels kn with
        | some k => (match k.xl with
          | some (pst, pv, z) => s.complStore kn k pst pv z
          | none => s)
        | none => s

/-- COMPLETION_STORE (R187). -/
def execCompletionStore (k : Nat) (s : State) : Host.Outcome State Fault Refusal := .next (s.completion k)

/-- A core with a DONE of a kernel that waits at a full gate: the core, the flight. -/
def State.doneWaits (s : State) (kn : Nat) : Option (CoreRef × Flight × Nat × W64) :=
  s.tiles.findSome? (fun e => (tileCores e.1).findSome? (fun c => (s.core c).flights.findSome? (fun f =>
    match f.kind with
    | .gate pa v => if f.kern = some kn ∧ f.res = none then some (c, f, pa, v) else none
    | _ => none)))

/-- GATE_ADMIT: a waiting DONE of the kernel, or its completion, enters the gate. One whose tile is frozen is carried, and enters
it from the landing tile (15 R239). -/
def State.gateAdmit (s : State) (kn : Nat) : State :=
  match s.doneWaits kn with
  | some (c, f, pa, v) =>
    let chip := s.gateChip (some kn) (tileOf c)
    if s.gateFull chip 1 || s.frozen (tileOf c) then s
    else (s.gatePut chip ((s.ctxOfCore c).getD 256) pa v none).modCore c (·.resolve f.id (.s iz))
  | none => s.completion kn

/-- GATE_ADMIT (R188). -/
def execGateAdmit (k : Nat) (s : State) : Host.Outcome State Fault Refusal := .next (s.gateAdmit k)

/-! ### LAUNCH at the ring (21 R364) -/

/-- One access of LAUNCH in the address space of the queue's context. -/
def State.launchXl (s : State) (c : CoreRef) (qu : Queue) (r w : Bool) (va : Nat) : State × Xl :=
  match kindOf c with
  | .sysm => s.translate (sysAgent qu.ctxn (chipOfCore c)) (BitVec.ofNat 64 va) ⟨r, w, false, false⟩
  | _ => s.translate (s.agentOf c) (BitVec.ofNat 64 va) (s.needOf c r w)

/-- The outcome of a LAUNCH step: go on, wait, or a fault of the LAUNCH. -/
def State.launchXls (s : State) (c : CoreRef) (qu : Queue) :
    List (Bool × Bool × Nat) → State × Option (Option (Nat × Nat)) × List (Nat × Bool)
  | [] => (s, none, [])
  | (r, w, va) :: l =>
    match s.launchXl c qu r w va with
    | (s, .ok pa z) =>
      (match State.launchXls s c qu l with
        | (s, o, ps) => (s, o, (pa, z) :: ps))
    | (s, .page) => (s, some (some (PAGE, va)), [])
    | (s, .prot) => (s, some (some (PROT, va)), [])
    | (s, _) => (s, some none, [])

/-- Watches of a tile core are broken where the writes of LAUNCH touch them. -/
def State.launchBreak (s : State) (c : CoreRef) (pas vas : List Nat) : State :=
  match kindOf c with
  | .sysm => s
  | _ => s.breakW c pas vas

/-- The index of a LAUNCH is claimed: WIDX grows by one, once for its tag (16 R258), after the earlier stores of the tile's buffer
that touch it (07 R142). The claimed index is kept one higher, 0 standing for none. -/
def State.launchClaim (s : State) (c : CoreRef) (f : Flight) (l : LaunchReq) (qu : Queue) : State :=
  match s.launchXls c qu [(true, true, qu.base)] with
  | (s, some (some e), _) => s.flightFault c f e.1 (BitVec.ofNat 64 e.2)
  | (s, none, [(pa, z)]) =>
    let pas := rangeFrom pa 8
    let chip := (s.homeChip pa).getD 0
    let got (s : State) (w : Nat) : State := s.modCore c (·.setKind f.id (.launch { l with idx := w + 1 }))
    match s.tagOf chip (agentNo c) l.seq with
    | some w => got s w.toNat
    | none =>
      if s.undoFull qu.ctxn (linesOf pas) ∨ s.memShut (s.coreRouter c) pas ∨ (kindOf c ≠ .sysm ∧ s.sbufAhead c f.id pas) then s
      else
        let s := s.zpTouch z [pa]
        let w := memReadLE s.mem pa 8
        let s := (s.launchBreak c pas (rangeFrom qu.base 8)).homeWrite qu.ctxn z (atAddr pa (natBytes 8 (w + 1)))
        got (s.putTag chip (agentNo c) l.seq (BitVec.ofNat 64 w)) w
  | (s, _, _) => s

/-- The packet is written to its slot with its SEQ, and the kick made. -/
def State.launchPut (s : State) (c : CoreRef) (f : Flight) (l : LaunchReq) (qu : Queue) : State :=
  let i := l.idx - 1
  let nt := if l.kick then [(false, true, qu.base + 16)] else []
  match s.launchXls c qu ([(true, false, qu.base + 8), (false, true, qu.slotVa i)] ++ nt) with
  | (s, some (some e), _) => s.flightFault c f e.1 (BitVec.ofNat 64 e.2)
  | (s, none, (pr, zr) :: (ps, zs) :: rest) =>
    let s := s.zpTouch zr [pr]
    let ridx := memReadLE s.mem pr 8
    let slot := l.pk.take 4 ++ natBytes 4 (i % 2 ^ 32) ++ (l.pk.drop 8).take 56
    let notify := rest.flatMap (fun p => atAddr p.1 (natBytes 8 0))
    let bytes := atAddr ps slot ++ notify
    if ridx + 2 ^ qu.log2n ≤ i ∨ s.memShut (s.coreRouter c) (pr :: bytes.map (·.1)) ∨ !s.relAt c f.id 5 ∨ s.undoFull qu.ctxn (linesOf (bytes.map (·.1))) then s
    else
      let vas := rangeFrom (qu.slotVa i) 64 ++ (if l.kick then rangeFrom (qu.base + 16) 8 else [])
      let s := (s.launchBreak c (bytes.map (·.1)) vas).homeWrite qu.ctxn (zs || rest.any (·.2)) bytes
      let s := s.kickAt ((rest.map (·.1)).headD 0) (if l.kick then s.notifyOf (notify.map (·.1)) else []) (agentNo c)
        ((l.seq + 1) % 65536)
      s.modCore c (·.resolve f.id (.s iz))
  | (s, _, _) => s

/-- RING_SPACE_FREED: a LAUNCH claims its index once earlier accesses are done, and writes its packet, as a SYS release (R142),
once the ring has room. One whose tile is frozen is carried, and goes on from the landing tile (15 R239). -/
def State.ringSpace (s : State) (c : CoreRef) (id : Nat) : State :=
  match (s.core c).flight? id with
  | none => s
  | some f =>
    match f.kind with
    | .launch l =>
      (match mfind s.queues l.q with
        | none => s
        | some qu =>
          if f.res.isSome || (kindOf c != .sysm && s.frozen (tileOf c)) || ((s.core c).before id).any (·.isAccess) then s
          else
            let s := if l.idx = 0 then s.launchClaim c f l qu else s
            match (s.core c).flight? id with
            | some g => (match g.kind with
              | .launch k => if k.idx = 0 then s else s.launchPut c g k qu
              | _ => s)
            | none => s)
    | _ => s

/-- RING_SPACE_FREED (R364). -/
def execRingSpaceFreed (c : CoreRef) (id : Nat) (s : State) : Host.Outcome State Fault Refusal := atCore c (·.ringSpace c id) s

end Sys2Proof.Machine
end

