-- ==== Sys2Proof/Machine/EvContext.lean ====
section
/-! DEFINITION. Events of contexts (08 R150-R163): creation, the table stream, stops and saves, restores, debug stops,
destruction.

An event that is not due leaves the state as it is. -/

namespace Sys2Proof.Machine

/-- An event at a context. -/
def atCtx (n : Nat) (f : State → State) (s : State) : Host.Outcome State Fault Refusal := atUnit n 256 f s

/-! ### Creation (R150, R152, R154) -/

/-- The context of a context record. -/
def ctxOf (r : BitVec 512) (now : Nat) : Ctx :=
  let f (lo n : Nat) : Nat := r.toNat / 2 ^ lo % 2 ^ n
  { Ctx.init0 with
    key := BitVec.ofNat 256 (f 256 256), save := f 219 37 * 8192, root := f 182 37 * 8192, quantum := f 150 32,
    vy0 := f 142 8, vx0 := f 134 8, height := f 126 8, width := f 118 8, repro := f 109 1 == 1, rpint := f 99 10,
    ytab := BitVec.ofNat 64 (f 52 47 * 64), elog := f 15 37 * 8192, st := .creating, resumed := now, slice := now }

/-- CTXN of a context record. -/
def ctxnOf (r : BitVec 512) : Nat := r.toNat / 2 ^ 110 % 2 ^ 8

/-- A partition that R19 allows. -/
def partOk (x : Ctx) : Bool :=
  x.width % 16 == 0 && x.height % 16 == 0 && 16 ≤ x.width && x.width ≤ 128 && 16 ≤ x.height && x.height ≤ 128 &&
    x.vx0 % 16 == 0 && x.vy0 % 16 == 0 && decide (x.vx0 + x.width ≤ 128) && decide (x.vy0 + x.height ≤ 128)

/-- A chiplet of a partition belongs to some resident context. -/
def State.chipsTaken (s : State) (x : Ctx) : Bool :=
  s.ctxs.any (fun e => e.2.resident && (ctxChips e.2).any (ctxChips x).contains)

/-- A chiplet of a partition has a column with a degraded shape (01 R24). -/
def State.degraded (s : State) (x : Ctx) : Bool := (ctxChips x).any (fun h => (s.chip h).defect.degr != 0)

/-- Two stretches of physical memory overlap. -/
def overlap (a n b m : Nat) : Bool := decide (a < b + m ∧ b < a + n ∧ 0 < n ∧ 0 < m)

/-- A present leaf of a page table maps a frame of a stretch. -/
def State.mapsRange (s : State) (a n : Nat) : Nat → Nat → Bool
  | lv, tab => (rangeFrom 0 1024).any (fun i =>
      let e := memReadLE s.mem (tab + 8 * i) 8
      if !pbit e 0 || s.malformed lv e then false
      else if pbit e 1 then overlap a n (pframe e) (2 ^ (13 + 10 * lv))
      else match lv with
        | 0 => false
        | k + 1 => State.mapsRange s a n k (pframe e))

/-- The size of a save area (R151). -/
def saveSize (x : Ctx) : Nat := x.width * x.height * 6815744

/-- The error log's size. -/
def elogSize : Nat := 1048576

/-- The save area or the error log stands where it may not (R152 status 5). -/
def State.areaBad (s : State) (x : Ctx) : Bool :=
  overlap x.save (saveSize x) x.elog elogSize ||
  s.ctxs.any (fun e => e.2.st != .destroyed &&
    (overlap x.save (saveSize x) e.2.save (saveSize e.2) || overlap x.save (saveSize x) e.2.elog elogSize ||
     overlap x.elog elogSize e.2.save (saveSize e.2) || overlap x.elog elogSize e.2.elog elogSize ||
     s.mapsRange x.save (saveSize x) 3 e.2.root || s.mapsRange x.elog elogSize 3 e.2.root))

/-- The status of a creation (R152); with several reasons, the lowest (log 54). A destroyed context's number is free once its
destruction is complete, its kernels among it (R163). -/
def State.createStatus (s : State) (r : BitVec 512) : Nat :=
  let x := ctxOf r 0
  let n := ctxnOf r
  if (s.ctx n).st ≠ .destroyed then 1
  else if !partOk x ∨ 1000 < x.rpint ∨ r.toNat % 2 ^ 15 ≠ 0 then 2
  else if s.chipsTaken x then 3
  else if s.degraded x then 4
  else if s.areaBad x then 5
  else 0

/-- A tile given to a context, every register and unit zeroed. -/
def freshTile (n : Nat) (y : W64) : VTile := { VTile.init0 with ctx := some n, ytab := y }

/-- The agents of some tiles. -/
def agentsOf (ts : List Nat) (a : Nat) : Bool := decide (a < 40000) && ts.contains (a / 2)

/-- The tags of some tiles are forgotten (16 R258). -/
def State.clearTags (s : State) (ts : List Nat) : State :=
  { s with chips := mmapv (fun (h : Chip) =>
      { h with tags := h.tags.filter (fun e => !agentsOf ts e.1) }) s.chips }

/-- Every chiplet has reported ready (18 R296: no context exists before). -/
def State.bootDone (s : State) : Bool := (rangeFrom 0 64).all (fun h => (s.chip h).ready)

/-- CONTEXT_CREATE: the status is the reply; with 0 the context exists in CREATING, with point 0 sealed and point 1 open. -/
def State.create (s : State) (r : BitVec 512) : State :=
  let st := s.createStatus r
  if !s.bootDone then s
  else if st ≠ 0 then { s with reply := [BitVec.ofNat 64 st] }
  else
    let s := { s with reply := [BitVec.ofNat 64 st] }
    let n := ctxnOf r
    let x := ctxOf r s.time
    let ts := ctxTiles x
    let p0 : RPoint := ⟨0, .sealed, s.time, ts.map (fun t => (t, freshTile n x.ytab)), [], none⟩
    let s := ts.foldl (fun s t => s.setTile t (freshTile n x.ytab)) s
    (s.clearTags ts).setCtx n { x with points := [⟨1, .pending, 0, [], [], none⟩, p0] }

/-- CONTEXT_CREATE (R152). -/
def execContextCreate (r : BitVec 512) (s : State) : Host.Outcome State Fault Refusal := .next (s.create r)

/-- The pending-kick bits of a context that becomes resident: set where WIDX > RIDX, of each of its queues (09 R173). A ring that
cannot be read yet gets its bit as well; a spurious bit costs one check. -/
def State.kickBits (s : State) (n : Nat) : State :=
  (s.queues.filter (fun e => e.2.ctxn == n)).foldl (fun s e =>
    match s.ringRead e.1 e.2 with
    | (s, .ok, w, r) => if r < w then s.setPkb (s.queueHome e.2) e.1 else s
    | (s, .wait, _, _) => s.setPkb (s.queueHome e.2) e.1
    | (s, .fault code va, _, _) => s.slotFault e.1 code va) s

/-! ### Destruction (R163) -/

/-- The pins of the windows of some tiles. -/
def winPins (l : List VTile) : List Nat :=
  l.flatMap (fun v => v.handles.flatMap (fun h => if h.2.kind = 1 then h.2.pins else []))

/-- A partition that no context owns any more. -/
def State.releaseTiles (s : State) (x : Ctx) : State :=
  let ts := ctxTiles x
  let s := s.unpin (winPins (ts.map s.tile))
  let s := ts.foldl (fun s t => s.setTile t VTile.init0) s
  s.clearTags ts

/-- The first step of a destruction: queues are disabled, unfinished kernels get their error completions, which leave at once,
and nothing of the context runs. -/
def State.destroyStart (s : State) (n : Nat) : State :=
  let x := s.ctx n
  let qs := (s.queues.filter (fun e => e.2.ctxn == n)).map (·.1)
  let s : State := { s with
    queues := mmapv (fun (q : Queue) => if q.ctxn = n then { q with en := false } else q) s.queues,
    kernels := mmapv (fun (k : Kernel) => if k.ctx = n then k.kill 4 else k) s.kernels,
    chips := mmapv (fun (h : Chip) =>
      { h with gate := h.gate.filter (fun g => g.ctx != n), slots := h.slots.filter (fun e => !qs.contains e.2.q),
               pkb := h.pkb.filter (fun e => !qs.contains e.1), undo := h.undo.filter (fun u => u.ctx != n),
               zeph := h.zeph.filter (fun z => z.ctx != n) }) s.chips }
  let s := if x.out then s else s.stopTiles x
  let s := s.modCtx n (fun x =>
    { x with fault := false, points := [], stopFor := none, stopRetry := false, waitSave := false, waitDebug := false,
             waveRetry := false })
  (s.kernels.filter (fun e => e.2.ctx == n)).foldl (fun (s : State) e => s.completion e.1) s

/-- Carrying out a destruction. While a completion still waits, the context is FAILED, in which nothing of it runs, and its number
is not free (R163). -/
def State.destroy (s : State) (n : Nat) : State :=
  let x := s.ctx n
  let s := s.destroyStart n
  if s.kernels.any (fun e => e.2.ctx == n && e.2.st != .complete) then
    s.modCtx n (fun x => { x with st := .failed, destroyReq := true })
  else
    let qs := (s.queues.filter (fun e => e.2.ctxn == n)).map (·.1)
    let s : State := { s with queues := s.queues.filter (fun e => e.2.ctxn != n), dequeues := s.dequeues.filter (fun q => !qs.contains q) }
    let s := s.unpin (winPins (x.image.map (·.2)))
    let s := if x.out then s else s.releaseTiles x
    (s.tlbKill 1 n 0).modCtx n (fun x =>
      { x with st := .destroyed, key := 0, image := [], parcel := [], slots := [], pktLog := [], again := [], destroyReq := false, out := false,
               lostPoints := false })

/-- The slots of a context's queues unmap, and its pending-kick bits are cleared (09 R173). -/
def State.parkQueues (s : State) (n : Nat) : State :=
  (s.queues.filter (fun e => e.2.ctxn == n)).foldl (fun s e =>
    let s := s.modChip (s.queueHome e.2) (fun h => { h with pkb := mdel h.pkb e.1 })
    match s.slotFor e.1 with
    | some (chip, m, _) => s.unmapSlot chip m false
    | none => s) s

/-- A stop for a save begins (R156): the context's queues are parked. -/
def State.stopStart (s : State) (n : Nat) : State :=
  (s.modCtx n (fun x => { x with st := .stopping, stopFor := some true, stopRetry := false, waitSave := false })).parkQueues n

/-- A stop may begin: the context is RUNNING, no marker wave passes, and no other stop is under way. -/
def Ctx.mayStop (x : Ctx) : Bool := x.st == .running && !x.cutting && x.stopFor.isNone

/-- What waited for the state of a context is carried out: a destroy request in the states that allow it (R163), then a stop for
a save, then a debug stop (R153, R162; 16 R267). -/
def State.settle (s : State) (n : Nat) : State :=
  let x := s.ctx n
  if x.destroyReq && (x.st == .running || x.st == .saved || x.st == .failed || x.st == .debugging) then s.destroy n
  else if x.mayStop && x.waitSave then s.stopStart n
  else if x.mayStop && x.waitDebug then s.setCtx n { x with stopFor := some false, stopRetry := false, waitDebug := false }
  else s

/-- The status that a request returns: its kind, and whether it is accepted (R152; log 55). -/
def State.replyTo (s : State) (kind : Nat) (ok : Bool) : State := { s with reply := [Config.reqStatus kind ok] }

/-- DESTROY_REQUEST (R163). -/
def execDestroyRequest (ctx : Nat) (s : State) : Host.Outcome State Fault Refusal :=
  atCtx ctx (fun s => if (s.ctx ctx).st = .destroyed then s.replyTo 1 false
    else ((s.modCtx ctx (fun x => { x with destroyReq := true })).replyTo 1 true).settle ctx) s

/-- CREATION_SCRUB_DONE (R154): the context becomes RUNNING. -/
def execCreationScrubDone (ctx : Nat) (s : State) : Host.Outcome State Fault Refusal :=
  atCtx ctx (fun s => if (s.ctx ctx).st = .creating then
      ((s.modCtx ctx (fun x => { x with st := .running, resumed := s.time, slice := s.time })).kickBits ctx).settle ctx
    else s) s

/-- TABLE_STREAM_REQUEST (R155): every tile of the partition holds the value until its next task entry. A context that owns no
partition, SAVED or FAILED from there, takes no such request (log 56). -/
def execTableStreamRequest (ctx : Nat) (a : BitVec 53) (s : State) : Host.Outcome State Fault Refusal :=
  atCtx ctx (fun s =>
    let x := s.ctx ctx
    if !x.resident then s.replyTo 6 false
    else ((ctxTiles x).foldl (fun s t => s.modTile t (fun v =>
      { v with ytabNext := some (BitVec.ofNat 64 (a.toNat / 64 * 64)) })) s).replyTo 6 true) s

/-! ### Stops (R156) -/

/-- A stop for a save of a RUNNING context; one requested during CUTTING, DEBUGGING or another stop waits. -/
def State.stopSave (s : State) (n : Nat) : State :=
  let x := s.ctx n
  if x.mayStop then s.stopStart n
  else if (x.st = .running ∨ x.st = .debugging) ∧ x.stopFor ≠ some true then s.setCtx n { x with waitSave := true }
  else s

/-- A stop that the controller itself asks for (15 R246, 17 R280): of a context that is being created or restored it waits until the
context is RUNNING. -/
def State.stopOwn (s : State) (n : Nat) : State :=
  let x := s.ctx n
  if x.st = .creating ∨ x.st = .restoring then s.setCtx n { x with waitSave := true } else s.stopSave n

/-- QUANTUM_EXPIRY (R150, R156): the time slice has passed; a QUANTUM of 0 never expires. -/
def execQuantumExpiry (ctx : Nat) (s : State) : Host.Outcome State Fault Refusal :=
  atCtx ctx (fun s => if (s.ctx ctx).quantum = 0 ∨ s.time < (s.ctx ctx).slice + 1000 * (s.ctx ctx).quantum then s
    else s.stopSave ctx) s

/-- PRE_EMPT_REQUEST (R156). -/
def execPreEmptRequest (ctx : Nat) (s : State) : Host.Outcome State Fault Refusal :=
  atCtx ctx (fun s => (s.stopSave ctx).replyTo 3 ((s.ctx ctx).st == .running || (s.ctx ctx).st == .debugging)) s

/-- DEBUG_STOP (R162): of a RUNNING context; during CUTTING or another stop it waits. -/
def State.debugStop (s : State) (n : Nat) : State :=
  let x := s.ctx n
  if x.mayStop then s.setCtx n { x with stopFor := some false, stopRetry := false }
  else if x.st = .running ∧ x.stopFor ≠ some false then s.setCtx n { x with waitDebug := true }
  else s

/-- DEBUG_STOP (R162). -/
def execDebugStop (ctx : Nat) (s : State) : Host.Outcome State Fault Refusal :=
  atCtx ctx (fun s => (s.debugStop ctx).replyTo 4 ((s.ctx ctx).st == .running)) s

/-- Every tile of a context has both cores at a block entry. -/
def State.allQuiet (s : State) (x : Ctx) : Bool := (ctxTiles x).all (fun t => (s.tile t).quiet)

/-- A paused core goes on with the block it was entering. -/
def Core.goOn (x : Core) : Core :=
  match x.phase with
  | .paused t => { x with phase := .entering t .direct }
  | .saving (some t) => { x with phase := .entering t .direct }
  | .saving none => { x with phase := .idle }
  | _ => x

/-- Both cores of a tile go on. -/
def VTile.resume (v : VTile) : VTile := { v with worker := v.worker.goOn, feeder := v.feeder.goOn }

/-- Every paused core of a context goes on, but those of a tile that is being moved. -/
def State.resumeAll (s : State) (x : Ctx) : State :=
  (ctxTiles x).foldl (fun s t => if (s.driftOf t).isSome then s else s.modTile t VTile.resume) s

/-- A stop of a context is under way and not waiting for a retry. -/
def Ctx.stopOpen (x : Ctx) : Bool := x.stopFor.isSome && !x.stopRetry && (x.st == .stopping || x.st == .running)

/-- STOP_WINDOW_EXPIRY: some core is not paused: the paused ones resume, and a retry is due. The rings of queues that were parked
are read again, as at a restore, since kicks were dropped meanwhile (log 57). -/
def State.stopExpire (s : State) (n : Nat) : State :=
  let x := s.ctx n
  if x.stopOpen && !s.allQuiet x then
    let s := (s.resumeAll x).setCtx n { x with st := .running, stopRetry := true }
    (if x.st = .stopping then s.kickBits n else s).settle n
  else s

/-- STOP_WINDOW_EXPIRY (R156). -/
def execStopWindowExpiry (ctx : Nat) (s : State) : Host.Outcome State Fault Refusal := atCtx ctx (·.stopExpire ctx) s

/-- STOP_RETRY (R156). -/
def execStopRetry (ctx : Nat) (s : State) : Host.Outcome State Fault Refusal :=
  atCtx ctx (fun s =>
    let x := s.ctx ctx
    if x.stopRetry ∧ x.st = .running ∧ !x.cutting then
      (if x.stopFor = some true then s.stopStart ctx else s.setCtx ctx { x with stopRetry := false })
    else s) s

/-- STOPLATE: after 20 ms of failed retries the stop is given up. -/
def execStoplate (ctx : Nat) (s : State) : Host.Outcome State Fault Refusal :=
  atCtx ctx (fun s =>
    let x := s.ctx ctx
    if x.stopRetry ∧ x.st = .running then
      ((s.setCtx ctx { x with stopFor := none, stopRetry := false, slice := s.time }).logSys 0x0020 2 ctx 0).settle ctx
    else s) s

/-- A paused core, or one without a task, enters the save handler. -/
def Core.toSave (x : Core) : Core :=
  match x.phase with
  | .paused t => { x with phase := .saving (some t) }
  | .idle => { x with phase := .saving none }
  | _ => x

/-- CONTEXT_PAUSED: every core has paused and no drift is under way: a stop for a save goes on to SAVING, a debug stop to
DEBUGGING. -/
def State.ctxPaused (s : State) (n : Nat) : State :=
  let x := s.ctx n
  let ts := ctxTiles x
  if !x.stopOpen || !s.allQuiet x || ts.any (fun t => (s.driftOf t).isSome) then s
  else if x.stopFor = some false then s.setCtx n { x with st := .debugging, stopFor := none }
  else
    let s := ts.foldl (fun s t => s.modTile t (fun v =>
      { v with worker := v.worker.toSave, feeder := v.feeder.toSave, acked := false })) s
    s.setCtx n { x with st := .saving, stopFor := none }

/-- CONTEXT_PAUSED (R157). -/
def execContextPaused (ctx : Nat) (s : State) : Host.Outcome State Fault Refusal := atCtx ctx (·.ctxPaused ctx) s

/-! ### Saving (R158) -/

/-- A flight that a save carries in the wait list: a wait, an access behind a BUSY entry, a ring or a gate, or a table read that has
not been sent. -/
def Flight.carried (f : Flight) : Bool :=
  f.res.isNone && (match f.kind with
    | .await => true
    | .bwait => true
    | .table _ _ _ _ _ none => true
    | .xwait _ _ => true
    | .busy _ _ => true
    | .launch _ => true
    | .gate _ _ => true
    | .chka _ => true
    | _ => false)

/-- An item that a router holds for good, until system software opens a way for it: no table leads around a FENCED edge, or a router
is out of service (17 R280, 15 R248). -/
def State.stranded (s : State) (i : NetItem) : Bool :=
  s.rewrites.isEmpty && s.fenceDue.isEmpty && (i.parked || (match i.flit with
    | some (l, _) => (s.link l).st == .fenced
    | none => false))

/-- A load or an atomic that has not left its tile, since the way to its home slice is shut. -/
def State.unsent (s : State) (c : CoreRef) (f : Flight) : Bool :=
  match f.kind with
  | .load l _ => s.memShut (s.coreRouter c) (l.map (·.pa))
  | .atomic a => s.memShut (s.coreRouter c) [a.pa]
  | .table _ _ _ _ _ (some r) => s.memShut (s.coreRouter c) (r.1.map (·.pa))
  | _ => false

/-- Nothing of a tile is on its way to memory or to another tile; what is left is carried, with the accesses held behind it
(07 R142, 12 R209), and with what routers hold for good (log 15). -/
def State.settled (s : State) (t : Nat) : Bool :=
  let v := s.tile t
  let rest (c : CoreRef) : Bool := (s.core c).flights.all (fun f => f.carried || s.unsent c f || s.holdsOn c f)
  v.sbuf.all (fun e => s.memShut (s.routerOf t) (e.bytes.map (·.1))) && rest (.worker t) && rest (.feeder t) &&
    !s.traffic.any (fun i => (i.src == t || i.dst == t) && !s.stranded i)

/-- A core as its image holds it: no watches, nothing held by the model's schedule. -/
def Core.image (x : Core) : Core :=
  { x with watches := [], blocked := false, awaits := false, busyAt := none, steal := { x.steal with victim := none } }

/-- A transfer as a remainder record without pins (06 R128). -/
def Xfer.remainder (x : Xfer) : Xfer :=
  { x with st := if x.st = .running then .suspended else x.st, pins := [] }

/-- A tile's image: caches and translations are left behind. -/
def VTile.toImage (v : VTile) : VTile :=
  { v with worker := v.worker.image, feeder := v.feeder.image, l1 := [], icache := [], tlb := [], acked := false,
           xfers := v.xfers.map Xfer.remainder, power := .busy }

/-! ### Cast-off of an emptied tile (15 R246, R247) -/

/-- The physical tiles of a column: 17 rows. -/
def colTiles (h c : Nat) : List Nat := (rangeFrom 0 17).map (fun r => 272 * h + 16 * r + c)

/-- A tile is cast off. -/
def State.isCast (s : State) (p : Nat) : Bool := (s.ptile p).st == .castOff

/-- The virtual row that a physical tile serves, if it serves one. -/
def State.servesRow (s : State) (p : Nat) : Option Nat :=
  (s.colE (16 * (p / 272) + p % 16)).toList.findIdx? (fun r => r.toNat == p % 272 / 16)

/-- A controller's write of a field of a column entry: a reserved value is refused (01 R22). -/
def State.setRow (s : State) (h c vr row : Nat) : State :=
  if 16 < row ∧ row ≠ 31 then s
  else { s with cols := mput s.cols (16 * h + c) (vset (s.colE (16 * h + c)) vr (BitVec.ofNat 5 row)) }

/-- The defect record with a tile cast off; DEGR of a column with two or more. -/
def Defect.add (d : Defect) (n reason : Nat) (two : Bool) : Defect :=
  { d with cast := d.cast ||| ((1 : BitVec 272) <<< n), reason := mput d.reason n (reason % 16),
           degr := if two then d.degr ||| ((1 : BitVec 16) <<< (n % 16)) else d.degr }

/-- A tile is cast off: its virtual row, if it serves one, gets field 31; the defect record and the logs follow. -/
def State.castNow (s : State) (p reason : Nat) : State :=
  let h := p / 272
  let c := p % 16
  let s := match s.servesRow p with
    | some vr => s.setRow h c vr 31
    | none => s
  let s := s.setPtile p { s.ptile p with st := .castOff, reserved := false, castDue := 0, retire := 0 }
  let two := decide (2 ≤ (colTiles h c).countP s.isCast)
  let was := (s.chip h).defect.degr
  let s := s.modChip h (fun x => { x with defect := x.defect.add (p % 272) reason two })
  let s := s.logSys 0x0029 2 0 (detail [(346, h), (337, p % 272), (333, reason)])
  if (s.chip h).defect.degr = was then s
  else s.logSys 0x002b 2 0 (detail [(346, h), (330, (s.chip h).defect.degr.toNat)])

/-- Cast-offs that waited for a context to be saved. -/
def State.castDue (s : State) (ps : List Nat) : State :=
  ps.foldl (fun s p => if (s.ptile p).castDue = 0 then s else s.castNow p (s.ptile p).castDue) s

/-- A stitch message as its 64 bytes (13 R221): header, template, payload, at rising addresses (which order is the model's choice,
log 58). -/
def State.msgBytes (s : State) (t : Nat) (m : Msg) : List Byte :=
  let pv := (rangeFrom 0 5).foldl (fun a i => if (m.pay.getD i iz).ok then a + 2 ^ i else a) 0
  natBytes 8 ((s.vtileBits t).toNat * 2 ^ 48 + (s.vtileBits m.src).toNat * 2 ^ 32 + m.cls % 8 * 2 ^ 29 + pv * 2 ^ 24 + m.seq % 2 ^ 24) ++
    (rangeFrom 0 4).flatMap (fun i => natBytes 4 (m.tpl.getD i 0).toNat) ++
    (rangeFrom 0 5).flatMap (fun i => natBytes 8 (m.pay.getD i iz).v.toNat)

/-- A remainder record (13 R212): GADDR, LOFF and LOFF2 are the next ones. `rowB`: the row bytes of the local handle. -/
def Xfer.record (x : Xfer) (rowB : Nat) : BitVec 512 :=
  let cpy := x.kind = 0
  let o := (rangeFrom 0 4).foldl (fun a i => a + (BitVec.ofInt 32 (x.origin.getD i 0)).toNat * 2 ^ (384 + 32 * i)) 0
  BitVec.ofNat 512 (o + x.rbox.toNat * 2 ^ 352 + (if cpy then x.dir % 4 * 2 ^ 350 else 0) + (if x.post then 2 ^ 349 else 0) +
    (if cpy ∧ x.dir = 2 then x.hnd2 % 256 * 2 ^ 341 + (x.off2 + x.doneb) % 2 ^ 32 * 2 ^ 309 else 0) + x.xid.toNat * 2 ^ 224 +
    x.ch % 4 * 2 ^ 222 + x.kind % 4 * 2 ^ 220 + (if x.feeder then 2 ^ 219 else 0) + x.cause % 8 * 2 ^ 216 + x.bar % 256 * 2 ^ 208 +
    x.hnd % 256 * 2 ^ 200 + (if cpy then x.gaddr.toNat + x.doneb else x.gaddr.toNat) % 2 ^ 53 * 2 ^ 147 +
    x.loc rowB x.doneb % 2 ^ 32 * 2 ^ 115 + x.doneb % 2 ^ 32 * 2 ^ 83 + x.total % 2 ^ 32 * 2 ^ 51)

/-- A byte of a BST handle's unit u as the 64 KiB of a unit stand: slice by slice (05 R105). -/
def Handle.bstAt (h : Handle) (u i : Nat) : Nat :=
  let c := i / 1024
  let s := 1024 * u + i % 1024
  let e := h.rowB / 64
  if h.fmt = 0 then 320 * (s / 5) + 5 * c + s % 5 else s / max e 1 * h.rowB + c * e + s % max e 1

/-- The bytes of a handle's units, each whole: zeros where no byte of the handle stands. -/
def Handle.unitData (h : Handle) : List Byte :=
  let at' (o : Nat) : Byte := if o < h.extent then BitVec.ofNat 8 (memReadLE h.data o 1) else 0
  if h.level = 2 then (rangeFrom 0 h.units).flatMap (fun u => (rangeFrom 0 65536).map (fun i => at' (h.bstAt u i)))
  else (rangeFrom 0 (4096 * h.units)).map at'

/-- The full/empty bits of a handle's SCR units: 32 bytes for each. -/
def Handle.bitData (h : Handle) : List Byte :=
  if h.level = 0 then bitBytes ((rangeFrom 0 (256 * h.units)).map h.full.contains) else []

/-- A barrier record as 24 bytes, its fields in the order of 12 R198; its waiters stand in the wait list. -/
def Barrier.bytes (b : Barrier) : List Byte :=
  natBytes 24 ((if b.init then 1 else 0) + b.phase.toNat * 2 + b.basea % 2048 * 2 ^ 33 + b.baseb % 2 ^ 32 * 2 ^ 44 +
    b.expb % 2 ^ 32 * 2 ^ 76 + b.cnta % 2048 * 2 ^ 108 + b.cntb % 2 ^ 32 * 2 ^ 119)

/-- A group with its barrier and gauge set as 8 KiB (11 R192, 12 R208): MAP, COUNT, ALLOW, the phases of its members, PHASE, ARR. -/
def Group.bytes (g : Group) : List Byte :=
  padTo 8192 (natBytes 128 g.map.toNat ++ natBytes 4 g.count ++ natBytes 4 g.allow.toNat ++
    (rangeFrom 0 1024).flatMap (fun m => natBytes 4 (mget 0 g.gph m).toNat) ++ natBytes 4 g.phase.toNat ++
    bitBytes ((rangeFrom 0 1024).map g.arr.contains))

/-- The groups whose home a tile is (11 R192). -/
def Ctx.homed (x : Ctx) (t : Nat) : List Nat :=
  let k := (t / 128 - x.vy0) * x.width + (t % 128 - x.vx0)
  (rangeFrom 0 16).filterMap (fun i =>
    let g := k + i * (x.width * x.height)
    if g < 4096 then some g else none)

/-- A task record as a word: its packet's kernel, cr.taskid and class (09 R174). -/
def TaskRec.word (r : TaskRec) : W64 :=
  BitVec.ofNat 64 (r.taskid % 2 ^ 32 + r.prio % 8 * 2 ^ 32 + (if r.prim then 2 ^ 35 else 0) + (if r.float then 2 ^ 36 else 0) +
    r.kern % 2 ^ 27 * 2 ^ 37)

/-- A deque of 64 records. -/
def dequeBytes (l : List TaskRec) : List Byte := padTo 512 (l.flatMap (fun r => natBytes 8 r.word.toNat))

/-- The block at which a core of an image is paused. -/
def Core.pausedAt (x : Core) : Option W64 :=
  match x.phase with
  | .paused t => some t
  | _ => none

/-- The bytes of a tile's slot before its digest, the parts in the order of R151. Where a part has no layout in the spec, the order of
its fields is the model's (log 39); the wait list and the commands carried are left to `Config.slotPart`. -/
def State.slotBody (s : State) (t : Nat) (v : VTile) : List Byte :=
  let rowB (x : Xfer) : Nat := match mfind v.handles x.hnd with
    | some h => h.rowB
    | none => 0
  (v.worker.regArea v.worker.pausedAt ++ v.feeder.regArea v.feeder.pausedAt ++
    (rangeFrom 0 256).flatMap (fun i => match mfind v.handles i with
      | some h => natBytes 8 h.desc.toNat ++ natBytes 8 h.base.toNat
      | none => natBytes 16 0) ++
    v.handles.flatMap (fun e => e.2.unitData) ++ v.handles.flatMap (fun e => e.2.bitData) ++ Config.slotPart 4 v ++
    (rangeFrom 0 512).flatMap (fun b => (v.bar b).bytes) ++
    ((s.ctxOfTile t).homed t).flatMap (fun g => (mget Group.init0 v.groups g).bytes) ++
    dequeBytes v.wdq ++ dequeBytes v.fdq ++ v.msgs.flatMap (s.msgBytes t) ++
    (v.chNext.toList ++ v.chDone.toList).flatMap (fun w => natBytes 4 w.toNat) ++
    v.xfers.flatMap (fun x => natBytes 64 (x.record (rowB x)).toNat) ++ Config.slotPart 10 v ++
    natBytes 8 v.ytab.toNat).take 6815680

/-- Slots written one after the other, the digest of each after its other bytes; what each is sealed with (R158). -/
def State.sealSlots (s : State) (save : Nat) : Nat → List (Nat × VTile) → State × List (Nat × BitVec 512)
  | _, [] => (s, [])
  | k, e :: r =>
    let body := s.slotBody e.1 e.2
    let d := Config.sha3 body
    let q := State.sealSlots { s with mem := memWriteN s.mem (slotAt save k) (body ++ natBytes 64 d.toNat) } save (k + 1) r
    (q.1, (body.length, d) :: q.2)

/-- SAVE_ACKNOWLEDGE: both handlers have finished, and the tile's matrix commands, scrubs, HALLOCs and HFREEs are done. The copy-out
of its slot begins; what changes afterwards is copied again by FINAL_COPY. -/
def State.saveAck (s : State) (t : Nat) : State :=
  let v := s.tile t
  if (s.ctxOfTile t).st = .saving ∧ v.quiet ∧ v.mq.isEmpty ∧ v.dq.isEmpty ∧ v.scrub.all (· == 0) ∧
      v.allocs.isEmpty ∧ !v.handles.any (fun h => h.2.st == .freeing) then
    { s with mem := memWriteN s.mem (s.slotOf t) (s.slotBody t v.toImage) }.modTile t (fun v => { v with acked := true })
  else s

/-- SAVE_ACKNOWLEDGE (R158). -/
def execSaveAcknowledge (t : Nat) (s : State) : Host.Outcome State Fault Refusal := atTile t (·.saveAck t) s

/-- A record of the context that is being placed can still enter its deques (09 R172). -/
def State.placingLeft (s : State) (n : Nat) : Bool :=
  s.kernels.any (fun e => e.2.ctx == n && e.2.st == .placing && (s.slotFor e.2.q).isSome && (s.tile (s.placeTile e.2)).room e.2)

/-- No queue slot holds a queue of the context (09 R173). A packet that a full deque keeps half placed at SAVED is carried with its
kernel and leaves its slot; see `State.placeOn` (log 38). -/
def State.freeSlots (s : State) (n : Nat) : State :=
  let qs := (s.queues.filter (fun e => e.2.ctxn == n)).map (·.1)
  { s with chips := mmapv (fun (h : Chip) => { h with slots := h.slots.filter (fun e => !qs.contains e.2.q) }) s.chips }

/-- After a restore a queue with a half-placed packet is held by a slot of its new home, which ends the unmap that the stop began:
the lowest FREE one, or where none is FREE the next that maps the queue, for which its bit is set. -/
def State.placeOn (s : State) (n : Nat) : State :=
  (s.queues.filter (fun e => e.2.ctxn == n && (s.placingOf e.1).isSome)).foldl (fun s e =>
    let chip := s.queueHome e.2
    match (rangeFrom 0 64).find? (fun m => (mfind (s.chip chip).slots m).isNone) with
    | some m => s.modChip chip (fun h => { h with slots := mput h.slots m ((Slot.mk0 e.1 0 s.time).unmap (!e.2.en)) })
    | none => s.setPkb chip e.1) s

/-- FINAL_COPY: every tile has acknowledged and nothing of the context travels: the slots are sealed, the context is SAVED,
its chiplets are free. A fault reported meanwhile leads to its rollback instead (R153). -/
def State.finalCopy (s : State) (n : Nat) : State :=
  let x := s.ctx n
  let ts := ctxTiles x
  if x.st = .saving ∧ !x.fault ∧ ts.all (fun t => (s.tile t).acked && (s.tile t).quiet && s.settled t) ∧ !s.placingLeft n then
    let img := ts.map (fun t => (t, (s.tile t).toImage))
    let r := s.sealSlots x.save 0 img
    let s := r.1.unpin (ts.flatMap (fun t => (s.tile t).xfers.flatMap Xfer.frames))
    let s := ts.foldl (fun s t => s.setTile t VTile.init0) s
    let s := s.castDue (ts.filterMap s.physOf)
    let held (i : NetItem) : Bool := ts.contains i.src
    let parcel := s.net.filter held
    let s := { s with net := s.net.filter (fun i => !held i) }
    (((s.clearTags ts).freeSlots n).setCtx n
      { x with st := .saved, parcel := parcel, image := img, slots := r.2, imgAt := (x.vy0, x.vx0), out := true }).settle n
  else s

/-- FINAL_COPY (R158). -/
def execFinalCopy (ctx : Nat) (s : State) : Host.Outcome State Fault Refusal := atCtx ctx (·.finalCopy ctx) s

/-! ### Restoring (R160) -/

/-- A tile number under a move of its partition's origin, row and column. -/
def movedTile (a b : Nat × Nat) (t : Nat) : Nat := 128 * (t / 128 + b.1 - a.1) + (t % 128 + b.2 - a.2)

/-- A core reference under a move. -/
def movedCore (f : Nat → Nat) : CoreRef → CoreRef
  | .worker t => .worker (f t)
  | .feeder t => .feeder (f t)
  | c => c

/-- A message under a move. -/
def Msg.move (f : Nat → Nat) (m : Msg) : Msg := { m with src := f m.src, c := movedCore f m.c }

/-- A held access under a move. -/
def HeldOp.move (f : Nat → Nat) : HeldOp → HeldOp
  | .acc dst h off op => .acc (f dst) h off op
  | .msg dst m => .msg (f dst) (m.move f)
  | .grp dst r => .grp (f dst) r
  | o => o

/-- The accesses of a core that are held, under a move. -/
def Core.move (f : Nat → Nat) (x : Core) : Core :=
  { x with flights := x.flights.map (fun g => match g.kind with
      | .held h => { g with kind := .held { h with op := h.op.move f } }
      | _ => g) }

/-- A waiter under a move. -/
def Waiter.move (f : Nat → Nat) (w : Waiter) : Waiter := { w with c := movedCore f w.c }

/-- The tile numbers inside an image under a move of the partition. -/
def VTile.move (f : Nat → Nat) (v : VTile) : VTile :=
  let keys (m : SMap Nat) : SMap Nat := m.foldl (fun m e => mput m (f (e.1 / 8) * 8 + e.1 % 8) e.2) []
  { v with worker := v.worker.move f, feeder := v.feeder.move f, waits := v.waits.map (fun w => { w with c := movedCore f w.c }),
           bars := mmapv (fun (b : Barrier) => { b with wait := b.wait.map (Waiter.move f) }) v.bars,
           groups := mmapv (fun (g : Group) =>
             { g with wait := g.wait.map (Waiter.move f), gwait := g.gwait.map (fun w => (w.1.move f, w.2)) }) v.groups,
           msgs := v.msgs.map (Msg.move f), chOut := keys v.chOut, chIn := keys v.chIn }

/-- An item under a move. -/
def NetItem.move (f : Nat → Nat) (i : NetItem) : NetItem :=
  { i with src := f i.src, dst := f i.dst, c := movedCore f i.c, flit := none, body := match i.body with
      | .msg m => .msg (m.move f)
      | b => b }

/-- What routers held goes on from its tiles' new routers, in its order. -/
def State.unpack (s : State) (l : List NetItem) : State :=
  l.foldl (fun s i => let r := s.onward { i with hop := s.routerOf i.src }
                      { r.1 with net := r.1.net ++ [r.2] }) s

/-- Images under a move. -/
def moveImages (f : Nat → Nat) (l : SMap VTile) : SMap VTile := l.foldl (fun m e => mput m (f e.1) (e.2.move f)) []

/-- RESTORE_REQUEST: a free partition of the context's shape; its slots are read into it. -/
def State.restoreReq (s : State) (n vx0 vy0 : Nat) : State :=
  let x := s.ctx n
  let y := { x with vx0 := vx0, vy0 := vy0 }
  if x.st ≠ .saved ∨ !partOk y ∨ s.chipsTaken y ∨ s.degraded y then s.replyTo 2 false
  else (((ctxTiles y).foldl (fun s t => s.setTile t (freshTile n 0)) s).setCtx n { y with st := .restoring, out := false }).replyTo 2 true

/-- RESTORE_REQUEST (R160). -/
def execRestoreRequest (ctx vx0 vy0 : Nat) (s : State) : Host.Outcome State Fault Refusal :=
  atCtx ctx (·.restoreReq ctx vx0 vy0) s

/-- A tile loaded from its image: remainder records resume, each core enters its saved block. -/
def VTile.fromImage (v : VTile) : VTile :=
  { v.resume with xfers := v.xfers.map (fun x => if x.st = .suspended then { x with st := .running } else x), power := .busy }

/-- What a slot holds: its digest is recomputed and compared with the stored one. A slot that is still as it was sealed holds the
image of its tile; of other bytes with a matching digest the implementation knows what they load. -/
def State.slotLoad (s : State) (save k : Nat) (l : Nat × BitVec 512) (v : VTile) : Option VTile :=
  let body := memReadN s.mem (slotAt save k) l.1
  let d : BitVec 512 := BitVec.ofNat 512 (memReadLE s.mem (slotAt save k + l.1) 64)
  if Config.sha3 body ≠ d then none else if d = l.2 then some v else Config.slotLoad body

/-- Every slot of an image, loaded. -/
def State.slotsLoad (s : State) (save : Nat) : Nat → List (Nat × BitVec 512) → SMap VTile → Option (SMap VTile)
  | k, l :: ls, e :: es =>
    match s.slotLoad save k l e.2, State.slotsLoad s save (k + 1) ls es with
    | some v, some r => some ((e.1, v) :: r)
    | _, _ => none
  | _, _, _ => some []

/-- RESTORE_VERIFIED: with every slot readable, and its digest right, the tiles are loaded and the context runs; or it fails.
`good`: no slot was left unreadable after rebuild. -/
def State.restored (s : State) (n : Nat) (good : Bool) : State :=
  let x := s.ctx n
  if x.st ≠ .restoring then s
  else match (if good then s.slotsLoad x.save 0 x.slots x.image else none) with
    | none => (s.failCtx n 1).settle n
    | some img =>
      let f := movedTile x.imgAt (x.vy0, x.vx0)
      let s := (moveImages f img).foldl (fun s e =>
        let v := e.2.fromImage
        s.setTile e.1 { v with ytabNext := (s.tile e.1).ytabNext.or v.ytabNext }) s
      let y := { x with st := .running, image := [], parcel := [], slots := [], slice := s.time, resumed := s.time,
                        points := x.points.map (fun p => { p with image := moveImages f p.image }) }
      ((((s.setCtx n y).unpack (x.parcel.map (·.move f))).kickBits n).placeOn n).settle n

/-- RESTORE_VERIFIED (R160). -/
def execRestoreVerified (ctx : Nat) (good : Bool) (s : State) : Host.Outcome State Fault Refusal :=
  atCtx ctx (·.restored ctx good) s

/-! ### Debugging (R162) -/

/-- DEBUG_RESUME: every core is released into its recorded block; what waited for it is carried out. -/
def State.debugResume (s : State) (n : Nat) : State :=
  let x := s.ctx n
  if x.st = .debugging then ((s.resumeAll x).setCtx n { x with st := .running }).settle n else s

/-- DEBUG_RESUME (R162). -/
def execDebugResume (ctx : Nat) (s : State) : Host.Outcome State Fault Refusal :=
  atCtx ctx (fun s => (s.debugResume ctx).replyTo 5 ((s.ctx ctx).st == .debugging)) s

/-- Releasing a core for one block. -/
def Core.stepDebug (x : Core) : Core :=
  match x.phase with
  | .paused t => { x with phase := .entering t .direct, stepOnce := true }
  | _ => x

/-- DEBUG_STEP. -/
def execDebugStep (t : Nat) (s : State) : Host.Outcome State Fault Refusal :=
  atTile t (fun s => if (s.ctxOfTile t).st = .debugging then
      s.modTile t (fun v => { v with worker := v.worker.stepDebug, feeder := v.feeder.stepDebug })
    else s) s

/-- The record of a word. -/
def recOf (w : W64) : TaskRec := ⟨wf w 37 27, wf w 0 32, wf w 35 1 == 1, wf w 36 1 == 1, wf w 32 3⟩

/-- A scalar cell read or written by the debug service: bit 8 of the index selects validity. -/
def dbgCell (c : Cell SVal) (okBit : Bool) : W64 := if okBit then (if c.val.ok then 1 else 0) else c.val.v

/-- Writing one. -/
def dbgSet (c : Cell SVal) (okBit : Bool) (w : W64) : Cell SVal :=
  if okBit then Cell.mk0 ⟨c.val.v, w.getLsbD 0⟩ else Cell.mk0 ⟨w, c.val.ok⟩

/-- Counter number, body and exit header of a loop, and writing one. -/
def LoopEntry.word (e : LoopEntry) (i : Nat) : W64 := if i = 0 then BitVec.ofNat 64 e.k else if i = 1 then e.body else e.exit
def LoopEntry.setWord (e : LoopEntry) (i : Nat) (w : W64) : LoopEntry :=
  if i = 0 then { e with k := w.toNat % 4 } else if i = 1 then { e with body := w } else { e with exit := w }

/-- The register area of a core by index (log 13): s0-s15 at 0, p0-p7 at 16, k0-k3 at 24, cr.check 28, cr.fflags 29, cr.ystat
30, cr.trap 31 and 32, the block's address 33, the depth of the loop stack 34 and from 35 on counter, body and exit of each
loop, innermost first; yarns in halves from 48, their validity from 304; vector lanes from 64, their
validity from 320. -/
def Core.dbgRead (x : Core) (i : Nat) : W64 :=
  let k := i % 256
  let o := 256 ≤ i
  if k < 16 then dbgCell (vget ic x.r.norm.s k) o
  else if k < 24 then dbgCell (vget ic x.r.p (k - 16)) o
  else if k < 28 then dbgCell (vget ic x.r.norm.k (k - 24)) o
  else if k = 28 then (if x.check then 1 else 0)
  else if k = 29 then x.r.fflags.setWidth 64
  else if k = 30 then (if x.r.yund then 1 else 0)
  else if k = 31 then x.trap.setWidth 64
  else if k = 32 then (x.trap >>> 64).setWidth 64
  else if k = 33 then (match x.phase with
    | .paused t => t
    | _ => 0)
  else if k = 34 then BitVec.ofNat 64 x.r.norm.loops.length
  else if k < 47 then (match x.r.norm.loops[(k - 35) / 3]? with
    | some e => e.word ((k - 35) % 3)
    | none => 0)
  else if k < 48 then 0
  else if k < 64 then
    let y := (vget (Cell.mk0 yz) x.r.y ((k - 48) / 2)).val
    if o then (if y.ok then 1 else 0) else (y.v >>> (64 * (k % 2))).setWidth 64
  else
    let l := vget ⟨0, false⟩ (vget (Cell.mk0 vz) x.r.v ((k - 64) / 16)).val (k % 16)
    if o then (if l.ok then 1 else 0) else l.v.setWidth 64

/-- Writing one half of a yarn. -/
def yarnHalf (y : YVal) (hi : Bool) (w : W64) : YVal :=
  if hi then ⟨BitVec.ofNat 128 (w.toNat * 2 ^ 64 + y.v.toNat % 2 ^ 64), y.ok⟩
  else ⟨BitVec.ofNat 128 (y.v.toNat / 2 ^ 64 * 2 ^ 64 + w.toNat), y.ok⟩

/-- A loop stack of a new depth: loops added outermost are empty ones. -/
def loopsOf (n : Nat) (l : List LoopEntry) : List LoopEntry := (l ++ List.replicate 4 (LoopEntry.mk 0 0 0)).take (min n 4)

/-- Writing the register area by index. -/
def Core.dbgWrite (x : Core) (i : Nat) (w : W64) : Core :=
  let k := i % 256
  let o := decide (256 ≤ i)
  let b := x.r.norm
  if k < 16 then { x with r := { x.r with norm := { b with s := vset b.s k (dbgSet (vget ic b.s k) o w) } } }
  else if k < 24 then { x with r := { x.r with p := vset x.r.p (k - 16) (dbgSet (vget ic x.r.p (k - 16)) o w) } }
  else if k < 28 then
    let w := if o then w else (w.setWidth 32).setWidth 64
    { x with r := { x.r with norm := { b with k := vset b.k (k - 24) (dbgSet (vget ic b.k (k - 24)) o w) } } }
  else if k = 28 then { x with check := w.getLsbD 0 }
  else if k = 29 then { x with r := { x.r with fflags := w.setWidth 5 } }
  else if k = 30 then { x with r := { x.r with yund := w.getLsbD 0 } }
  else if k = 31 then { x with trap := BitVec.ofNat 128 (x.trap.toNat / 2 ^ 64 * 2 ^ 64 + w.toNat) }
  else if k = 32 then { x with trap := BitVec.ofNat 128 (w.toNat * 2 ^ 64 + x.trap.toNat % 2 ^ 64) }
  else if k = 33 then (match x.phase with
    | .paused _ => { x with phase := .paused w }
    | _ => x)
  else if k = 34 then { x with r := { x.r with norm := { b with loops := loopsOf w.toNat b.loops } } }
  else if k < 47 then (match b.loops[(k - 35) / 3]? with
    | some e => { x with r := { x.r with norm := { b with loops := setAt b.loops ((k - 35) / 3) (e.setWord ((k - 35) % 3) w) } } }
    | none => x)
  else if k < 48 then x
  else if k < 64 then
    let j := (k - 48) / 2
    let y := (vget (Cell.mk0 yz) x.r.y j).val
    let y := if o then ⟨y.v, w.getLsbD 0⟩ else yarnHalf y (k % 2 == 1) w
    { x with r := { x.r with y := vset x.r.y j (Cell.mk0 y) } }
  else
    let j := (k - 64) / 16
    let v := (vget (Cell.mk0 vz) x.r.v j).val
    let l := vget ⟨0, false⟩ v (k % 16)
    let l : Lane := if o then ⟨l.v, w.getLsbD 0⟩ else ⟨w.setWidth 32, l.ok⟩
    { x with r := { x.r with v := vset x.r.v j (Cell.mk0 (vset v (k % 16) l)) } }

/-- A field of a barrier record: INIT, PHASE, BASEA, BASEB, EXPB, CNTA, CNTB. -/
def Barrier.field (b : Barrier) (k : Nat) : Nat :=
  match k with
  | 0 => if b.init then 1 else 0
  | 1 => b.phase.toNat
  | 2 => b.basea
  | 3 => b.baseb
  | 4 => b.expb
  | 5 => b.cnta
  | 6 => b.cntb
  | _ => 0

/-- Writing one. -/
def Barrier.setField (b : Barrier) (k : Nat) (w : Nat) : Barrier :=
  match k with
  | 0 => { b with init := w % 2 == 1 }
  | 1 => { b with phase := BitVec.ofNat 32 w }
  | 2 => { b with basea := w % 2048 }
  | 3 => { b with baseb := w % 2 ^ 32 }
  | 4 => { b with expb := w % 2 ^ 32 }
  | 5 => { b with cnta := w % 2048 }
  | 6 => { b with cntb := w % 2 ^ 32 }
  | _ => b

/-- An entry of a barrier's WAIT list as a word: the token, and bit 32 for a waiter of the feeder. -/
def Waiter.word (w : Waiter) : W64 := BitVec.ofNat 64 (w.tok.toNat + if isFeeder w.c then 2 ^ 32 else 0)

/-- Writing entry i of a WAIT list: a word of ones takes it out; another changes its token, or appends the oldest BWAIT of a core of
the tile that stands in no list. -/
def State.setWaiter (s : State) (t b i : Nat) (w : W64) : State :=
  let x := (s.tile t).bar b
  let c : CoreRef := if w.getLsbD 32 then .feeder t else .worker t
  let listed (f : Flight) : Bool := (s.tile t).bars.any (fun e => e.2.wait.any (fun v => v.c == c && v.id == f.id))
  let wait :=
    if w = 0xffffffffffffffff then delAt x.wait i
    else match x.wait[i]? with
      | some v => setAt x.wait i { v with tok := w.setWidth 32 }
      | none => match (s.core c).flights.find? (fun f => f.kind == .bwait && f.res.isNone && !listed f) with
        | some f => x.wait ++ [⟨c, f.id, w.setWidth 32⟩]
        | none => x.wait
  s.modTile t (fun v => { v with bars := mput v.bars b { x with wait := wait } })

/-- The waiters of a barrier whose condition holds are released (12 R201). -/
def State.barRelease (s : State) (t b : Nat) : State :=
  let x := (s.tile t).bar b
  (s.modTile t (fun v => { v with bars := mput v.bars b { x with wait := x.wait.filter (fun w => tokOpen x.phase w.tok) } })).releaseWait
    x.wait x.phase

/-- A read through the debug service. Selectors: 0 worker and 1 feeder registers, 2 handle bytes (handle x 2^32 + offset), 3
full/empty bits (handle x 2^32 + granule), 4 barriers (number x 8 + field), 5 worker and 6 feeder deque, 7 the descriptor of a
handle as HINFO gives it, 8 the base of a window, 9 the WAIT list of a barrier (number x 64 + entry). -/
def State.dbgRead (s : State) (t sel i : Nat) : W64 :=
  let v := s.tile t
  match sel with
  | 0 => v.worker.dbgRead i
  | 1 => v.feeder.dbgRead i
  | 2 => (match mfind v.handles (i / 2 ^ 32) with
    | some h => BitVec.ofNat 64 (memReadLE h.data (i % 2 ^ 32) 8)
    | none => 0)
  | 3 => (match mfind v.handles (i / 2 ^ 32) with
    | some h => if h.full.contains (i % 2 ^ 32) then 1 else 0
    | none => 0)
  | 4 => BitVec.ofNat 64 ((v.bar (i / 8)).field (i % 8))
  | 5 => ((v.wdq[i]?).map TaskRec.word).getD 0
  | 6 => ((v.fdq[i]?).map TaskRec.word).getD 0
  | 7 => ((mfind v.handles i).map Handle.desc).getD 0
  | 8 => ((mfind v.handles i).map (·.base)).getD 0
  | 9 => (((v.bar (i / 64)).wait[i % 64]?).map Waiter.word).getD 0
  | _ => 0

/-- A deque with its entry replaced, appended, or removed by a word of ones. -/
def dbgDeque (l : List TaskRec) (i : Nat) (w : W64) : List TaskRec :=
  if w = 0xffffffffffffffff then delAt l i
  else if i < l.length then setAt l i (recOf w) else if l.length < 64 then l ++ [recOf w] else l

/-- A handle with another descriptor, which keeps its level, kind and units. -/
def Handle.redesc (h : Handle) (w : W64) : Handle :=
  let x := { h with fmt := (descOf w).fmt, rows := (descOf w).rows, cols := (descOf w).cols, st := if w.getLsbD 15 then .stale else h.st }
  if x.units = h.units then x else h

/-- A write through the debug service. -/
def State.dbgWrite (s : State) (t sel i : Nat) (w : W64) : State :=
  match sel with
  | 0 => s.modTile t (fun v => { v with worker := v.worker.dbgWrite i w })
  | 1 => s.modTile t (fun v => { v with feeder := v.feeder.dbgWrite i w })
  | 2 => (match mfind (s.tile t).handles (i / 2 ^ 32) with
    | some h => if i % 2 ^ 32 + 8 ≤ h.extent then
        s.modHandle t (i / 2 ^ 32) (·.write (atAddr (i % 2 ^ 32) (natBytes 8 w.toNat)) false) else s
    | none => s)
  | 3 => s.modHandle t (i / 2 ^ 32) (fun h =>
      if h.level = 0 ∧ h.kind = 0 ∧ 16 * (i % 2 ^ 32) < h.extent then
        { h with full := if w.getLsbD 0 then setIns h.full (i % 2 ^ 32) else setDel h.full (i % 2 ^ 32) } else h)
  | 4 => if i / 8 < 512 then
      -- the completion test follows the write, and waiters that a written PHASE lets go are released (12 R201)
      ((s.modTile t (fun v => { v with bars := mput v.bars (i / 8) ((v.bar (i / 8)).setField (i % 8) w.toNat) })).barComplete t
        (i / 8)).barRelease t (i / 8)
    else s
  | 5 => s.modTile t (fun v => { v with wdq := dbgDeque v.wdq i w })
  | 6 => s.modTile t (fun v => { v with fdq := dbgDeque v.fdq i w })
  | 7 => s.modHandle t i (·.redesc w)
  | 8 => s.modHandle t i (fun h => if h.kind = 1 then { h with base := w } else h)
  | 9 => if i / 64 < 512 then (s.setWaiter t (i / 64) (i % 64) w).barRelease t (i / 64) else s
  | _ => s

/-- DEBUG_ACCESS (R162): of a DEBUGGING context. -/
def execDebugAccess (t sel i : Nat) (w : Option (BitVec 64)) (s : State) : Host.Outcome State Fault Refusal :=
  atTile t (fun s => if (s.ctxOfTile t).st = .debugging then
      match w with
      | some w => s.dbgWrite t sel i w
      | none => { s with reply := [s.dbgRead t sel i] }
    else s) s

end Sys2Proof.Machine
end

