-- ==== Sys2Proof/Machine/EvDrift.lean ====
section
/-! DEFINITION. Events of physical tiles: drifts (15 R236-R244), cast-off (15 R246; 16 R251), routing tables (15 R249, R250),
test packages (16 R264), retention and scrubbing (16 R253, R254).

Physical tile 272 x chiplet + 16 x row + column. An event that is not due leaves the state as it is. -/

namespace Sys2Proof.Machine

/-- Number of physical tiles. -/
def nPhys : Nat := 17408

/-- An event at a physical tile. -/
def atPhys (p : Nat) (f : State → State) (s : State) : Host.Outcome State Fault Refusal := atUnit p nPhys f s

/-! ### Orders (R237, R238) -/

/-- The spare of a column: the row in no field and not cast off. -/
def State.spareOf (s : State) (h c : Nat) : Option Nat :=
  (colTiles h c).find? (fun p => (s.servesRow p).isNone && !s.isCast p)

/-- The virtual tile of a chiplet, virtual row and column. -/
def virtTile (h vr c : Nat) : Nat := 128 * (16 * (h / 8) + vr) + 16 * (h % 8) + c

/-- A wake cause for a tile that serves no row (18 R294): a test order, or an order that makes it a landing tile. -/
def State.wakePhys (s : State) (p : Nat) : State :=
  match (s.ptile p).power with
  | .hold _ => s.setPtile p { s.ptile p with power := .busy }
  | .gated => (s.setPtile p { s.ptile p with power := .queued }).modChip (p / 272) (fun h => { h with inrush := h.inrush ++ [16384 + p] })
  | _ => s

/-- R238's reasons for which an order to a tile is not made: its column holds a cast-off tile, the spare is not SPARE, the context is
not RUNNING, a drift of the chiplet is in progress. -/
def State.orderBarred (s : State) (p : Nat) : Bool :=
  let h := p / 272
  let c := p % 16
  match s.spareOf h c, s.servesRow p with
  | some q, some vr =>
    let t := virtTile h vr c
    (s.chip h).drift.isSome || (colTiles h c).any s.isCast || (s.ptile q).st != .spare ||
      ((s.tile t).ctx.isSome && (s.ctxOfTile t).st != .running)
  | _, _ => true

/-- An order waits while a marker wave passes the tile, or routing tables of its chiplet are being rewritten (R244, R250). -/
def State.orderWaits (s : State) (h t : Nat) : Bool :=
  ((s.tile t).ctx.isSome && (s.ctxOfTile t).cutting) || s.rewrites.any (fun r => r.1 / 272 == h) || !s.fenceDue.isEmpty

/-- An interval order that waits gives way to a thermal one, and is due again after it (R237). -/
def Chip.yieldInterval (x : Chip) : Chip :=
  match x.driftWait with
  | (p, _, _) :: _ => { x with driftWait := [], driftDue := true, nextCol := p % 16 }
  | [] => x

/-- A drift of a serving tile to its column's spare. Kinds: 0 interval, 1 thermal, 2 requested, 3 requested ahead of a
cast-off. None where R238 forbids it, where another order of the chiplet waits, or while a fault of the context is to be rolled back;
while a marker wave passes the tile the order waits (R244). -/
def State.driftOrder (s : State) (p kind reason : Nat) : Option State :=
  let h := p / 272
  let c := p % 16
  match s.spareOf h c, s.servesRow p with
  | some q, some vr =>
    let t := virtTile h vr c
    let owned := (s.tile t).ctx.isSome
    if s.orderBarred p || (s.ptile p).st != .serving || (owned && (s.ctxOfTile t).fault) ||
        (s.chip h).driftWait.any (fun o => kind != 1 || o.2.1 != 0) ||
        (kind == 1 && decide (1440 ≤ (s.ptile q).temp)) then none
    else
      let s := s.modChip h Chip.yieldInterval
      if s.orderWaits h t then
        some ((s.modChip h (fun y => { y with driftWait := [(p, kind, reason)] })).setPtile p
          { s.ptile p with retire := if kind = 3 then reason else (s.ptile p).retire })
      else
        let s := (s.setPtile p { s.ptile p with st := if owned then .draining else .remapping,
                                                      retire := if kind = 3 then 0 else (s.ptile p).retire }).setPtile q
          { s.ptile q with reserved := true }
        let d : Drift := { kind := kind, col := c, vr := vr, old := p, new := q, tile := t,
                           phase := if owned then .drain else .remap, applied := [], held := [], direct := [],
                           endSent := false, resumed := false, reason := reason, since := s.time }
        let s := ((s.modChip h (fun y => { y with drift := some d })).wake t).wakePhys q
        -- a tile of no context is drifted by remap alone
        some (if owned then s else s.setRow h c vr (q % 272 / 16))
  | _, _ => none

/-- The orders of some chiplets that waited are made, if they still can be; one that must still wait waits again. -/
def State.driftsGo (s : State) (chips : List Nat) : State :=
  chips.foldl (fun s h => (s.chip h).driftWait.foldl (fun s o =>
    let s := s.modChip h (fun y => { y with driftWait := [] })
    (s.driftOrder o.1 o.2.1 o.2.2).getD s) s) s

/-- DRIFT_INTERVAL_EXPIRY: once the interval has passed, the next column's order, or its skip. An order due during a thermal drift,
or while a thermal order waits, waits for it. -/
def State.driftInterval (s : State) (h : Nat) : State :=
  let x := s.chip h
  let thermal := (match x.drift with
    | some d => d.kind == 1
    | none => false) || x.driftWait.any (fun o => o.2.1 == 1)
  if x.interval = 0 ∨ (!x.driftDue ∧ s.time < x.driftAt + x.interval) then s
  else if thermal then s.modChip h (fun y => { y with driftDue := true })
  else
    let c := x.nextCol
    let s' := s.modChip h (fun y => { y with nextCol := (c + 1) % 16, driftAt := s.time, driftDue := false })
    match s.spareOf h c with
    | none => s'
    | some q => (s'.driftOrder (272 * h + 16 * ((q % 272 / 16 + 1) % 17) + c) 0 0).getD s'

/-- DRIFT_INTERVAL_EXPIRY (R237). -/
def execDriftIntervalExpiry (chip : Nat) (s : State) : Host.Outcome State Fault Refusal := atChip chip (·.driftInterval chip) s

/-- DRIFT_REQUEST (R237). -/
def execDriftRequest (p : Nat) (s : State) : Host.Outcome State Fault Refusal :=
  atPhys p (fun s => (s.driftOrder p 2 0).getD s) s

/-- DRIFT_INTERVAL_SET (R237): 50 µs to 10 ms, or 0. -/
def execDriftIntervalSet (chip us : Nat) (s : State) : Host.Outcome State Fault Refusal :=
  atChip chip (fun s => if us = 0 ∨ (50 ≤ us ∧ us ≤ 10000) then s.modChip chip (fun h => { h with interval := us * 1000 }) else s) s

/-! ### The sequence (R239-R242) -/

/-- An event of the drift in progress on a chiplet. -/
def atDrift (h : Nat) (f : State → Drift → State) (s : State) : Host.Outcome State Fault Refusal :=
  atChip h (fun s => match (s.chip h).drift with
    | some d => f s d
    | none => s) s

/-- Replacing the drift in progress. -/
def State.setDrift (s : State) (h : Nat) (d : Option Drift) : State := s.modChip h (fun y => { y with drift := d })

/-- Running transfers of a tile become remainder records (R212). -/
def VTile.suspend (v : VTile) : VTile :=
  { v with xfers := v.xfers.map (fun x => if x.st = .running then { x with st := .suspended } else x) }

/-- They run again. -/
def VTile.unsuspend (v : VTile) : VTile :=
  { v with xfers := v.xfers.map (fun x => if x.st = .suspended then { x with st := .running } else x) }

/-- A test that is due starts at a spare that no drift has reserved (R236, 16 R264); the order wakes the tile (18 R294). -/
def State.testIf (s : State) (p : Nat) : State :=
  let x := s.ptile p
  if x.st = .spare ∧ x.testDue ∧ !x.reserved then (s.setPtile p { x with st := .testing }).wakePhys p else s

/-- A landing tile that is not needed any more: a test that fell due meanwhile starts. -/
def State.release' (s : State) (p : Nat) : State := (s.setPtile p { s.ptile p with reserved := false }).testIf p

/-- What a drift holds goes back to the networks, ahead of what was sent later. -/
def State.returnHeld (s : State) (d : Drift) : State := { s with net := d.held ++ d.direct ++ s.net }

/-- A drift is given up before its remap: its tile serves again, the landing tile is free, paused cores and stopped transfers go
on. A cast-off that was to follow it is still due. -/
def State.driftAbandon (s : State) (h : Nat) (d : Drift) : State :=
  let s := ((s.setDrift h none).returnHeld d).modTile d.tile (fun v => v.unsuspend.resume)
  (s.setPtile d.old { s.ptile d.old with st := .serving, retire := if d.kind = 3 then d.reason else (s.ptile d.old).retire }).release' d.new

/-- DRAIN_WINDOW_EXPIRY (R239). -/
def execDrainWindowExpiry (chip : Nat) (s : State) : Host.Outcome State Fault Refusal :=
  atDrift chip (fun s d => if d.phase = .drain ∧ !(s.tile d.tile).quiet then s.driftAbandon chip d else s) s

/-- DRIFT_FREEZE: both cores are at a block entry. -/
def execDriftFreeze (chip : Nat) (s : State) : Host.Outcome State Fault Refusal :=
  atDrift chip (fun s d =>
    if d.phase = .drain ∧ (s.tile d.tile).quiet then s.setDrift chip (some { d with phase := .quiesce, since := s.time })
    else s) s

/-- A flight that a drift or a marker wave carries (R239 step 7). -/
def Flight.driftCarried (f : Flight) : Bool :=
  f.carried || (f.res.isNone && (match f.kind with
    | .halloc _ _ _ => true
    | .hwin _ _ _ _ _ => true
    | _ => false))

/-- Items that a drift buffer holds, which counts as their acknowledgement (R239, R240); and those that a landing tile holds until the
forwarding end. -/
def State.inHeld (s : State) : List NetItem := s.chips.flatMap (fun e => match e.2.drift with
  | some d => d.held
  | none => [])
def State.inDirect (s : State) : List NetItem := s.chips.flatMap (fun e => match e.2.drift with
  | some d => d.direct
  | none => [])

/-- A request whose result is awaited, not carried: a load, an atomic, a group request other than BWAIT (R239 step 3). -/
def NetBody.wanted : NetBody → Bool
  | .grp r => r.kind != 6 && NetBody.asks (.grp r)
  | b => b.asks

/-- A tile has quiesced (R239): its stores are performed, its outgoing traffic is acknowledged, results are delivered but for
what is carried and the accesses held behind it, and no matrix command is in the array. -/
def State.quiesced (s : State) (t : Nat) : Bool :=
  let v := s.tile t
  v.sbuf.isEmpty && v.worker.flights.all (fun f => f.driftCarried || s.holdsOn (.worker t) f) &&
    v.feeder.flights.all (fun f => f.driftCarried || s.holdsOn (.feeder t) f) &&
    !s.net.any (fun i => i.src == t) && !s.inDirect.any (fun i => i.src == t) &&
    !s.inHeld.any (fun i => i.src == t && i.body.wanted) && !v.mq.any (·.running) && v.quiet

/-- QUIESCE_COMPLETE (R239): the image starts to stream. -/
def execQuiesceComplete (chip : Nat) (s : State) : Host.Outcome State Fault Refusal :=
  atDrift chip (fun s d =>
    if d.phase = .quiesce ∧ s.quiesced d.tile then
      let s := (s.modTile d.tile VTile.suspend).setPtile d.old { s.ptile d.old with st := .copying }
      s.setDrift chip (some { d with phase := .copy })
    else s) s

/-- What does not move with a tile (R240): L1, instruction cache, TLB, watches; the units that HFREE has freed are scrubbed at the old
tile, and those of the landing tile are zero already (05 R116). -/
def VTile.forget (v : VTile) : VTile :=
  { v with l1 := [], icache := [], tlb := [], scrub := [0, 0, 0], worker := { v.worker with watches := [] },
           feeder := { v.feeder with watches := [] } }

/-- IMAGE_COMPLETE (R240): the column's new entry is broadcast. -/
def execImageComplete (chip : Nat) (s : State) : Host.Outcome State Fault Refusal :=
  atDrift chip (fun s d =>
    if d.phase = .copy then
      let s := (s.modTile d.tile VTile.forget).setPtile d.old { s.ptile d.old with st := .remapping }
      (s.setRow chip d.col d.vr (d.new % 272 / 16)).setDrift chip (some { d with phase := .remap })
    else s) s

/-- Every router has acknowledged the entry. -/
def Drift.allApplied (d : Drift) : Bool := d.applied.contains nRouters || decide (nRouters ≤ d.applied.length)

/-- ROUTER_APPLY_ENTRY (R241): the router acknowledges, and resends to the landing tile what the old router holds of it. -/
def execRouterApplyEntry (chip router : Nat) (s : State) : Host.Outcome State Fault Refusal :=
  atDrift chip (fun s d =>
    if d.phase ≠ .remap ∨ d.knows router ∨ nRouters < router then s
    else
      let again := d.held.filter (fun i => !d.knows (s.routerOf i.src) && (router == nRouters || s.routerOf i.src == router))
      s.setDrift chip (some { d with applied := setIns d.applied router,
                                     direct := (d.direct ++ again).take 64 })) s

/-- The old tile of a drift whose forwarding has ended: hot ones cool, others are tested (R236); a cast-off follows the drift that
went ahead of it (R246). -/
def State.leaveTile (s : State) (d : Drift) : State :=
  if d.kind = 3 then s.castNow d.old d.reason
  else s.setPtile d.old { s.ptile d.old with st := if d.kind = 1 then .cooling else .testing, testDue := true, power := .busy }

/-- A drift whose landing tile runs, and whose traffic takes one way again, is over. -/
def State.driftOver (s : State) (h : Nat) : State :=
  match (s.chip h).drift with
  | some d => if d.resumed ∧ d.endSent ∧ d.direct.isEmpty then s.setDrift h none else s
  | none => s

/-- FORWARDING_END (R241): the old tile leaves REMAPPING. -/
def execForwardingEnd (chip : Nat) (s : State) : Host.Outcome State Fault Refusal :=
  atDrift chip (fun s d =>
    if d.phase = .remap ∧ d.allApplied ∧ d.held.isEmpty ∧ !d.endSent then
      ((s.setDrift chip (some { d with endSent := true })).leaveTile d).driftOver chip
    else s) s

/-- An item may be applied at the landing tile: one other than a message follows the messages of its channel (07 R144), and one that
touches a handle what the tile's engines and waiting loads do there before it (07 R136). -/
def State.landReady (s : State) (x : NetItem) : Bool :=
  (x.body.isMsg || !(s.tile x.dst).msgAhead x.src x.cls) && !s.itemHeld x

/-- Applying an item at the landing tile unless it has been applied. -/
def State.landItem (s : State) (x : NetItem) : State := if (s.tile x.dst).seen x then s else s.applyItem x

/-- FORWARDED_ARRIVAL (R241): the oldest forwarded item; after the forwarding end the oldest that arrived directly. -/
def execForwardedArrival (chip : Nat) (s : State) : Host.Outcome State Fault Refusal :=
  atDrift chip (fun s d =>
    if d.phase ≠ .remap then s
    else match d.held with
      | x :: r => if s.landReady x then (s.setDrift chip (some { d with held := r })).landItem x else s
      | [] =>
        match d.endSent, d.direct with
        | true, x :: r =>
          if s.landReady x then ((s.setDrift chip (some { d with direct := r })).landItem x).driftOver chip else s
        | _, _ => s) s

/-- DRIFT_RESUME (R242): the remap is acknowledged: the landing tile serves; its cores enter their saved blocks and its transfers
go on. -/
def State.driftResume (s : State) (h : Nat) (d : Drift) (cycles : Nat) : State :=
  if d.phase ≠ .remap ∨ !d.allApplied ∨ d.resumed ∨ (s.ptile d.new).power ≠ .busy then s
  else
    let s := (s.setDrift h (some { d with resumed := true })).modTile d.tile (fun v => v.unsuspend.resume)
    let s := (s.setPtile d.new { s.ptile d.new with st := .serving, reserved := false }).driftOver h
    if 16000 < cycles then
      s.logSys 0x0028 2 0 (detail [(346, h), (341, d.new % 272 / 16), (337, d.col), (305, cycles % 2 ^ 32)])
    else s

/-- DRIFT_RESUME (R242). -/
def execDriftResume (chip cycles : Nat) (s : State) : Host.Outcome State Fault Refusal :=
  atDrift chip (fun s d => s.driftResume chip d cycles) s

/-! ### Cast-off (R246) -/

/-- A cast-off that cannot be made yet: the controller comes back to it. -/
def State.castLater (s : State) (p reason : Nat) : State := s.setPtile p { s.ptile p with retire := reason }

/-- CAST_OFF: at once out of service; a landing tile after its drift is given up, or serves; a serving tile is drifted first, or,
with a cast-off tile in its column already, its context is stopped and saved first. -/
def State.castOff (s : State) (p reason : Nat) : State :=
  let x := s.ptile p
  let h := p / 272
  match x.st with
  | .spare =>
    if !x.reserved then s.castNow p reason
    else match (s.chip h).drift with
      | some d => if d.new = p ∧ d.phase ≠ .remap then (s.driftAbandon h d).castNow p reason else s.castLater p reason
      | none => s.castNow p reason
  | .testing => s.castNow p reason
  | .cooling => s.castNow p reason
  | .castOff => s
  | .serving =>
    if (colTiles h (p % 16)).any s.isCast then
      match s.servesRow p with
      | none => s.castNow p reason
      | some vr =>
        (match (s.tile (virtTile h vr (p % 16))).ctx with
          | none => s.castNow p reason
          | some n => if x.castDue = 0 then (s.setPtile p { x with castDue := reason, retire := 0 }).stopOwn n else s)
    else (s.driftOrder p 3 reason).getD (s.castLater p reason)
  | _ => s.castLater p reason

/-- CAST_OFF (R246): a reason of R247. -/
def execCastOff (p reason : Nat) (s : State) : Host.Outcome State Fault Refusal :=
  atPhys p (fun s => if reason = 0 ∨ 8 < reason then s else s.castOff p reason) s

/-- A drift whose remap is acknowledged ends at once, for another change of its column. -/
def State.driftFinish (s : State) (h : Nat) (d : Drift) : State :=
  let s := (s.setDrift h none).returnHeld d
  let s := if d.resumed then s
    else (s.modTile d.tile (fun v => v.unsuspend.resume)).setPtile d.new { s.ptile d.new with st := .serving, reserved := false }
  if d.endSent then s else s.leaveTile d

/-- A failed tile leaves its column: the column's spare, whatever it was doing, takes its virtual row (01 R24); with no spare the
row has none. A drift of the column is given up, or ended; an unacknowledged change of the column comes first (01 R23). -/
def State.failRow (s : State) (p : Nat) : State :=
  let h := p / 272
  let c := p % 16
  let go (s : State) : State :=
    match s.servesRow p, s.spareOf h c with
    | some vr, some q =>
      ((s.setRow h c vr (q % 272 / 16)).setPtile q { s.ptile q with st := .serving, reserved := false }).castNow p (Config.hardReason % 16)
    | _, _ => s.castNow p (Config.hardReason % 16)
  match (s.chip h).drift with
  | some d =>
    if d.col ≠ c then go s
    else if d.phase ≠ .remap then go (s.driftAbandon h d)
    else if d.allApplied then go (s.driftFinish h d)
    else s.modChip h (fun y => { y with failWait := setIns y.failWait p })
  | none => go s

/-- TILE_HARD_FAILURE (16 R251): the tile is cast off, its virtual row goes to the column's spare if there is one, and the
owning context rolls back. A tile that serves no row is cast off (R252). -/
def State.hardFail (s : State) (p : Nat) : State :=
  if (s.ptile p).st = .castOff then s
  else
    let s := match (s.servesRow p).bind (fun vr => (s.tile (virtTile (p / 272) vr (p % 16))).ctx) with
      | some n => s.reportFault n
      | none => s
    s.failRow p

/-- A tile that the controller is to retire, whose failure waited for its column, or whose context is gone before it was saved (16
R263; 01 R23; 15 R246). -/
def State.retire (s : State) (p : Nat) : State :=
  let h := p / 272
  if (s.chip h).failWait.contains p then (s.modChip h (fun y => { y with failWait := setDel y.failWait p })).failRow p
  else if (s.ptile p).castDue ≠ 0 ∧ ((s.servesRow p).bind (fun vr => (s.tile (virtTile h vr (p % 16))).ctx)).isNone then
    s.castNow p (s.ptile p).castDue
  else if (s.ptile p).retire = 0 then s
  else s.castOff p (s.ptile p).retire

/-- TILE_HARD_FAILURE (16 R251). -/
def execTileHardFailure (p : Nat) (s : State) : Host.Outcome State Fault Refusal := atPhys p (·.hardFail p) s

/-! ### Test packages (16 R264) -/

/-- Bits of the 128-byte header. -/
def hdrField (l : List Byte) (lo n : Nat) : Nat := leNat (l.take 128) / 2 ^ lo % 2 ^ n

/-- A signed image: header and body, then key and signature, verified against the digest. -/
def signedOk (l : List Byte) (body : Nat) : Bool :=
  l.length == 128 + body + 2592 + 4627 &&
    Config.mldsaVerify ((l.drop (128 + body)).take 2592) (Config.sha3 (l.take (128 + body))) (l.drop (128 + body + 2592))

/-- The key of a signed image, as a digest. -/
def signedKey (l : List Byte) (body : Nat) : BitVec 512 := Config.sha3 ((l.drop (128 + body)).take 2592)

/-- A package that the controllers accept. -/
def State.pkgOk (s : State) (l : List Byte) : Bool :=
  let body := hdrField l 928 32
  hdrField l 992 32 == 0x6b767374 && body % 64 == 0 && hdrField l 512 384 == 0 && Config.testKeyHash.contains (signedKey l body) &&
    signedOk l body && (match s.pkg with
      | some k => decide (k.version ≤ hdrField l 960 32)
      | none => true)

/-- A test is due at every tile out of service; an unreserved spare starts it. -/
def State.testAll (s : State) : State :=
  ((rangeFrom 0 64).flatMap (fun h => (rangeFrom 0 16).map (fun c => (h, c)))).foldl (fun s e =>
    match s.spareOf e.1 e.2 with
    | some q => (s.setPtile q { s.ptile q with testDue := true }).testIf q
    | none => s) s

/-- TEST_PACKAGE_INSTALL (R264). -/
def execTestPackageInstall (image : List (BitVec 8)) (s : State) : Host.Outcome State Fault Refusal :=
  .next (if s.pkgOk image then
      let newer := match s.pkg with
        | some k => decide (k.version < hdrField image 960 32)
        | none => true
      let s := { s with pkg := some ⟨hdrField image 960 32, hdrField image 896 32, BitVec.ofNat 512 (hdrField image 0 512)⟩ }
      if newer then s.testAll else s
    else s)

/-- TEST_COMPLETE (R264): the response is judged against the installed package. -/
def execTestComplete (p : Nat) (response : List (BitVec 8)) (cycles : Nat) (s : State) : Host.Outcome State Fault Refusal :=
  atPhys p (fun s =>
    let x := s.ptile p
    match x.st, s.pkg with
    | .testing, some k =>
      if x.power ≠ .busy then s
      else if Config.sha3 response = k.respdig ∧ cycles ≤ k.cycles then s.setPtile p { x with st := .spare, testDue := false }
      else s.castNow p 1
    | _, _ => s) s

/-! ### Routing tables (R249, R250) -/

/-- A route from a router reaches its destination column through live routers and over no FENCED edge, west-first. `turned`: it has made a hop that
is not westward. -/
def State.routeOk (s : State) (d : Nat) : Nat → Nat → Bool → Bool
  | 0, _, _ => false
  | n + 1, p, turned =>
    let r := s.route p d
    if s.routerDead p || 4 < r then false
    else if r = 0 then decide ((routerPos p).1 = d % 128 ∧ (routerPos p).2 / 17 = d / 128)
    else if r = 4 ∧ turned then false
    else match stepDir p r with
      | some q => (match linkBetween p q with
          | some l => (s.link l).st != .fenced
          | none => true) && State.routeOk s d n q (turned || r != 4)
      | none => false

/-- A neighbour sends a destination here by a hop that is not westward, and this router sends it west. -/
def State.badTurn (s : State) (p d : Nat) : Bool :=
  s.route p d == 4 && [1, 2, 3].any (fun dir =>
    match stepDir p ([0, 3, 4, 1, 2].getD dir 0) with
    | some q => s.route q d == dir
    | none => false)

/-- A table that R249 accepts for a router. -/
def State.tableOk (s : State) (p : Nat) (tab : List Nat) : Bool :=
  let s' := s.setPtile p { s.ptile p with table := some tab }
  tab.length == 1024 && tab.all (· ≤ 4) && (rangeFrom 0 1024).all (fun d => s'.routeOk d nHops p false && !s'.badTurn p d)

/-- A packet that a router has sent toward a destination whose entry changes is not acknowledged yet, or a drift runs in its
chiplet. -/
def State.routerBusy (s : State) (p : Nat) (tab : List Nat) : Bool :=
  (s.chip (p / 272)).drift.isSome ||
    s.traffic.any (fun i => !i.parked && (let d := destCol i.dst
                                          s.route p d != tab.getD d 15 && s.passes d p (s.routerOf i.src)))

/-- What routers hold goes on, in its order, where its way is open now. -/
def State.unpark (s : State) : State :=
  s.net.foldl (fun (t : State) i =>
    let r := if i.parked then t.onward i else (t, i)
    { r.1 with net := r.1.net ++ [r.2] }) { s with net := [] }

/-- The oldest table that waits is switched to, once its router is free, and the held traffic is released (R250); one that R249 refuses by then leaves the old one. -/
def State.reroute (s : State) : State :=
  match s.rewrites with
  | [] => s
  | (p, tab) :: r =>
    if s.routerBusy p tab then s
    else
      let s := { s with rewrites := r }
      (if s.tableOk p tab then s.setPtile p { s.ptile p with table := some tab } else s).unpark

/-- ROUTING_REWRITE: a table that R249 refuses leaves the old one; an accepted one is switched to when the router's own packets
are acknowledged. -/
def State.rewrite (s : State) (p : Nat) (tab : List Nat) : State :=
  if s.tableOk p tab then { s with rewrites := s.rewrites ++ [(p, tab)] }.reroute else s

/-- A router goes out of service: its RDEAD bit is set (R247), and it forwards nothing; what would pass it is held where it stands
(R248). -/
def State.deadRouter (s : State) (p : Nat) : State :=
  let s := s.modChip (p / 272) (fun h => { h with defect := { h.defect with rdead := h.defect.rdead ||| ((1 : BitVec 272) <<< (p % 272)) } })
  { s with net := s.net.map (fun i =>
      if i.flit.isNone && s.deadWay (destCol i.dst) i.hop then { i with parked := true } else i) }

/-- ROUTING_REWRITE (R250). -/
def execRoutingRewrite (p : Nat) (tab : List Nat) (s : State) : Host.Outcome State Fault Refusal := atPhys p (·.rewrite p tab) s

/-! ### Retention and scrubbing (16 R253, R254) -/

/-- The virtual tile behind a physical one. -/
def State.virtOf (s : State) (p : Nat) : Option Nat := (s.servesRow p).map (fun vr => virtTile (p / 272) vr (p % 16))

/-- RETENTION_ENTRY (R254): the bank re-encodes; none of a tile with a footprint in its scoreboard does (log 59). -/
def execRetentionEntry (p bank : Nat) (s : State) : Host.Outcome State Fault Refusal :=
  atPhys p (fun s =>
    if (match s.virtOf p with
      | some t => (s.tile t).feet.isEmpty
      | none => true) then s.setPtile p { s.ptile p with retention := setIns (s.ptile p).retention bank }
    else s) s

/-- Corrections add to the tile's counter (R262). -/
def PTile.corrected (x : PTile) (n : Nat) : PTile := { x with errs := (x.errs + n) % 2 ^ 32 }

/-- RETENTION_EXIT (R254): the bank leaves the mode, with some words corrected. -/
def execRetentionExit (p bank corrected : Nat) (s : State) : Host.Outcome State Fault Refusal :=
  atPhys p (fun s =>
    let x := s.ptile p
    if x.retention.contains bank then s.setPtile p ({ x with retention := setDel x.retention bank }.corrected corrected)
    else s) s

/-- PATROL_SCRUB (R253). -/
def execPatrolScrub (p corrected : Nat) (s : State) : Host.Outcome State Fault Refusal :=
  atPhys p (fun s => s.setPtile p ((s.ptile p).corrected corrected)) s

end Sys2Proof.Machine
end

