-- ==== Sys2Proof/Machine/EvRecovery.lean ====
section
/-! DEFINITION. Events of recovery (16 R265-R275): the marker wave, the cut, sealing and merging of a point, rollback, and the
reading of logs.

The points of a context stand highest first; the first is the one whose cut has not been taken. A point that is abandoned
leaves the list, since its number is used again. An event that is not due leaves the state as it is. -/

namespace Sys2Proof.Machine

/-! ### The marker wave (R265, R266) -/

/-- The point before the first is still being copied. -/
def Ctx.copying (x : Ctx) : Bool := x.points.any (fun p => p.st == .copying)

/-- The wave of a RUNNING context starts; it is a wake cause of every tile (18 R294). -/
def State.waveStart (s : State) (n : Nat) : State :=
  let x := s.ctx n
  match x.points with
  | p :: r =>
    if x.st ≠ .running ∨ x.fault ∨ x.stopOpen ∨ p.st ≠ .pending ∨ x.copying then s
    else (ctxTiles x).foldl State.wake (s.setCtx n { x with points := { p with st := .cutting } :: r, waveRetry := false })
  | [] => s

/-- The interval of a context's points in nanoseconds: RPINT milliseconds, or 20 (R266). -/
def Ctx.waveEvery (x : Ctx) : Nat := (if x.rpint = 0 then 20 else x.rpint) * 1000000

/-- RECOVERY_INTERVAL_EXPIRY (R266): the interval has passed since the last resume, or an undo log asks for an early seal. -/
def execRecoveryIntervalExpiry (ctx : Nat) (s : State) : Host.Outcome State Fault Refusal :=
  atCtx ctx (fun s =>
    let x := s.ctx ctx
    if !x.waveRetry ∧ (x.early ∨ x.resumed + x.waveEvery ≤ s.time) then s.waveStart ctx else s) s

/-- WAVE_WINDOW_EXPIRY: some core has not paused: the paused ones go on, and the wave is due again later; drifts and stops that
waited for it begin (15 R244). -/
def State.waveExpire (s : State) (n : Nat) : State :=
  let x := s.ctx n
  match x.points with
  | p :: r =>
    if p.st = .cutting ∧ !s.allQuiet x then
      let s := s.setCtx n { x with points := { p with st := .pending } :: r, waveRetry := true }
      ((s.resumeAll x).driftsGo (ctxChips x)).settle n
    else s
  | [] => s

/-- WAVE_WINDOW_EXPIRY (R265). -/
def execWaveWindowExpiry (ctx : Nat) (s : State) : Host.Outcome State Fault Refusal := atCtx ctx (·.waveExpire ctx) s

/-- WAVE_RETRY (R265). -/
def execWaveRetry (ctx : Nat) (s : State) : Host.Outcome State Fault Refusal :=
  atCtx ctx (fun s => if (s.ctx ctx).waveRetry then s.waveStart ctx else s) s

/-- SEALLATE (R266): the wave has been abandoned for 20 ms; it keeps being retried. -/
def execSeallate (ctx : Nat) (s : State) : Host.Outcome State Fault Refusal :=
  atCtx ctx (fun s =>
    if (s.ctx ctx).waveRetry then s.logSys 0x0021 2 ctx (detail [(320, (s.ctx ctx).epoch % 2 ^ 32)]) else s) s

/-! ### The cut (R267, R268) -/

/-- Dirty bits move to copy bits. -/
def Handle.cutBits (h : Handle) : Handle := { h with copy := h.dirty, dirty := [] }

/-- The image of a tile in a recovery point: nothing of it is dirty. -/
def VTile.cutImage (v : VTile) : VTile :=
  { v.toImage with handles := mmapv (fun (h : Handle) => { h with dirty := [], copy := [] }) v.handles }

/-- A packet that is still to be placed again counts as fetched in an epoch. -/
def PktLog.at' (p : PktLog) (e : Nat) : PktLog := { p with point := e }

/-- CUT: every tile has paused and quiesced: images and kernels are recorded, the epoch of undo logs and gates advances, the
cores go on; drifts and stops that waited for the wave begin (R267; 15 R244). -/
def State.cutPoint (s : State) (n : Nat) : State :=
  let x := s.ctx n
  let ts := ctxTiles x
  match x.points with
  | p :: r =>
    if p.st ≠ .cutting ∨ x.fault ∨
        !ts.all (fun t => s.quiesced t && (s.driftOf t).isNone && !s.traffic.any (fun i => i.src == t)) then s
    else
      let e := p.num + 1
      let cut : RPoint := { p with st := .copying, cut := s.time, image := ts.map (fun t => (t, (s.tile t).cutImage)),
                                   kernels := s.kernels.filter (fun k => k.2.ctx == n) }
      let y : Ctx := { x with points := ⟨e, .pending, 0, [], [], none⟩ :: cut :: r, resumed := s.time, early := false,
                              pktLog := x.pktLog.map (fun p => if x.again.contains p then p.at' e else p),
                              again := x.again.map (·.at' e) }
      let s := ts.foldl (fun s t => s.modTile t (fun v => { v with handles := mmapv Handle.cutBits v.handles })) s
      ((((s.setCtx n y).resumeAll y).driftsGo (ctxChips x)).settle n)
  | [] => s

/-- CUT (R267). -/
def execCut (ctx : Nat) (s : State) : Host.Outcome State Fault Refusal := atCtx ctx (·.cutPoint ctx) s

/-! ### Sealing and merging (R265, R269) -/

/-- The chiplets whose gate holds a store that a point releases. -/
def State.sealedGates (s : State) (n : Nat) : List Nat :=
  (rangeFrom 0 64).filter (fun h => (s.chip h).gate.any (fun g => g.ctx == n && (s.ctx n).pointSealed g.tag))

/-- SEAL, of a RUNNING context (08 R159): the deltas, the undo records and then the seal record with its digest are written; gated
stores of the point are releasable, which
the active system cores are told. -/
def State.sealPt (s : State) (n : Nat) : State :=
  let x := s.ctx n
  if !x.copying ∨ x.fault ∨ x.st ≠ .running then s
  else
    let s := s.setCtx n { x with points := x.points.map (fun p =>
      if p.st = .copying then { p with st := .sealed, digest := some (Config.sha3 (Config.deltaBytes p.image)) } else p) }
    let s : State := (ctxTiles x).foldl (fun s t =>
      s.modTile t (fun v => { v with handles := mmapv (fun (h : Handle) => { h with copy := [] }) v.handles })) s
    (s.sealedGates n).foldl State.raiseQE s

/-- SEAL (R269). -/
def execSealPoint (ctx : Nat) (s : State) : Host.Outcome State Fault Refusal := atCtx ctx (·.sealPt ctx) s

/-- DELTA_MERGE: the lowest sealed point becomes the base; what lies before it is freed. -/
def State.mergePt (s : State) (n : Nat) : State :=
  let x := s.ctx n
  match x.points.reverse.find? (fun p => p.st == .sealed) with
  | none => s
  | some m =>
    let pts := (x.points.filter (fun p => m.num ≤ p.num)).map (fun p => if p.num = m.num then { p with st := .merged } else p)
    let s := s.setCtx n { x with points := pts, pktLog := x.pktLog.filter (fun p => m.num < p.point) }
    { s with chips := mmapv (fun (h : Chip) =>
        { h with undo := h.undo.filter (fun u => u.ctx != n || decide (m.num < u.epoch)) }) s.chips }

/-- DELTA_MERGE (R265). -/
def execDeltaMerge (ctx : Nat) (s : State) : Host.Outcome State Fault Refusal := atCtx ctx (·.mergePt ctx) s

/-! ### Rollback (R271, R272) -/

/-- Step 1: nothing of the context runs or travels, and the points above p are gone. -/
def State.rbStop (s : State) (n : Nat) (p : RPoint) : State :=
  let x := s.ctx n
  let ts := ctxTiles x
  let s := s.stopTiles x
  let s : State := { s with kicks := s.kicks.filter (fun k => !agentsOf ts k.agent),
                            chips := mmapv (fun (h : Chip) => { h with zeph := h.zeph.filter (fun z => z.ctx != n) }) s.chips }
  s.modCtx n (fun x =>
    { x with fault := false, early := false, waveRetry := false, points := x.points.filter (fun q => q.num ≤ p.num) })

/-- Step 2: the stores held for later points leave the gates unmade. -/
def State.rbGate (s : State) (n p : Nat) : State :=
  { s with chips := mmapv (fun (h : Chip) => { h with gate := h.gate.filter (fun g => g.ctx != n || decide (g.tag ≤ p)) }) s.chips }

/-- The bytes of RIDX of each queue of a context, which its slots have moved on and a rollback leaves alone. -/
def State.ridxBytes (s : State) (n : Nat) : List (Nat × Byte) :=
  (s.queues.filter (fun e => e.2.ctxn == n)).flatMap (fun e =>
    match (s.translate (sysAgent n (s.queueHome e.2)) (BitVec.ofNat 64 (e.2.base + 8)) ⟨true, false, false, false⟩).2 with
    | .ok pa _ => atAddr pa (memReadN s.mem pa 8)
    | _ => [])

/-- Step 3: the undo records of the epochs above p, newest first; the tags of the context are forgotten. -/
def State.rbUndo (s : State) (n p : Nat) : State :=
  let keep := s.ridxBytes n
  let undo := s.chips.flatMap (fun h => h.2.undo.filter (fun u => u.ctx == n && decide (p < u.epoch)))
  let m := undo.foldl (fun m u => memWriteN m (256 * u.line) u.old) s.mem
  let s : State := { s with mem := memWriteL m keep,
                            chips := mmapv (fun (h : Chip) =>
                              { h with undo := h.undo.filter (fun u => u.ctx != n || decide (u.epoch ≤ p)) }) s.chips }
  s.clearTags (ctxTiles (s.ctx n))

/-- Step 4: every tile from its image; the windows of the images are pinned again. -/
def State.rbTiles (s : State) (n : Nat) (p : RPoint) (paused : Bool) : State :=
  let s := s.unpin (winPins ((ctxTiles (s.ctx n)).map s.tile))
  let s := p.image.foldl (fun s e => s.setTile e.1 (if paused then e.2.unsuspend else e.2.fromImage)) s
  s.pin (winPins (p.image.map (·.2)))

/-- A kernel of the cut whose store had not entered the gate is as it was; one further on is as it is. -/
def Kernel.later (k : Kernel) : Bool := k.st == .gated || k.st == .complete

/-- The kernels of the context as of the cut. -/
def State.rbKernels (s : State) (n : Nat) (p : RPoint) : State :=
  let keep (e : Nat × Kernel) : Bool := e.2.ctx != n || p.kernels.any (fun k => k.1 == e.1 && k.2.later)
  let back := p.kernels.filter (fun e => !e.2.later)
  { s with kernels := back.foldl (fun m e => mput m e.1 e.2) (s.kernels.filter keep) }

/-- Step 5: the packets fetched since the cut are placed again, then each slot fetches from RIDX. -/
def State.rbQueues (s : State) (n p : Nat) : State :=
  let later (l : List PktLog) : List PktLog := (l.filter (fun k => p < k.point)).map (·.at' (p + 1))
  let s := s.modCtx n (fun x => { x with pktLog := x.pktLog.filter (fun k => k.point ≤ p) ++ later x.pktLog, again := later x.pktLog })
  (s.queues.filter (fun e => e.2.ctxn == n && e.2.en)).foldl (fun s e =>
    match s.slotFor e.1 with
    | some (chip, m, x) => if x.st = .idle then s.modSlot chip m (fun x => { x with st := .active }) else s
    | none => s.setPkb (s.queueHome e.2) e.1) s

/-- Step 6: the context runs again from p, or pauses again if it was being debugged; a stop for a save is retried. -/
def State.rbResume (s : State) (n : Nat) (p : RPoint) : State :=
  let x := s.ctx n
  let saving := x.st == .stopping || x.st == .saving
  let s := s.setCtx n { x with st := if saving then .running else x.st, stopFor := if saving then some true else x.stopFor,
                               stopRetry := saving || x.stopRetry, resumed := s.time,
                               points := ⟨p.num + 1, .pending, 0, [], [], none⟩ :: x.points }
  let d := detail [(320, p.num % 2 ^ 32), (256, p.cut % 2 ^ 64)]
  (s.logCtx n 0x000c 0 2 d 0).logSys 0x000c 2 n d

/-- A drift of a tile of the context that has not reached its remap is given up. -/
def State.rbDrifts (s : State) (ts : List Nat) : State :=
  ts.foldl (fun s t => match s.driftOf t with
    | some d => s.driftAbandon (chipOf t) d
    | none => s) s

/-- ROLLBACK: a reported fault restores the context to its last sealed or merged point. It waits for a drift of the partition
that is in its remap, and for a failed tile that waits for its column. Undo log or images that cannot be read put the context in
FAILED (R251, R271). -/
def State.rollback (s : State) (n : Nat) : State :=
  let x := s.ctx n
  let ts := ctxTiles x
  let remap (t : Nat) : Bool := match s.driftOf t with
    | some d => d.phase == .remap
    | none => false
  if !x.fault ∨ x.st = .failed ∨ x.st = .destroyed ∨ x.st = .saved ∨ ts.any remap ∨ (ctxChips x).any (fun h => !(s.chip h).failWait.isEmpty) then s
  else match x.points.find? (fun p => p.st == .sealed || p.st == .merged) with
    | none => (((s.modCtx n (fun x => { x with fault := false })).failCtx n 3).driftsGo (ctxChips x)).settle n
    | some p =>
      -- orders that waited for a wave are made or given up when it has ended (15 R244)
      let s := (((s.rbDrifts ts).rbStop n p).rbGate n p.num)
      let released := match x.immEpoch with
        | some e => decide (p.num < e)
        | none => false
      if released then ((s.failCtx n 4).driftsGo (ctxChips x)).settle n
      else
        let s := s.rbUndo n p.num
        if x.lostPoints ∨ ts.any (fun t => (s.physOf t).isNone) then ((s.failCtx n 3).driftsGo (ctxChips x)).settle n
        else (((((s.rbTiles n p (x.st == .debugging)).rbKernels n p).rbQueues n p.num).rbResume n p).driftsGo (ctxChips x)).settle n

/-- ROLLBACK (R271). -/
def execRollback (ctx : Nat) (s : State) : Host.Outcome State Fault Refusal := atCtx ctx (·.rollback ctx) s

/-! ### Logs (R273, R274) -/

/-- A record as its 64 bytes. -/
def LogRec.bits (r : LogRec) : BitVec 512 :=
  BitVec.ofNat 512 (r.kind % 2 ^ 16 * 2 ^ 496 + r.count % 2 ^ 16 * 2 ^ 480 + r.seq.toNat * 2 ^ 448 + r.time % 2 ^ 64 * 2 ^ 384 +
    r.vtile.toNat * 2 ^ 368 + r.core % 2 ^ 8 * 2 ^ 360 + r.ctxn % 2 ^ 8 * 2 ^ 352 + r.detail.toNat * 2 ^ 128 + r.trap.toNat)

/-- Its eight words, lowest first. -/
def LogRec.words (r : LogRec) : List W64 := (rangeFrom 0 8).map (fun i => (r.bits >>> (64 * i)).setWidth 64)

/-- The unread records of a log, oldest first. -/
def Log.unread (l : Log) : List LogRec := (l.recs.take (l.widx - l.ridx)).reverse

/-- Reading n records: the header WIDX, LOST, RIDX, then the records; RIDX moves past them. -/
def Log.read (l : Log) (n : Nat) : Log × List W64 :=
  let rs := l.unread.take n
  ({ l with ridx := l.ridx + rs.length, dirty := true },
   BitVec.ofNat 64 l.widx :: BitVec.ofNat 64 l.lost :: BitVec.ofNat 64 l.ridx :: rs.flatMap LogRec.words)

/-- The records of a log at their places in a ring of 16,383 at an address, each whole, then the header. -/
def Log.bytes (l : Log) (a : Nat) : List (Nat × Byte) :=
  (l.recs.take 16383).zipIdx.flatMap (fun e => atAddr (a + 64 + 64 * ((l.widx - 1 - e.2) % 16383)) (natBytes 64 e.1.bits.toNat)) ++
    atAddr a (natBytes 8 l.widx ++ natBytes 8 l.lost ++ natBytes 8 l.ridx)

/-- A context's log is written to its ring at ELOG; the event that makes a record and the write of the record are two steps of the
model (log 39). -/
def State.logOut (s : State) (n : Nat) : State :=
  if (s.ctx n).log.dirty then
    { s.modCtx n (fun x => { x with log := { x.log with dirty := false } }) with
      mem := memWriteL s.mem ((s.ctx n).log.bytes (s.ctx n).elog) }
  else s

/-- LOG_READ (R273): log 0-255 is a context's error log, 256 the system event log. -/
def execLogRead (log n : Nat) (s : State) : Host.Outcome State Fault Refusal :=
  atUnit log 257 (fun s =>
    if log = 256 then
      let r := s.sysLog.read n
      { s with sysLog := r.1, reply := r.2 }
    else
      let r := (s.ctx log).log.read n
      { s.modCtx log (fun x => { x with log := r.1 }) with reply := r.2 }) s

end Sys2Proof.Machine
end

