-- ==== Sys2Proof/Machine/EvLink.lean ====
section
/-! DEFINITION. Events of links (17 R276-R280), peer connections (17 R282-R284; 09 R179) and host ports (07 R148; 17 R281).

Link numbers (log 15): 4 x chiplet + side for the die-to-die link that leaves a chiplet to the north 0, east 1, south 2, west 3;
256 + port for a host port; 260 + port for a scale-up port. An event that is not due leaves the state as it is. -/

namespace Sys2Proof.Machine

/-! ### Link states (R277, R278) -/

/-- Number of links. -/
def nLinks : Nat := 324

/-- The chiplet on the other side of a die-to-die link; none for an I/O chiplet. -/
def acrossOf (l : Nat) : Option Nat :=
  let a := l / 4
  match l % 4 with
  | 0 => if a < 8 then none else some (a - 8)
  | 1 => if a % 8 = 7 then none else some (a + 1)
  | 2 => if 56 ≤ a then none else some (a + 8)
  | _ => if a % 8 = 0 then none else some (a - 1)

/-- The two directions of a link: a die-to-die edge is one link for both chiplets. -/
def linkEnds (l : Nat) : List Nat :=
  if 256 ≤ l then [l]
  else match acrossOf l with
    | some b => [l, 4 * b + (l % 4 + 2) % 4]
    | none => [l]

/-- A new state and width of both directions; what is not acknowledged is sent again (R279). -/
def State.linkSt (s : State) (l : Nat) (st : LinkSt) (lanes : Nat) : State :=
  (linkEnds l).foldl (fun s k =>
    s.setLink k { s.link k with st := st, lanes := lanes, since := s.time, wire := (s.link k).acked }) s

/-- What a trained width makes of a link (R278). Of a die-to-die link the width counts modules: those at 64 lanes, and 32 times
those at 32 lanes; of the others lanes. -/
def trainedAs (l lanes : Nat) : LinkSt × Nat :=
  if l < 256 then
    if lanes = 16 then (.up, 16)
    else if 8 ≤ lanes % 32 + lanes / 32 ∧ lanes % 32 + lanes / 32 ≤ 16 then (.degraded, lanes) else (.fenced, 0)
  else if l < 260 then
    if 16 ≤ lanes then (.up, 16) else if 8 ≤ lanes then (.degraded, 8) else if 4 ≤ lanes then (.degraded, 4) else (.fenced, 0)
  else if 8 ≤ lanes then (.up, 8) else if 4 ≤ lanes then (.degraded, 4) else (.fenced, 0)

/-- A die-to-die link may carry routes. -/
def State.edgeOpen (s : State) (chip side : Nat) : Bool := (s.link (4 * chip + side)).st != .fenced

/-- Chiplet rows of one chiplet column that routes reach by hops to the north and south. -/
def State.spreadRows (s : State) (cx : Nat) : Nat → List Nat → List Nat
  | 0, rows => rows
  | n + 1, rows =>
    State.spreadRows s cx n ((rangeFrom 0 8).filter (fun y => rows.contains y ||
      (decide (0 < y) && rows.contains (y - 1) && s.edgeOpen (8 * (y - 1) + cx) 2) ||
      (rows.contains (y + 1) && s.edgeOpen (8 * (y + 1) + cx) 0)))

/-- Chiplet rows reached in a column k columns further east. -/
def State.eastRows (s : State) (cx : Nat) (rows : List Nat) : Nat → List Nat
  | 0 => s.spreadRows cx 8 rows
  | k + 1 => State.eastRows s (cx + 1) ((s.spreadRows cx 8 rows).filter (fun y => s.edgeOpen (8 * y + cx) 1)) k

/-- A west-first route leads from one chiplet to another: westward hops in the first row, then none. -/
def State.westFirst (s : State) (a b : Nat) : Bool :=
  (rangeFrom 0 (min (a % 8) (b % 8) + 1)).any (fun x0 =>
    (rangeFrom (x0 + 1) (a % 8 - x0)).all (fun x => s.edgeOpen (8 * (a / 8) + x) 3) &&
      (s.eastRows x0 [a / 8] (b % 8 - x0)).contains (b / 8))

/-- The FENCED die-to-die edges, as each of their chiplets numbers them, and the routers with RDEAD set. -/
def State.closedEdges (s : State) : List Nat := (rangeFrom 0 256).filter (fun l => (s.link l).st == .fenced)
def State.deadRouters (s : State) : List Nat :=
  s.chips.flatMap (fun h => ((rangeFrom 0 272).filter (h.2.defect.rdead.getLsbD ·)).map (272 * h.1 + ·))

/-- Some routing table around the FENCED edges meets R249. -/
def State.tableExists (s : State) : Bool :=
  if s.deadRouters.isEmpty then (rangeFrom 0 64).all (fun a => (rangeFrom 0 64).all (fun b => s.westFirst a b))
  else detourGood s.closedEdges s.deadRouters

/-- The router on the near side of a die-to-die link, from that on the far side. -/
def nearSide (l far : Nat) : Nat := (stepDir far ((l % 4 + 2) % 4 + 1)).getD far

/-- An item that the router of a FENCED link holds, or that waits for new tables, goes on from where it stands; the others stay. -/
def State.sendAgain (s : State) (ends : List Nat) (i : NetItem) : State :=
  let again (i : NetItem) : State :=
    let r := s.onward i
    { r.1 with net := r.1.net ++ [r.2] }
  match i.flit with
  | some (k, _) => if ends.contains k then again { i with hop := nearSide k i.hop } else { s with net := s.net ++ [i] }
  | none => if i.parked then again i else { s with net := s.net ++ [i] }

/-- Nothing of a link's numbers is outstanding: its flits have been given to other links. -/
def Link.emptied (x : Link) : Link := { x with rx := x.tx, wire := x.tx, acked := x.tx }

/-- An item between chiplets that no router holds, on the way or at its destination: it is not acknowledged. -/
def State.underWay (s : State) (ends : List Nat) (i : NetItem) : Bool :=
  chipOf i.src != chipOf i.dst && !i.parked && (match i.flit with
    | some (k, _) => !ends.contains k
    | none => true)

/-- No table meets R249: the contexts with a tile on either chiplet of an edge are stopped and saved (R280). -/
def State.fenceStop (s : State) (l : Nat) : State :=
  let chips := l / 4 :: (acrossOf l).toList
  let ns := (s.ctxs.filter (fun e => e.2.resident && (ctxChips e.2).any chips.contains)).map (·.1)
  (ns.foldl State.stopOwn s).logSys 0x0024 2 0 (detail [(336, l)])

/-- The tables of the panel are rewritten around the FENCED edges, once what has been sent is acknowledged and no drift runs (R280; 15
R250); what the routers hold then takes the new routes in order. -/
def State.fenceGo (s : State) : State :=
  let ends := s.fenceDue.flatMap linkEnds
  if s.fenceDue.isEmpty || s.chips.any (fun h => h.2.drift.isSome) || s.traffic.any (s.underWay ends) then s
  else if !s.tableExists then { s.fenceDue.foldl State.fenceStop s with fenceDue := [] }
  else
    let s' := ends.foldl (fun s k => s.setLink k (s.link k).emptied)
      { s with detour := some (s.closedEdges, s.deadRouters), fenceDue := [], net := [],
               phys := mmapv (fun (p : PTile) => { p with table := none }) s.phys }
    s.net.foldl (fun (t : State) i => t.sendAgain ends i) s'

/-- A die-to-die link is FENCED (R280): the tables of the panel are to be rewritten around the FENCED edges, and what both routers hold
takes the new routes in order; where no table meets R249, it waits, and the contexts of either chiplet are stopped for a save. -/
def State.fenceEdge (s : State) (l : Nat) : State :=
  if s.tableExists then { s with fenceDue := setIns s.fenceDue l }.fenceGo else s.fenceStop l

/-- Stores that waited in a host port leave it, if it does not train any more. -/
def State.portFlush (s : State) : State :=
  s.outbox.foldl (fun (s : State) e => s.put e.1 e.2) { s with outbox := [] }

/-- LINK_TRAINED: training or retraining has ended at a width. -/
def State.linkTrained (s : State) (l lanes : Nat) : State :=
  let x := s.link l
  if x.st = .training ∨ x.st = .retraining then
    let r := trainedAs l lanes
    let s := s.linkSt l r.1 r.2
    if r.1 = .fenced ∧ l < 256 then s.fenceEdge l else s.portFlush
  else s

/-- LINK_TRAINED (R277). -/
def execLinkTrained (l lanes : Nat) (s : State) : Host.Outcome State Fault Refusal := atUnit l nLinks (·.linkTrained l lanes) s

/-- LANE_LOST (R277). -/
def execLaneLost (l : Nat) (s : State) : Host.Outcome State Fault Refusal :=
  atUnit l nLinks (fun s => if (s.link l).st = .up ∨ (s.link l).st = .degraded then s.linkSt l .retraining (s.link l).lanes else s) s

/-- RETRAIN_TIMER (R277): a second after it became DEGRADED. -/
def execRetrainTimer (l : Nat) (s : State) : Host.Outcome State Fault Refusal :=
  atUnit l nLinks (fun s => if (s.link l).st = .degraded ∧ (s.link l).since + 1000000000 ≤ s.time then s.linkSt l .retraining (s.link l).lanes else s) s

/-- LINK_TRAIN_REQUEST (R277): a FENCED link is trained, a DEGRADED one retrained. -/
def execLinkTrainRequest (l : Nat) (s : State) : Host.Outcome State Fault Refusal :=
  atUnit l nLinks (fun s =>
    let x := s.link l
    if x.st = .fenced then s.linkSt l .training 0
    else if x.st = .degraded then s.linkSt l .retraining x.lanes else s) s

/-- The flit of a number is delivered by its link: its item goes on to the next link of its way. A number whose item is gone, with the
context that sent it, delivers nothing. -/
def State.deliverFlit (s : State) (l q : Nat) : State :=
  match s.net.findIdx? (fun i => i.flit == some (l, q)), s.net.find? (fun i => i.flit == some (l, q)) with
  | some k, some i =>
    let r := s.onward i
    { r.1 with net := setAt r.1.net k r.2 }
  | _, _ => s

/-- FLIT_RECEIVE (R279): the flit on the wire arrives, whole or not. In sequence it is delivered; one already delivered is dropped; a
broken one, or one out of sequence, is dropped and asks for replay from the first number missing. What was delivered before it is
acknowledged. -/
def State.flitIn (s : State) (l : Nat) (good : Bool) : State :=
  let x := s.link l
  if !x.carries || x.wire == x.tx then s
  else if !good || decide (x.rx < x.wire) then s.setLink l { x with wire := x.rx }
  else if x.wire < x.rx then s.setLink l { x with wire := x.wire + 1, acked := x.rx }
  else (s.setLink l { x with rx := x.rx + 1, wire := x.wire + 1, acked := x.rx }).deliverFlit l x.wire

/-- FLIT_RECEIVE (R279). -/
def execFlitReceive (l : Nat) (good : Bool) (s : State) : Host.Outcome State Fault Refusal := atUnit l nLinks (·.flitIn l good) s

/-! ### Accesses through ports -/

/-- A write by a port for a context, which may cross a page: both pages are checked before any byte is written. -/
def State.portWrite (s : State) (n chip agent : Nat) (nd : Need) (va : Nat) (bytes : List Byte) : State × SysAcc :=
  let k := 8192 - va % 8192
  if bytes.length ≤ k then s.sysWrite n chip agent nd va bytes
  else match s.agentXl agent n chip (BitVec.ofNat 64 (va + k)) nd with
    | (s, .ok _ _) =>
      (match s.sysWrite n chip agent nd va (bytes.take k) with
        | (s, .ok) => s.sysWrite n chip agent nd (va + k) (bytes.drop k)
        | r => r)
    | (s, .page) => (s, .fault 1 (va + k))
    | (s, .prot) => (s, .fault 2 (va + k))
    | (s, _) => (s, .wait)

/-- A read by a port for a context, which may cross a page. -/
def State.portRead (s : State) (n chip agent va k : Nat) : State × SysAcc × List Byte :=
  let j := 8192 - va % 8192
  if k ≤ j then s.sysRead n chip agent va k
  else match s.sysRead n chip agent va j with
    | (s, .ok, a) =>
      (match s.sysRead n chip agent (va + j) (k - j) with
        | (s, .ok, b) => (s, .ok, a ++ b)
        | r => r)
    | r => r

/-- A fault of a port's access is recorded (06 R426); that of an access through BAR4, or of a peer, as one of the apertures: agent 0,
queue number 0 (16 R275; log 41). -/
def State.portFault (s : State) (n code va : Nat) : State :=
  s.logCtx n 0x0010 0 5 (detail [(275, va % 2 ^ 53), (273, code)]) 0

/-! ### Peer connections (R282-R284) -/

/-- A field of a flit's header. -/
def flitF (l : List Byte) (lo n : Nat) : Nat := leNat (l.take 16) / 2 ^ lo % 2 ^ n

/-- A whole flit of a known type with the right check sum. -/
def flitGood (l : List Byte) : Bool :=
  l.length == 256 && decide (flitF l 120 8 ≤ 3) && leNat ((l.drop 240).take 8) == 0 &&
    Config.crc64 (l.take 240) == BitVec.ofNat 64 (leNat (l.drop 248))

/-- A sequence number before another, modulo 2^24. -/
def seqBefore (a b : Nat) : Bool := decide (0 < (b + 2 ^ 24 - a % 2 ^ 24) % 2 ^ 24 ∧ (b + 2 ^ 24 - a % 2 ^ 24) % 2 ^ 24 < 2 ^ 23)

/-- Every SEQ below one has been received by the peer; the wait for the next acknowledgement begins. -/
def Conn.ackTo (c : Conn) (a now : Nat) : Conn :=
  if seqBefore c.acked a then
    { c with acked := a, unacked := c.unacked.filter (fun u => !seqBefore u.1 a), since := now, lost := none }
  else c

/-- An acknowledgement is sent: every SEQ below rx is received (R282). -/
def Conn.reply (c : Conn) (k : Nat) : Conn := { c with ack := mkFlit 1 c.peer k c.tx c.rx 0 [] }

/-- A good flit of a type arriving at a scale-up port: its connection is the one it names, which a first flit opens (log 16). -/
def State.peerIn (s : State) (port ty : Nat) (l : List Byte) (f : State → Nat → Conn → State) : State :=
  let k := flitF l 80 8
  let src := flitF l 104 16
  if 64 ≤ port || !(s.link (260 + port)).carries || !flitGood l || flitF l 120 8 != ty ||
      flitF l 88 16 != Config.selfPeer % 2 ^ 16 then s
  else match mfind s.conns k with
    | some c => if c.peer = src then f s k { c with port := port } else s
    | none => f s k { peer := src, port := port, tx := 0, acked := 0, rx := 0, unacked := [], refusal := none, ack := [],
                      since := s.time, lost := none }

/-- Replacing a connection. -/
def State.setConn (s : State) (k : Nat) (c : Conn) : State := { s with conns := mput s.conns k c }

/-- The access-control entry of a peer and a queue (09 R179). -/
def State.aclFor (s : State) (peer q : Nat) : Option W64 :=
  (s.acl.find? (fun e => e.2.getLsbD 0 && wf e.2 48 16 == peer && wf e.2 32 16 == q)).map (·.2)

/-- The code with which a peer's write is refused; 0 when it is performed (R283). -/
def State.peerCode (s : State) (peer q off n : Nat) (add : Bool) : Nat :=
  match s.aclFor peer q with
  | none => 1
  | some e =>
    match mfind s.queues q with
    | none => 4
    | some qu =>
      if 64 + 64 * 2 ^ qu.log2n < off + n ∨ (off < 16 ∧ 8 < off + n) then 3
      else
        let right := if off < 8 then add && off == 0 && e.getLsbD 1
          else if off < 24 then !add && decide (off + n ≤ 24) && e.getLsbD 2
          else decide (64 ≤ off) && !add && e.getLsbD 1
        if !right then 2 else if !qu.en then 4 else 0

/-- A peer's write, performed in the queue's context: what it met, its code, and the old value of an add (09 R168). -/
def State.peerDo (s : State) (k peer : Nat) (w : Nat × Nat × Bool × List Byte) : State × SysAcc × Nat × Option W64 :=
  let q := w.1
  let off := w.2.1
  let data := if w.2.2.1 then w.2.2.2.take 8 else w.2.2.2
  let code := s.peerCode peer q off data.length w.2.2.1
  match mfind s.queues q with
  | none => (s, .ok, code, none)
  | some qu =>
    if code ≠ 0 then
      (s.logCtx qu.ctxn 0x0008 0 5 (detail [(336, peer % 2 ^ 16), (320, q % 2 ^ 16), (312, code)]) 0, .ok, code, none)
    else
      let chip := s.queueHome qu
      let r : State × SysAcc × Option W64 :=
        if w.2.2.1 then match s.sysRead qu.ctxn chip (46000 + k) qu.base 8 with
          | (s, .ok, old) =>
            (match s.sysWrite qu.ctxn chip (46000 + k) ⟨true, true, false, false⟩ qu.base (natBytes 8 (leNat old + leNat data)) with
              | (s, a) => (s, a, some (BitVec.ofNat 64 (leNat old))))
          | (s, r, _) => (s, r, none)
        else match s.portWrite qu.ctxn chip (46000 + k) sysW (qu.base + off) data with
          | (s, a) => (s, a, none)
      match r with
      | (s, .fault c va, _) => (s.portFault qu.ctxn c va, .ok, 0, none)
      | (s, a, old) => (s, a, 0, old)

/-- PEER_DATA_FLIT: the next of its connection is performed, or refused by a flit of our own; the old value of an add goes back in a
data flit. A duplicate or one out of sequence is dropped. Each is acknowledged. -/
def State.peerData (s : State) (k : Nat) (c : Conn) (l : List Byte) : State :=
  let c := c.ackTo (flitF l 32 24) s.time
  let seq := flitF l 56 24
  if seq ≠ c.rx then s.setConn k (c.reply k)
  else match s.peerDo k c.peer (Config.peerWrite ((l.drop 16).take (16 * min (flitF l 24 8) 14))) with
    | (s, .wait, _) => s
    | (s, _, code, old) =>
      let c := { c with rx := (seq + 1) % 2 ^ 24 }
      let c := if code ≠ 0 then c.send k s.time 2 seq code []
        else match old with
          | some v => c.send k s.time 0 c.rx 0 (Config.peerOld seq v)
          | none => c
      s.setConn k (c.reply k)

/-- PEER_DATA_FLIT (R282). -/
def execPeerDataFlit (port : Nat) (flit : List (BitVec 8)) (s : State) : Host.Outcome State Fault Refusal :=
  .next (s.peerIn port 0 flit (fun s k c => s.peerData k c flit))

/-- PEER_ACK_FLIT (R282). -/
def execPeerAckFlit (port : Nat) (flit : List (BitVec 8)) (s : State) : Host.Outcome State Fault Refusal :=
  .next (s.peerIn port 1 flit (fun s k c => s.setConn k (c.ackTo (flitF flit 32 24) s.time)))

/-- PEER_REFUSAL_FLIT (R283): the refused write's SEQ and the reason are kept. -/
def execPeerRefusalFlit (port : Nat) (flit : List (BitVec 8)) (s : State) : Host.Outcome State Fault Refusal :=
  .next (s.peerIn port 2 flit (fun s k c =>
    if flitF flit 56 24 = c.rx then
      s.setConn k ({ c with rx := (c.rx + 1) % 2 ^ 24, refusal := some (flitF flit 32 24, flitF flit 16 8) }.reply k)
    else s.setConn k (c.reply k)))

/-- PEER_KEEP_ALIVE (R282). -/
def execPeerKeepAlive (port : Nat) (flit : List (BitVec 8)) (s : State) : Host.Outcome State Fault Refusal :=
  .next (s.peerIn port 3 flit (fun s k c => s.setConn k (c.ackTo (flitF flit 32 24) s.time)))

/-- A port that can carry a connection: UP or DEGRADED. -/
def State.portOpen (s : State) (p : Nat) : Bool :=
  decide (p < 64) && ((s.link (260 + p)).st == .up || (s.link (260 + p)).st == .degraded)

/-- Another port to a connection's peer. -/
def State.otherPort (s : State) (c : Conn) : Option Nat := (Config.peerPorts c.peer).find? (fun p => p != c.port && s.portOpen p)

/-- A connection is to move: its port is FENCED, or no acknowledgement has come for 50 µs. -/
def State.connLate (s : State) (c : Conn) : Bool :=
  (s.link (260 + c.port)).st == .fenced || (!c.unacked.isEmpty && decide (c.since + 50000 ≤ s.time))

/-- CONNECTION_TIMEOUT (R284): the connection moves to another port and resends there from its oldest unacknowledged flit. -/
def execConnectionTimeout (conn : Nat) (s : State) : Host.Outcome State Fault Refusal :=
  atUnit conn 256 (fun s => match mfind s.conns conn with
    | some c =>
      if s.connLate c then
        match s.otherPort c with
        | some p => s.setConn conn { c with port := p, since := s.time, lost := none }
        | none => s
      else s
    | none => s) s

/-- PEERLOST (R284): the connection has no port, its own in TRAINING or late and no other to its peer; the record is written every 100
ms. -/
def execPeerlost (conn : Nat) (s : State) : Host.Outcome State Fault Refusal :=
  atUnit conn 256 (fun s => match mfind s.conns conn with
    | some c =>
      let due := match c.lost with
        | some t => decide (t + 100000000 ≤ s.time)
        | none => true
      if (s.connLate c || !(s.link (260 + c.port)).carries) && (s.otherPort c).isNone && due then
        (s.setConn conn { c with lost := some s.time }).logSys 0x0025 5 0 (detail [(344, conn)])
      else s
    | none => s) s

/-! ### Host ports (R281; 07 R148) -/

/-- A host port that carries traffic. -/
def State.hostUp (s : State) (port : Nat) : Bool := decide (port < 4) && (s.link (256 + port)).carries

/-- The chiplet whose shared TLB an I/O chiplet's port uses: one it adjoins. -/
def portChip (port : Nat) : Nat := [0, 7, 56, 0].getD port 0

/-- The requests that system software makes of a controller (R281). -/
def isService : Instr → Bool
  | .contextCreate _ | .destroyRequest _ | .restoreRequest _ _ _ | .preEmptRequest _ | .tableStreamRequest _ _
  | .queueDescriptorWrite _ _ | .queueDestroy _ | .queueAclWrite _ _ | .driftRequest _ | .driftIntervalSet _ _ | .castOff _ _
  | .channelRetireRequest _ _ | .forcePage _ | .frameStatusRead _ | .logRead _ _ | .debugStop _ | .debugResume _ | .debugStep _
  | .debugAccess _ _ _ _ | .linkTrainRequest _ | .routingRewrite _ _ | .testPackageInstall _ | .zephyrFillRequest _ _ _
  | .attestationRequest _ _ _ | .firmwareReload _ => true
  | _ => false

/-- The n 8-byte words of a number, lowest first. -/
def wordsOfNat : Nat → Nat → List W64
  | 0, _ => []
  | n + 1, x => BitVec.ofNat 64 x :: wordsOfNat n (x / 2 ^ 64)

/-- A context's record as its 512 bits: KEY reads zero (08 R150). -/
def Ctx.bits (x : Ctx) (n : Nat) : Nat :=
  x.save / 8192 % 2 ^ 37 * 2 ^ 219 + x.root / 8192 % 2 ^ 37 * 2 ^ 182 + x.quantum % 2 ^ 32 * 2 ^ 150 + x.vy0 % 256 * 2 ^ 142 +
    x.vx0 % 256 * 2 ^ 134 + x.height % 256 * 2 ^ 126 + x.width % 256 * 2 ^ 118 + n % 256 * 2 ^ 110 +
    (if x.repro then 2 ^ 109 else 0) + x.rpint % 1024 * 2 ^ 99 + x.ytab.toNat / 64 % 2 ^ 47 * 2 ^ 52 + x.elog / 8192 % 2 ^ 37 * 2 ^ 15

/-- A queue's descriptor as its 128 bits (09 R164). -/
def Queue.bits (q : Queue) : Nat :=
  q.base / 64 % 2 ^ 47 * 2 ^ 81 + q.log2n % 32 * 2 ^ 76 + q.ctxn % 256 * 2 ^ 68 + q.maxprio % 8 * 2 ^ 65 +
    (if q.mode then 2 ^ 64 else 0) + q.hcy % 8 * 2 ^ 61 + q.hcx % 8 * 2 ^ 58 + (if q.en then 2 ^ 57 else 0) +
    (if q.ser then 2 ^ 56 else 0)

/-- An entry of the column translation table as its 80 bits (01 R21). -/
def ColEntry.bits (e : ColEntry) : Nat := (rangeFrom 0 16).foldl (fun a n => a + (e.toList.getD n 31).toNat * 2 ^ (5 * n)) 0

/-- A defect record as its 2,048 bits (15 R247). -/
def Defect.bits (d : Defect) : Nat :=
  d.rdead.toNat * 2 ^ 1376 + d.degr.toNat * 2 ^ 1360 + d.cast.toNat +
    (rangeFrom 0 272).foldl (fun a n => a + mget 0 d.reason n % 16 * 2 ^ (272 + 4 * n)) 0

/-- A tile's state as the tile-status service gives it: its place in the table of 15 R236 (log 14). -/
def PState.code : PState → Nat
  | .serving => 0
  | .draining => 1
  | .copying => 2
  | .remapping => 3
  | .spare => 4
  | .testing => 5
  | .cooling => 6
  | .castOff => 7

/-- The supply setpoint of a clock: the calibrated table within 600-850 mV, never falling as the clock rises (18 R288). -/
def setpoint (chip act : Nat) : Nat :=
  (rangeFrom 9 (act / 100 - 8)).foldl (fun m f => max m (min 850 (max 600 (Config.vfTable chip (100 * f))))) 600

/-- A service reached through BAR0; a request is the next thing that happens. -/
def State.serve (s : State) : Option Service → State
  | some (.request i) => if isService i then { s with agenda := .event i :: s.agenda } else s
  | some (.aperture port k ctx base) =>
    if port < 4 ∧ k < 8 ∧ ctx < 256 then { s with bar2 := mput s.bar2 (8 * port + k) (ctx, base % 2 ^ 53) } else s
  | some (.panelPeak w) => if w ≤ s.panel.pklim then { s with panel := { s.panel with pklim := w } } else s
  | some (.panelMean w) => if w ≤ s.panel.avglim then { s with panel := { s.panel with avglim := w } } else s
  | some (.column k) => { s with reply := wordsOfNat 2 (s.colE k).bits }
  | some (.context n) => { s with reply := wordsOfNat 8 ((s.ctx n).bits n) }
  | some (.queue q) => { s with reply := match mfind s.queues q with
      | some qu => wordsOfNat 2 qu.bits
      | none => [0, 0] }
  | some (.tileStatus p) => { s with reply := [BitVec.ofNat 64 (s.ptile p).st.code] }
  | some (.defects chip) => { s with reply := wordsOfNat 32 (s.chip chip).defect.bits }
  | some (.ageing p) =>
    { s with reply := (rangeFrom 0 16).map (fun i => BitVec.ofNat 64 ((s.ptile p).age.getD i 0)) ++ [BitVec.ofNat 64 (s.ptile p).errs] }
  | some (.supply chip) =>
    { s with reply := (rangeFrom 9 14).map (fun f => BitVec.ofNat 64 (setpoint chip (100 * f))) }
  | some (.ageRule l m) => { s with ageRule := some (l, m) }
  | none => s

/-- Where an access through BAR2 or BAR4 of a port falls: context, virtual address, queue number. -/
def State.barPlace (s : State) (port bar addr n : Nat) : Option (Nat × Nat × Nat) :=
  if bar = 2 then
    (if addr < 2 ^ 36 then (mfind s.bar2 (8 * port + addr / 2 ^ 33)).map (fun a => (a.1, (a.2 + addr % 2 ^ 33) % 2 ^ 53, 0)) else none)
  else if bar = 4 ∧ addr < 2 ^ 20 then
    let r := Config.bar4 addr
    match mfind s.queues r.1 with
    | some qu => if r.2 + n ≤ 24 then some (qu.ctxn, qu.base + r.2, r.1) else none
    | none => none
  else none

/-- A posted write that a port makes: it faults and is discarded, is done, or waits; then the state is as it was but for the wait. -/
def State.postedTry (s : State) (w : Posted) : State × Bool :=
  match s.portWrite w.ctx (portChip w.port) (45000 + w.port) sysW w.va w.data with
  | (s, .fault c a) => (s.portFault w.ctx c a, true)
  | (s, .wait) => (s, false)
  | (s, .ok) => (s, true)

/-- The oldest posted write of a port that waits on a BUSY entry is tried again (06 R426, R123). -/
def State.postedGo (s : State) (port : Nat) : State :=
  match s.posted.find? (fun w => w.port == port) with
  | none => s
  | some w =>
    match s.postedTry w with
    | (s, true) => { s with posted := s.posted.erase w }
    | (s, false) => s

/-- Posted writes of a port are still to be made: what follows them on the port waits. -/
def State.postedWait (s : State) (port : Nat) : Bool := s.posted.any (fun w => w.port == port)

/-- HOST_POSTED_WRITE: a write that faults is discarded; RIDX is written by the mapped slot only. One that meets a BUSY entry, or
follows one that does, is kept. -/
def State.hostWrite (s : State) (port bar addr : Nat) (data : List Byte) : State :=
  if !s.hostUp port || data.isEmpty || decide (4096 < data.length) then s
  else if bar = 0 then s.serve (Config.bar0 addr (some data))
  else match s.barPlace port bar addr data.length with
    | none => s
    | some (n, va, q) =>
      if bar = 4 ∧ (Config.bar4 addr).2 < 16 ∧ 8 < (Config.bar4 addr).2 + data.length then s
      else
        let w : Posted := ⟨port, bar, q, n, va, data⟩
        if s.postedWait port then { s with posted := s.posted ++ [w] }
        else match s.postedTry w with
          | (s, true) => s
          | (s, false) => { s with posted := s.posted ++ [w] }

/-- HOST_POSTED_WRITE (07 R148; R281). -/
def execHostPostedWrite (port bar addr : Nat) (data : List (BitVec 8)) (s : State) : Host.Outcome State Fault Refusal :=
  .next (s.hostWrite port bar addr data)

/-- The boot status word (18 R296). -/
def State.bootWord (s : State) : W64 :=
  BitVec.ofNat 64 (s.boot.step % 16 + (if s.boot.fail then 16 else 0) + s.chips.countP (·.2.ready) % 256 * 256)

/-- Bytes as 8-byte words. -/
def wordsOf8 : Nat → List Byte → List W64
  | 0, _ => []
  | n + 1, l => if l.isEmpty then [] else BitVec.ofNat 64 (leNat (l.take 8)) :: wordsOf8 n (l.drop 8)

/-- HOST_READ: the reply holds the bytes read as words; none where the read completes with Completer Abort. -/
def State.hostRead (s : State) (port bar addr n : Nat) : State :=
  if n = 0 ∨ 4096 < n then s
  else if bar = 0 ∧ addr = 0 then (if port < 4 then { s with reply := [s.bootWord] } else s)
  else if !s.hostUp port || s.postedWait port then s
  else if bar = 0 then { s with reply := [] }.serve (Config.bar0 addr none)
  else match s.barPlace port bar addr n with
    | none => { s with reply := [] }
    | some (c, va, _) =>
      match s.portRead c (portChip port) (45000 + port) va n with
      | (s, .ok, l) => { s with reply := wordsOf8 512 l }
      | (s, .fault code a, _) => { s.portFault c code a with reply := [] }
      | (s, .wait, _) => s

/-- HOST_READ (R281). -/
def execHostRead (port bar addr n : Nat) (s : State) : Host.Outcome State Fault Refusal := .next (s.hostRead port bar addr n)

/-- HOST_ATOMICOP: op 0 FetchAdd of x, op 1 CAS of x where the word equals y; aligned words only. -/
def State.hostAtomic (s : State) (port bar addr op : Nat) (x y : W64) : State :=
  if !s.hostUp port || s.postedWait port || decide (1 < op) || addr % 8 != 0 then s
  else match s.barPlace port bar addr 8 with
    | none => { s with reply := [] }
    | some (n, va, _) =>
      let nd : Need := ⟨true, true, false, false⟩
      if va % 8 ≠ 0 then { s with reply := [] }
      else match s.sysRead n (portChip port) (45000 + port) va 8 with
        | (s, .ok, l) =>
          let old : W64 := BitVec.ofNat 64 (leNat l)
          let new := if op = 0 then old + x else if old = y then x else old
          (match s.sysWrite n (portChip port) (45000 + port) nd va (natBytes 8 new.toNat) with
            | (s, .ok) => { s with reply := [old] }
            | (s, .fault c a) => { s.portFault n c a with reply := [] }
            | (s, .wait) => s)
        | (s, .fault c a, _) => { s.portFault n c a with reply := [] }
        | (s, .wait, _) => s

/-- HOST_ATOMICOP (R281). -/
def execHostAtomicop (port bar addr op : Nat) (x y : BitVec 64) (s : State) : Host.Outcome State Fault Refusal :=
  .next (s.hostAtomic port bar addr op x y)

end Sys2Proof.Machine
end

