-- ==== Sys2Proof/Machine/EvPower.lean ====
section
/-! DEFINITION. Events of power, clock, heat and tile gating (18 R286-R295).

An event that is not due leaves the state as it is. -/

namespace Sys2Proof.Machine

/-- Changing a chiplet's power block. -/
def State.modPw (s : State) (h : Nat) (f : PowerBlk → PowerBlk) : State := s.modChip h (fun x => { x with pw := f x.pw })

/-! ### Power and clock (R288, R289) -/

/-- A mean, rounded down; 0 of nothing. -/
def meanOf (l : List Nat) : Nat := l.foldl (· + ·) 0 / max l.length 1

/-- One sample of 100 ns: PK over the last 100, AVG over the last 1,000 means of a millisecond. -/
def Integ.add (x : Integ) (w : Nat) : Integ :=
  let last := (w :: x.last).take 100
  if 9999 ≤ x.cnt then
    let means := ((x.sum + w) / 10000 :: x.means).take 1000
    { last := last, sum := 0, cnt := 0, means := means, pk := meanOf last, avg := meanOf means }
  else { x with last := last, sum := x.sum + w, cnt := x.cnt + 1, pk := meanOf last }

/-- POWER_SAMPLE (R289): chiplet 0-63; 64 stands for the whole panel. -/
def execPowerSample (chip watts : Nat) (s : State) : Host.Outcome State Fault Refusal :=
  atUnit chip 65 (fun s =>
    if chip = 64 then { s with panel := { s.panel with integ := s.panel.integ.add watts } }
    else s.modPw chip (fun p => { p with integ := p.integ.add watts })) s

/-- The clock at a new step, with its setpoint. -/
def PowerBlk.clock (p : PowerBlk) (chip act : Nat) : PowerBlk := { p with act := act, setmv := setpoint chip act }

/-- Some integrator is over its limit (R289). -/
def State.over (s : State) (p : PowerBlk) : Bool :=
  decide (p.pklim < p.integ.pk) || decide (p.avglim < p.integ.avg) || decide (s.panel.pklim < s.panel.integ.pk) ||
    decide (s.panel.avglim < s.panel.integ.avg)

/-- Every integrator is at or below 95 % of its limit. -/
def State.under (s : State) (p : PowerBlk) : Bool :=
  let ok (x l : Nat) : Bool := decide (100 * x ≤ 95 * l)
  ok p.integ.pk p.pklim && ok p.integ.avg p.avglim && ok s.panel.integ.pk s.panel.pklim && ok s.panel.integ.avg s.panel.avglim

/-- CAP_TICK: once every microsecond. The clock stays at 900 while a thermal trip holds it (R292). -/
def State.capTick (s : State) (h : Nat) : State :=
  let p := (s.chip h).pw
  let s := s.modPw h (fun p => { p with tick := p.tick + 1 })
  if p.set < p.act then s.modPw h (fun p => p.clock h (p.act - 100))
  else if s.over p then
    if 900 < p.act then s.modPw h (fun p => p.clock h (p.act - 100))
    else if p.capl < 7 then s.modPw h (fun p => { p with capl := p.capl + 1 })
    else if p.capmaxAt ≤ s.time then
      (s.modPw h (fun p => { p with capmaxAt := s.time + 1000000000 })).logSys 0x0022 2 0 (detail [(346, h)])
    else s
  else if (p.tick + 1) % 10 = 0 ∧ s.under p then
    if 0 < p.capl then s.modPw h (fun p => { p with capl := p.capl - 1 })
    else if p.act < p.set ∧ !p.trip then s.modPw h (fun p => p.clock h (p.act + 100))
    else s
  else s

/-- CAP_TICK (R289). -/
def execCapTick (chip : Nat) (s : State) : Host.Outcome State Fault Refusal := atChip chip (·.capTick chip) s

/-- FREQ_SET_WRITE (R288). -/
def execFreqSetWrite (chip mhz : Nat) (s : State) : Host.Outcome State Fault Refusal :=
  atChip chip (·.modPw chip (fun p => p.setFreq mhz)) s

/-! ### Supply sensing and the gust state (R290, R291) -/

/-- A droop of a chiplet's supply is a reported fault of the context that owns it (R290; 16 R251). On a chiplet of no context it is
logged and has no other effect (16 R252). -/
def State.droop (s : State) (h : Nat) : State :=
  let ns := (s.ctxs.filter (fun e => e.2.resident && (ctxChips e.2).contains h)).map (·.1)
  if ns.isEmpty then s.faultFree h else ns.foldl State.reportFault s

/-- SENSE_SAMPLE: the fourth sample in a row more than 50 mV low is a droop. -/
def State.sense (s : State) (h mv : Nat) : State :=
  let p := (s.chip h).pw
  let low := if mv + 50 < p.setmv then p.low + 1 else 0
  let s := s.modPw h (fun p => { p with mv := mv % 1024, low := low % 4 })
  if low = 4 then s.droop h else s

/-- SENSE_SAMPLE (R290). -/
def execSenseSample (chip mv : Nat) (s : State) : Host.Outcome State Fault Refusal := atChip chip (·.sense chip mv) s

/-- REGULATOR_RECALIBRATION (R290): work does not pause, and nothing that can be read changes. -/
def execRegulatorRecalibration (chip : Nat) (s : State) : Host.Outcome State Fault Refusal := atChip chip (fun s => s) s

/-- GUST_ACKNOWLEDGE (R291): 2 µs after the notice. -/
def execGustAcknowledge (chip : Nat) (s : State) : Host.Outcome State Fault Refusal :=
  atChip chip (fun s =>
    let p := (s.chip chip).pw
    if p.gust = .notified ∧ p.gustAt + 2000 ≤ s.time then s.modPw chip (fun p => { p with gust := .ready, gustAt := s.time })
    else s) s

/-- GUST_SETTLE (R291): 100 µs without a cause. -/
def execGustSettle (chip : Nat) (s : State) : Host.Outcome State Fault Refusal :=
  atChip chip (fun s =>
    let p := (s.chip chip).pw
    if p.gust = .ready ∧ p.gustAt + 100000 ≤ s.time then s.modPw chip (fun p => { p with gust := .quiet }) else s) s

/-! ### Heat (R292; 15 R236, R237) -/

/-- 90, 105, 110 and 120 °C in sixteenths. -/
def deg (c : Int) : Int := 16 * c

/-- The bin of the ageing counters: four of voltage by four of temperature (16 R262). -/
def ageBin (mv : Nat) (t : Int) : Nat :=
  4 * (if mv < 660 then 0 else if mv < 720 then 1 else if mv < 780 then 2 else 3) +
    (if t < deg 60 then 0 else if t < deg 80 then 1 else if t < deg 95 then 2 else 3)

/-- Cycles added to the bin a tile is in. -/
def PTile.older (x : PTile) (bin cycles : Nat) : PTile :=
  let l := if x.age.isEmpty then List.replicate 16 0 else x.age
  { x with age := setAt l bin ((l.getD bin 0 + cycles) % 2 ^ 48) }

/-- A sensor reading at a physical tile: its ageing counter, and the moves of a tile that serves nothing. -/
def PTile.heat (x : PTile) (t : Int) (mv cycles : Nat) : PTile :=
  let x := { x with temp := t }.older (ageBin mv t) cycles
  match x.st with
  | .spare => if deg 90 ≤ t ∧ !x.reserved then { x with st := .cooling } else x
  | .testing => if deg 90 ≤ t then { x with st := .cooling } else x
  | .cooling => if t < deg 90 then { x with st := if x.testDue then .testing else .spare } else x
  | _ => x

/-- The physical tiles of a chiplet. -/
def chipTiles (h : Nat) : List Nat := rangeFrom (272 * h) 272

/-- The hottest sensor of a chiplet: the lowest tile number that reads it, and the reading. -/
def State.hottest (s : State) (h : Nat) : Nat × Int :=
  (chipTiles h).foldl (fun b p => if b.2 < (s.ptile p).temp then (p % 272, (s.ptile p).temp) else b) (0, (s.ptile (272 * h)).temp)

/-- The serving tiles of a chiplet at 105 °C or more, hottest first by number. -/
def State.hotTiles (s : State) (h : Nat) : List Nat :=
  (chipTiles h).filter (fun p => (s.ptile p).st == .serving && decide (deg 105 ≤ (s.ptile p).temp))

/-- Thermal orders for the hot tiles; whether some order could not start for a reason of R238. -/
def State.heatOrders (s : State) (ps : List Nat) : State × Bool :=
  ps.foldl (fun r p => match r.1.driftOrder p 1 0 with
    | some s => (s, r.2)
    | none => (r.1, r.2 || r.1.orderBarred p)) (s, false)

/-- A sensor has failed (16 R263): it reads outside −20 °C to 150 °C, or differs by more than 15 °C from all four neighbours, of
those that stand in the same sample (log 60). -/
def badSensor (readings : List (Nat × Int)) (r : Nat × Int) : Bool :=
  let near := if r.1 % 16 = 0 ∨ r.1 % 16 = 15 ∨ r.1 < 16 ∨ 256 ≤ r.1 then [] else [r.1 - 16, r.1 + 16, r.1 - 1, r.1 + 1]
  decide (r.2 < deg (-20) ∨ deg 150 < r.2) ||
    (!near.isEmpty && near.all (fun q => match readings.find? (fun e => e.1 == q) with
      | some e => decide (deg 15 < e.2 - r.2 ∨ deg 15 < r.2 - e.2)
      | none => false))

/-- The weighted age of a tile is above its limit (16 R262, R263). -/
def State.tooOld (s : State) (x : PTile) : Bool :=
  match s.ageRule with
  | some (w, m) => decide (m < ((w.zip x.age).map (fun e => e.1 * e.2)).foldl (· + ·) 0)
  | none => false

/-- A tile that the controller is to retire after a sample: reason 6 its sensor, 5 its age (16 R263). -/
def State.sampleCast (s : State) (p : Nat) (bad : Bool) : State :=
  let x := s.ptile p
  if x.st = .castOff ∨ x.retire ≠ 0 then s
  else if bad then s.setPtile p { x with retire := 6 }
  else if s.tooOld x then s.setPtile p { x with retire := 5 }
  else s

/-- THERMAL_SAMPLE: readings by tile number in sixteenths of a degree. -/
def State.thermal (s : State) (h : Nat) (readings : List (Nat × Int)) : State :=
  let p := (s.chip h).pw
  let s := readings.foldl (fun s r =>
    if r.1 < 272 then
      (s.setPtile (272 * h + r.1) ((s.ptile (272 * h + r.1)).heat r.2 p.setmv (10 * p.act))).sampleCast (272 * h + r.1)
        (badSensor readings r)
    else s) s
  let m := s.hottest h
  let alert := p.en && !p.pend && decide (p.thresh.toInt ≤ m.2)
  let s := s.modPw h (fun p => { p with hot := m.1, tmax := m.2, pend := p.pend || alert })
  let ho := s.heatOrders (s.hotTiles h)
  let s := ho.1
  if deg 120 ≤ m.2 then
    let s := s.modPw h (fun p => { p with thl := 7, trip := true }.clock h 900)
    if p.trip then s else s.logSys 0x0023 2 0 (detail [(346, h), (330, (BitVec.ofInt 16 m.2).toNat)])
  else if p.trip ∧ deg 110 ≤ m.2 then s
  else
    let s := s.modPw h (fun p => { p with trip := false })
    if ho.2 then s.modPw h (fun p => { p with thl := min 7 (p.thl + 1) }) else s

/-- THERMAL_SAMPLE (R292). -/
def execThermalSample (chip : Nat) (readings : List (Nat × Int)) (s : State) : Host.Outcome State Fault Refusal :=
  atChip chip (·.thermal chip readings) s

/-- THERMAL_LEVEL_DECAY (R292): no serving tile is at 105 °C. -/
def execThermalLevelDecay (chip : Nat) (s : State) : Host.Outcome State Fault Refusal :=
  atChip chip (fun s =>
    if (s.hotTiles chip).isEmpty ∧ !(s.chip chip).pw.trip then s.modPw chip (fun p => { p with thl := p.thl - 1 }) else s) s

/-- ALERT_CLEAR (27 R412). -/
def execAlertClear (chip : Nat) (s : State) : Host.Outcome State Fault Refusal := atChip chip (·.modPw chip PowerBlk.clearPend) s

/-! ### Tile power gating (R294, R295) -/

/-- A tile that R294 calls idle. -/
def State.tileIdle (s : State) (t : Nat) : Bool :=
  let v := s.tile t
  let still (x : Core) : Bool := x.phase == .idle && x.msgRun.isNone
  still v.worker && still v.feeder && v.wdq.isEmpty && v.fdq.isEmpty && v.msgs.isEmpty && v.xfers.isEmpty && v.feet.isEmpty &&
    v.waits.isEmpty && (s.driftOf t).isNone

/-- A physical tile that serves no row is idle: no test runs and no drift is to land there (log 44). -/
def PTile.idle (x : PTile) : Bool :=
  !x.reserved && (match x.st with
    | .spare => true
    | .cooling => true
    | .castOff => true
    | _ => false)

/-- The units of power gating: a virtual tile with the physical tile that serves it, and from 16384 the physical tiles that serve no
row. -/
def nGated : Nat := 16384 + nPhys

/-- The power state of a unit of gating. -/
def State.powerOf (s : State) (u : Nat) : TPower := if u < 16384 then (s.tile u).power else (s.ptile (u - 16384)).power

/-- Changing it. -/
def State.setPower (s : State) (u : Nat) (w : TPower) : State :=
  if u < 16384 then s.modTile u (fun v => { v with power := w }) else s.setPtile (u - 16384) { s.ptile (u - 16384) with power := w }

/-- A unit of gating is idle (R294). -/
def State.unitIdle (s : State) (u : Nat) : Bool := if u < 16384 then s.tileIdle u else (s.ptile (u - 16384)).idle

/-- The chiplet of a unit of gating. -/
def unitChip (u : Nat) : Nat := if u < 16384 then chipOf u else (u - 16384) / 272

/-- TILE_HOLD (R294): an idle tile, with GEN 1. -/
def execTileHold (t : Nat) (s : State) : Host.Outcome State Fault Refusal :=
  atUnit t nGated (fun s => if s.unitIdle t ∧ s.powerOf t = .busy ∧ (s.chip (unitChip t)).pw.gen then s.setPower t (.hold s.time)
    else s) s

/-- TILE_GATE (R294): after 20 µs of HOLD. -/
def execTileGate (t : Nat) (s : State) : Host.Outcome State Fault Refusal :=
  atUnit t nGated (fun s => match s.powerOf t with
    | .hold a => if s.unitIdle t ∧ a + 20000 ≤ s.time then s.setPower t .gated else s
    | _ => s) s

/-- WAKE_CAUSE (R294). -/
def execWakeCause (t : Nat) (s : State) : Host.Outcome State Fault Refusal :=
  atUnit t nGated (fun s => if t < 16384 then s.wake t else s.wakePhys (t - 16384)) s

/-- INRUSH_ADMIT (R295): as many queued tiles as this microsecond still admits. -/
def State.inrushAdmit (s : State) (h : Nat) : State :=
  let x := s.chip h
  let us := s.time / 1000
  let used := if x.admitted.1 = us then x.admitted.2 else 0
  let ts := x.inrush.take (8 - used)
  let s := s.modChip h (fun x => { x with inrush := x.inrush.drop (8 - used), admitted := (us, used + ts.length) })
  ts.foldl (fun s t => s.setPower t (.waking s.time)) s

/-- INRUSH_ADMIT (R295). -/
def execInrushAdmit (chip : Nat) (s : State) : Host.Outcome State Fault Refusal := atChip chip (·.inrushAdmit chip) s

/-- WAKE_COMPLETE (R295): 1.4 µs after the admission. -/
def execWakeComplete (t : Nat) (s : State) : Host.Outcome State Fault Refusal :=
  atUnit t nGated (fun s => match s.powerOf t with
    | .waking a => if a + 1400 ≤ s.time then s.setPower t .busy else s
    | _ => s) s

end Sys2Proof.Machine
end

