-- ==== Sys2Proof/Machine/EvBoot.lean ====
section
/-! DEFINITION. Events of start-up (18 R296-R299) and the reload of firmware (22 R390).

An event that is not due leaves the state as it is. -/

namespace Sys2Proof.Machine

/-! ### Power-on reset (R296 step 1) -/

/-- A physical tile at power-on: its ageing counters are persistent (16 R262), and so is its cast-off (15 R247). -/
def PTile.powerOn (x : PTile) (p : Nat) : PTile :=
  { PTile.init0 p with age := x.age, errs := x.errs, st := if x.st = .castOff then .castOff else (PTile.init0 p).st }

/-- POWER_ON_RESET: everything at reset but what is persistent: defect records, ageing counters, the installed test package.
What the schedule does next is the environment's. -/
def State.powerOn (s : State) : State :=
  { State.reset with agenda := s.agenda,
                     chips := mmapv (fun (h : Chip) => { Chip.init0 with defect := h.defect }) s.chips,
                     phys := s.phys.map (fun e => (e.1, e.2.powerOn e.1)), pkg := s.pkg }

/-- POWER_ON_RESET (R296). -/
def execPowerOnReset (s : State) : Host.Outcome State Fault Refusal := .next s.powerOn

/-! ### The boot image (R296 steps 2-5, R297, R298) -/

/-- An extension of MEAS (R298). -/
def extend (m d : BitVec 512) : BitVec 512 := Config.sha3 (natBytes 64 m.toNat ++ natBytes 64 d.toNat)

/-- Firmware of a running panel extends MEAS further (R298). -/
def State.measure (s : State) (d : BitVec 512) : State :=
  if s.boot.step = 5 then { s with boot := { s.boot with meas := extend s.boot.meas d } } else s

/-- The ROM accepts an image (R297). -/
def imageOk (l : List Byte) : Bool :=
  let body := hdrField l 928 32
  let slot := hdrField l 856 8
  hdrField l 992 32 == 0x6b76626f && body % 64 == 0 && decide (slot ≤ 3) && hdrField l 0 856 == 0 && signedOk l body &&
    signedKey l body == Config.bootKeyHash slot && !Config.bootKeyRevoked slot &&
    decide (Config.antiRollback ≤ hdrField l 960 32)

/-- Where controller firmware stands in always-on SRAM: above the 64 KiB of the journal (09 R177). -/
def ctrlBase : Nat := 65536

/-- A core released at its firmware's entry block. -/
def released (a : Nat) : Core := Core.init (.entering (BitVec.ofNat 64 a) .start)

/-- Firmware in the memory a core fetches from. -/
def State.loadFirmware (s : State) (c : CoreRef) : State :=
  match c with
  | .sys _ _ => s.setOwnMem c (memWriteN (s.ownMem c) ctrlBase s.boot.body)
  | _ => s.setOwnMem c (memWriteN (s.ownMem c) 0 s.boot.body)

/-- Where a core starts. -/
def State.entryOf (s : State) (c : CoreRef) : Nat :=
  match c with
  | .sys _ _ => ctrlBase + s.boot.centry
  | _ => s.boot.mentry

/-- A core loaded and released. -/
def State.release (s : State) (c : CoreRef) : State := (s.loadFirmware c).setCore c (released (s.entryOf c))

/-- The management cores, and the first system core of each chiplet. -/
def bootCores : List CoreRef :=
  (rangeFrom 0 16).map (fun i => .mgmt (i / 4) (i % 4)) ++ (rangeFrom 0 64).map (fun h => .sys h 0)

/-- BOOT_IMAGE_FETCHED: verified, measured and released, or BOOTFAIL. -/
def State.bootImage (s : State) (l : List Byte) : State :=
  let body := hdrField l 928 32
  if s.boot.step ≠ 1 ∧ s.boot.step ≠ 2 then s
  else if !imageOk l then { s with boot := { s.boot with step := 3, fail := true, failAt := s.time } }
  else
    let meas := extend (extend s.boot.meas (Config.sha3 (l.take (128 + body)))) (signedKey l body)
    let s : State := { s with boot := { s.boot with step := 5, meas := meas, body := (l.drop 128).take body,
                                                    mentry := hdrField l 896 32, centry := hdrField l 864 32 } }
    bootCores.foldl State.release s

/-- BOOT_IMAGE_FETCHED (R297). -/
def execBootImageFetched (image : List (BitVec 8)) (s : State) : Host.Outcome State Fault Refusal := .next (s.bootImage image)

/-- The ROM has brought up the management port: it fetches (R296 step 2). -/
def State.bootFetch (s : State) : State := if s.boot.step = 1 then { s with boot := { s.boot with step := 2 } } else s

/-- BOOT_RETRY (R296): 10 s after the failure the ROM fetches again. -/
def execBootRetry (s : State) : Host.Outcome State Fault Refusal :=
  .next (if s.boot.step = 3 ∧ s.boot.fail ∧ s.boot.failAt + 10000000000 ≤ s.time then { s with boot := { s.boot with step := 2 } } else s)

/-! ### Controllers (R296 step 5, R299) -/

/-- The entry of a column with some rows cast off: the other rows in increasing order, then 31. -/
def startEntry (cast : List Nat) : ColEntry :=
  let rows := (rangeFrom 0 17).filter (fun r => !cast.contains r)
  let f (n : Nat) : BitVec 5 := BitVec.ofNat 5 (rows.getD n 31)
  #v[f 0, f 1, f 2, f 3, f 4, f 5, f 6, f 7, f 8, f 9, f 10, f 11, f 12, f 13, f 14, f 15]

/-- A column at start-up. -/
def State.startColumn (s : State) (h c : Nat) : State :=
  let cast := (rangeFrom 0 17).filter (fun r => (s.chip h).defect.cast.getLsbD (16 * r + c))
  let e := startEntry cast
  let s : State := { s with cols := mput s.cols (16 * h + c) e }
  let s := (rangeFrom 0 17).foldl (fun s r =>
    let p := 272 * h + 16 * r + c
    s.setPtile p { s.ptile p with st := if cast.contains r then .castOff
                                        else if e.toList.any (fun x => x.toNat == r) then .serving else .spare }) s
  if 2 ≤ cast.length then
    s.modChip h (fun x => { x with defect := { x.defect with degr := x.defect.degr ||| ((1 : BitVec 16) <<< c) } })
  else s

/-- A range that a chiplet's controller may map: of its parity quad, within the quad's capacity (00 R1), and free. -/
def State.rangeOk (s : State) (h : Nat) (r : Nat × Nat × Nat) : Bool :=
  r.2.2 == h / 2 && decide (0 < r.2.1) && r.1 % 256 == 0 && r.2.1 % 256 == 0 &&
    !s.memMap.any (fun m => overlap m.base m.len r.1 r.2.1) &&
    decide (((s.memMap.filter (fun m => m.quad == r.2.2)).map (·.len)).foldl (· + ·) r.2.1 ≤ Config.quadBytes)

/-- The die-to-die links of a chiplet have been trained. -/
def State.linksDone (s : State) (h : Nat) : Bool :=
  [4 * h, 4 * h + 1, 4 * h + 2, 4 * h + 3].all (fun l => (acrossOf l).isNone || (s.link l).st != .training)

/-- CONTROLLER_READY, once the links of the chiplet are trained: column entries, the memory map, the supply setpoint; then the chiplet
is ready. -/
def State.ctrlReady (s : State) (h : Nat) (ranges : List (Nat × Nat × Nat)) : State :=
  if s.boot.step ≠ 5 ∨ (s.chip h).ready ∨ !s.linksDone h then s
  else
    let s := (rangeFrom 0 16).foldl (fun s c => s.startColumn h c) s
    let s := ranges.foldl (fun (s : State) r =>
      if s.rangeOk h r then { s with memMap := s.memMap ++ [⟨r.1, r.2.1, r.2.2⟩] } else s) s
    let s := s.modChip h (fun x => { x with ready := true, pw := x.pw.clock h x.pw.act })
    if (s.chip h).defect.degr = 0 then s
    else s.logSys 0x002b 2 0 (detail [(346, h), (330, (s.chip h).defect.degr.toNat)])

/-- CONTROLLER_READY (R296). -/
def execControllerReady (chip : Nat) (ranges : List (Nat × Nat × Nat)) (s : State) : Host.Outcome State Fault Refusal :=
  atChip chip (·.ctrlReady chip ranges) s

/-! ### Attestation (R298) -/

/-- The signed part of a report: identity record, MEAS, nonce, cr.time, the CAST fields of the 64 defect records. -/
def State.report (s : State) (nonce : BitVec 512) : List Byte :=
  natBytes 128 Config.identity.toNat ++ natBytes 64 s.boot.meas.toNat ++ natBytes 64 nonce.toNat ++ natBytes 8 s.time ++
    (rangeFrom 0 64).flatMap (fun h => natBytes 34 (s.chip h).defect.cast.toNat)

/-- ATTESTATION_REQUEST: a running management core replies with the report and its signature. -/
def execAttestationRequest (io core : Nat) (nonce : BitVec 512) (s : State) : Host.Outcome State Fault Refusal :=
  atCore (.mgmt io core) (fun s =>
    if !(s.core (.mgmt io core)).alive then s
    else
      let r := s.report nonce
      { s with reply := wordsOf8 2048 (r ++ Config.mldsaSign (Config.sha3 r)) }) s

/-! ### Reloading firmware (22 R390) -/

/-- FIRMWARE_RELOAD: a halted core, or a standby core not loaded yet, starts again at its entry block. -/
def State.reload (s : State) (c : CoreRef) : State :=
  match kindOf c with
  | .sysm => if s.boot.step = 5 ∧ !(s.core c).alive then s.release c else s
  | _ => s

/-- FIRMWARE_RELOAD (R390). -/
def execFirmwareReload (c : CoreRef) (s : State) : Host.Outcome State Fault Refusal := atCore c (·.reload c) s

end Sys2Proof.Machine
end

