-- ==== Sys2Proof/Machine/Dispatch.lean ====
section
/-! DEFINITION. One arm per row of the opcode table: each calls that row's meaning. -/

namespace Sys2Proof.Machine

/-- The meaning of every instruction and event of the opcode table. -/
def exec (i : Instr) (s : State) : Host.Outcome State Fault Refusal :=
  match i with
  | .nop st => Sys2Proof.Machine.execNop st s
  | .br st o => Sys2Proof.Machine.execBr st o s
  | .brv st c o => Sys2Proof.Machine.execBrv st c o s
  | .brn st c o => Sys2Proof.Machine.execBrn st c o s
  | .call st o => Sys2Proof.Machine.execCall st o s
  | .brx st a => Sys2Proof.Machine.execBrx st a s
  | .callThroughRegister st a => Sys2Proof.Machine.execCallThroughRegister st a s
  | .ret st a => Sys2Proof.Machine.execRet st a s
  | .loop st a d imm => Sys2Proof.Machine.execLoop st a d imm s
  | .exit st => Sys2Proof.Machine.execExit st s
  | .waitAll st => Sys2Proof.Machine.execWaitAll st s
  | .waitTime st a => Sys2Proof.Machine.execWaitTime st a s
  | .trap st i1 => Sys2Proof.Machine.execTrap st i1 s
  | .add st a b d => Sys2Proof.Machine.execAdd st a b d s
  | .sub st a b d => Sys2Proof.Machine.execSub st a b d s
  | .mul st a b d => Sys2Proof.Machine.execMul st a b d s
  | .mulh st a b d => Sys2Proof.Machine.execMulh st a b d s
  | .mulhu st a b d => Sys2Proof.Machine.execMulhu st a b d s
  | .div st a b d => Sys2Proof.Machine.execDiv st a b d s
  | .divu st a b d => Sys2Proof.Machine.execDivu st a b d s
  | .rem st a b d => Sys2Proof.Machine.execRem st a b d s
  | .remu st a b d => Sys2Proof.Machine.execRemu st a b d s
  | .and st a b d => Sys2Proof.Machine.execAnd st a b d s
  | .or st a b d => Sys2Proof.Machine.execOr st a b d s
  | .xor st a b d => Sys2Proof.Machine.execXor st a b d s
  | .andn st a b d => Sys2Proof.Machine.execAndn st a b d s
  | .shl st a b d => Sys2Proof.Machine.execShl st a b d s
  | .shr st a b d => Sys2Proof.Machine.execShr st a b d s
  | .sra st a b d => Sys2Proof.Machine.execSra st a b d s
  | .rol st a b d => Sys2Proof.Machine.execRol st a b d s
  | .ror st a b d => Sys2Proof.Machine.execRor st a b d s
  | .min st a b d => Sys2Proof.Machine.execMin st a b d s
  | .max st a b d => Sys2Proof.Machine.execMax st a b d s
  | .minu st a b d => Sys2Proof.Machine.execMinu st a b d s
  | .maxu st a b d => Sys2Proof.Machine.execMaxu st a b d s
  | .clz st a d => Sys2Proof.Machine.execClz st a d s
  | .ctz st a d => Sys2Proof.Machine.execCtz st a d s
  | .pop st a d => Sys2Proof.Machine.execPop st a d s
  | .mov st a d => Sys2Proof.Machine.execMov st a d s
  | .addi st a d i1 => Sys2Proof.Machine.execAddi st a d i1 s
  | .muli st a d i1 => Sys2Proof.Machine.execMuli st a d i1 s
  | .andi st a d i1 => Sys2Proof.Machine.execAndi st a d i1 s
  | .ori st a d i1 => Sys2Proof.Machine.execOri st a d i1 s
  | .xori st a d i1 => Sys2Proof.Machine.execXori st a d i1 s
  | .shli st a d i1 => Sys2Proof.Machine.execShli st a d i1 s
  | .shri st a d i1 => Sys2Proof.Machine.execShri st a d i1 s
  | .srai st a d i1 => Sys2Proof.Machine.execSrai st a d i1 s
  | .li st d imm => Sys2Proof.Machine.execLi st d imm s
  | .lih st a d imm => Sys2Proof.Machine.execLih st a d imm s
  | .test st a b d f => Sys2Proof.Machine.execTest st a b d f s
  | .fill st a b d => Sys2Proof.Machine.execFill st a b d s
  | .keep st a b d => Sys2Proof.Machine.execKeep st a b d s
  | .valid st a d => Sys2Proof.Machine.execValid st a d s
  | .kill st a d => Sys2Proof.Machine.execKill st a d s
  | .fadd st a b d r => Sys2Proof.Machine.execFadd st a b d r s
  | .fsub st a b d r => Sys2Proof.Machine.execFsub st a b d r s
  | .fmul st a b d r => Sys2Proof.Machine.execFmul st a b d r s
  | .fmin st a b d => Sys2Proof.Machine.execFmin st a b d s
  | .fmax st a b d => Sys2Proof.Machine.execFmax st a b d s
  | .fdiv st a b d r => Sys2Proof.Machine.execFdiv st a b d r s
  | .fsqrt st a d r => Sys2Proof.Machine.execFsqrt st a d r s
  | .ffma st a d b r c => Sys2Proof.Machine.execFfma st a d b r c s
  | .fabs st a d => Sys2Proof.Machine.execFabs st a d s
  | .fneg st a d => Sys2Proof.Machine.execFneg st a d s
  | .fclass st a d => Sys2Proof.Machine.execFclass st a d s
  | .ftest st a b d f => Sys2Proof.Machine.execFtest st a b d f s
  | .fcvt st a x y d r => Sys2Proof.Machine.execFcvt st a x y d r s
  | .pset st a d => Sys2Proof.Machine.execPset st a d s
  | .pinc st a d i1 => Sys2Proof.Machine.execPinc st a d i1 s
  | .phnd st a b d => Sys2Proof.Machine.execPhnd st a b d s
  | .pxy st a b d => Sys2Proof.Machine.execPxy st a b d s
  | .poff st a b d => Sys2Proof.Machine.execPoff st a b d s
  | .pget st a d f => Sys2Proof.Machine.execPget st a d f s
  | .ld st b c p d w => Sys2Proof.Machine.execLd st b c p d w s
  | .st st b x r p w => Sys2Proof.Machine.execSt st b x r p w s
  | .ldl st b c p d w q => Sys2Proof.Machine.execLdl st b c p d w q s
  | .ldfe st b c p d w q => Sys2Proof.Machine.execLdfe st b c p d w q s
  | .ldfeFec st b c p d w q => Sys2Proof.Machine.execLdfeFec st b c p d w q s
  | .stl st b x r p e w q => Sys2Proof.Machine.execStl st b x r p e w q s
  | .lda st b c p d w => Sys2Proof.Machine.execLda st b c p d w s
  | .chka st b c p d w => Sys2Proof.Machine.execChka st b c p d w s
  | .amo st a d op p o w x => Sys2Proof.Machine.execAmo st a d op p o w x s
  | .amocas st a d p o w x y => Sys2Proof.Machine.execAmocas st a d p o w x y s
  | .amol st a d op p o w x y => Sys2Proof.Machine.execAmol st a d op p o w x y s
  | .fence st p k => Sys2Proof.Machine.execFence st p k s
  | .pref st a => Sys2Proof.Machine.execPref st a s
  | .vadd st a b d => Sys2Proof.Machine.execVadd st a b d s
  | .vsub st a b d => Sys2Proof.Machine.execVsub st a b d s
  | .vmul st a b d => Sys2Proof.Machine.execVmul st a b d s
  | .vmulh st a b d => Sys2Proof.Machine.execVmulh st a b d s
  | .vmulhu st a b d => Sys2Proof.Machine.execVmulhu st a b d s
  | .vand st a b d => Sys2Proof.Machine.execVand st a b d s
  | .vor st a b d => Sys2Proof.Machine.execVor st a b d s
  | .vxor st a b d => Sys2Proof.Machine.execVxor st a b d s
  | .vandn st a b d => Sys2Proof.Machine.execVandn st a b d s
  | .vshl st a b d => Sys2Proof.Machine.execVshl st a b d s
  | .vshr st a b d => Sys2Proof.Machine.execVshr st a b d s
  | .vsra st a b d => Sys2Proof.Machine.execVsra st a b d s
  | .vmin st a b d => Sys2Proof.Machine.execVmin st a b d s
  | .vmax st a b d => Sys2Proof.Machine.execVmax st a b d s
  | .vminu st a b d => Sys2Proof.Machine.execVminu st a b d s
  | .vmaxu st a b d => Sys2Proof.Machine.execVmaxu st a b d s
  | .vpop st a d => Sys2Proof.Machine.execVpop st a d s
  | .vmov st a d => Sys2Proof.Machine.execVmov st a d s
  | .vfadd st a b d r => Sys2Proof.Machine.execVfadd st a b d r s
  | .vfsub st a b d r => Sys2Proof.Machine.execVfsub st a b d r s
  | .vfmul st a b d r => Sys2Proof.Machine.execVfmul st a b d r s
  | .vfmin st a b d => Sys2Proof.Machine.execVfmin st a b d s
  | .vfmax st a b d => Sys2Proof.Machine.execVfmax st a b d s
  | .vfabs st a d => Sys2Proof.Machine.execVfabs st a d s
  | .vfneg st a d => Sys2Proof.Machine.execVfneg st a d s
  | .vffma st a d b r c => Sys2Proof.Machine.execVffma st a d b r c s
  | .vtest st a b d f => Sys2Proof.Machine.execVtest st a b d f s
  | .vexp2 st a d => Sys2Proof.Machine.execVexp2 st a d s
  | .vrcp st a d => Sys2Proof.Machine.execVrcp st a d s
  | .vred st a d f => Sys2Proof.Machine.execVred st a d f s
  | .vscan st a d f => Sys2Proof.Machine.execVscan st a d f s
  | .vperm st a b d => Sys2Proof.Machine.execVperm st a b d s
  | .vcnt st a d => Sys2Proof.Machine.execVcnt st a d s
  | .vfill st a b d => Sys2Proof.Machine.execVfill st a b d s
  | .vkeep st a b d => Sys2Proof.Machine.execVkeep st a b d s
  | .vvalid st a d => Sys2Proof.Machine.execVvalid st a d s
  | .vkill st a d => Sys2Proof.Machine.execVkill st a d s
  | .vcvt st a x y d r => Sys2Proof.Machine.execVcvt st a x y d r s
  | .vpack16 st a b d => Sys2Proof.Machine.execVpack16 st a b d s
  | .vpack8 st a b d => Sys2Proof.Machine.execVpack8 st a b d s
  | .vunpk16 st a b d => Sys2Proof.Machine.execVunpk16 st a b d s
  | .vunpk8 st a b d => Sys2Proof.Machine.execVunpk8 st a b d s
  | .vext st a b d => Sys2Proof.Machine.execVext st a b d s
  | .vins st a b d => Sys2Proof.Machine.execVins st a b d s
  | .vidx st d => Sys2Proof.Machine.execVidx st d s
  | .vfdiv st a b d r => Sys2Proof.Machine.execVfdiv st a b d r s
  | .vfsqrt st a d r => Sys2Proof.Machine.execVfsqrt st a d r s
  | .vld st b c p d w => Sys2Proof.Machine.execVld st b c p d w s
  | .vst st b x r p w => Sys2Proof.Machine.execVst st b x r p w s
  | .vldl st b c p e d w q => Sys2Proof.Machine.execVldl st b c p e d w q s
  | .vstl st b x r p e w q => Sys2Proof.Machine.execVstl st b x r p e w q s
  | .vlds st b x d w => Sys2Proof.Machine.execVlds st b x d w s
  | .ydraw st a b d => Sys2Proof.Machine.execYdraw st a b d s
  | .ycmp st a b d c k => Sys2Proof.Machine.execYcmp st a b d c k s
  | .ycmpy st a b d c => Sys2Proof.Machine.execYcmpy st a b d c s
  | .ycopy st a d => Sys2Proof.Machine.execYcopy st a d s
  | .yext st a b d => Sys2Proof.Machine.execYext st a b d s
  | .ybits st a d => Sys2Proof.Machine.execYbits st a d s
  | .yst st b x r p => Sys2Proof.Machine.execYst st b x r p s
  | .yld st b c p d => Sys2Proof.Machine.execYld st b c p d s
  | .ysr st a b d f => Sys2Proof.Machine.execYsr st a b d f s
  | .halloc st lv ft d h rows cols => Sys2Proof.Machine.execHalloc st lv ft d h rows cols s
  | .hallocD st a d h => Sys2Proof.Machine.execHallocD st a d h s
  | .hwin st a d h len => Sys2Proof.Machine.execHwin st a d h len s
  | .hfree st a => Sys2Proof.Machine.execHfree st a s
  | .hinfo st a d => Sys2Proof.Machine.execHinfo st a d s
  | .binit st a b d => Sys2Proof.Machine.execBinit st a b d s
  | .barv st a d => Sys2Proof.Machine.execBarv st a d s
  | .bwait st a b d => Sys2Proof.Machine.execBwait st a b d s
  | .btest st a b d => Sys2Proof.Machine.execBtest st a b d s
  | .bexp st a b => Sys2Proof.Machine.execBexp st a b s
  | .gjoin st a b d => Sys2Proof.Machine.execGjoin st a b d s
  | .gleave st a => Sys2Proof.Machine.execGleave st a s
  | .ginfo st a d => Sys2Proof.Machine.execGinfo st a d s
  | .gauge st a b => Sys2Proof.Machine.execGauge st a b s
  | .gadv st a d => Sys2Proof.Machine.execGadv st a d s
  | .cpy st h1 h2 n ch dir post bar => Sys2Proof.Machine.execCpy st h1 h2 n ch dir post bar s
  | .cpym st h1 h2 n ch post bar => Sys2Proof.Machine.execCpym st h1 h2 n ch post bar s
  | .tld st h1 h2 n ch post bar x => Sys2Proof.Machine.execTld st h1 h2 n ch post bar x s
  | .tst st h1 h2 n ch post bar x => Sys2Proof.Machine.execTst st h1 h2 n ch post bar x s
  | .xwait st a b d => Sys2Proof.Machine.execXwait st a b d s
  | .xstat st a d => Sys2Proof.Machine.execXstat st a d s
  | .mfmt st a af bf => Sys2Proof.Machine.execMfmt st a af bf s
  | .mma st h1 h2 n zero post bar acc => Sys2Proof.Machine.execMma st h1 h2 n zero post bar acc s
  | .mmag st h1 h2 n zero post bar acc ix => Sys2Proof.Machine.execMmag st h1 h2 n zero post bar acc ix s
  | .mdrain st h1 h2 n r post bar => Sys2Proof.Machine.execMdrain st h1 h2 n r post bar s
  | .qnt st h1 h2 n r post bar => Sys2Proof.Machine.execQnt st h1 h2 n r post bar s
  | .msend st a cls imm => Sys2Proof.Machine.execMsend st a cls imm s
  | .launch st a b => Sys2Proof.Machine.execLaunch st a b s
  | .doneI st a b => Sys2Proof.Machine.execDoneI st a b s
  | .crd st d c => Sys2Proof.Machine.execCrd st d c s
  | .cwr st a c => Sys2Proof.Machine.execCwr st a c s
  | .eret st => Sys2Proof.Machine.execEret st s
  | .inten st a => Sys2Proof.Machine.execInten st a s
  | .intdis st a => Sys2Proof.Machine.execIntdis st a s
  | .sleep st => Sys2Proof.Machine.execSleep st s
  | .tlbinvPage st a => Sys2Proof.Machine.execTlbinvPage st a s
  | .tlbinvCtx st a => Sys2Proof.Machine.execTlbinvCtx st a s
  | .tlbinvAll st => Sys2Proof.Machine.execTlbinvAll st s
  | .halt st => Sys2Proof.Machine.execHalt st s
  | .blockEntry c => Sys2Proof.Machine.execBlockEntry c s
  | .variableLatencyCompletion c id => Sys2Proof.Machine.execVariableLatencyCompletion c id s
  | .blockReplay c => Sys2Proof.Machine.execBlockReplay c s
  | .sleepWake c => Sys2Proof.Machine.execSleepWake c s
  | .taskTake c => Sys2Proof.Machine.execTaskTake c s
  | .stealRequest c => Sys2Proof.Machine.execStealRequest c s
  | .stealAnswer c => Sys2Proof.Machine.execStealAnswer c s
  | .stealBackoffExpiry c => Sys2Proof.Machine.execStealBackoffExpiry c s
  | .stitchMessageArrival i1 => Sys2Proof.Machine.execStitchMessageArrival i1 s
  | .stitchMessageRun t => Sys2Proof.Machine.execStitchMessageRun t s
  | .remoteAccessArrival i1 => Sys2Proof.Machine.execRemoteAccessArrival i1 s
  | .consumingLoadServed c id => Sys2Proof.Machine.execConsumingLoadServed c id s
  | .storeBufferDrain t i1 => Sys2Proof.Machine.execStoreBufferDrain t i1 s
  | .homeSliceRead c id bad => Sys2Proof.Machine.execHomeSliceRead c id bad s
  | .homeSliceWrite t i1 => Sys2Proof.Machine.execHomeSliceWrite t i1 s
  | .homeSliceAtomic c id => Sys2Proof.Machine.execHomeSliceAtomic c id s
  | .undoLogSpaceFreed t i1 => Sys2Proof.Machine.execUndoLogSpaceFreed t i1 s
  | .zeroPendingBackground chip frame => Sys2Proof.Machine.execZeroPendingBackground chip frame s
  | .zeroPendingTableFreed t i1 => Sys2Proof.Machine.execZeroPendingTableFreed t i1 s
  | .channelRetireRequest stack ch => Sys2Proof.Machine.execChannelRetireRequest stack ch s
  | .pageWalk t va => Sys2Proof.Machine.execPageWalk t va s
  | .busyReread c id => Sys2Proof.Machine.execBusyReread c id s
  | .busyTimeout c id => Sys2Proof.Machine.execBusyTimeout c id s
  | .tlbinvComplete c => Sys2Proof.Machine.execTlbinvComplete c s
  | .forcePage frame => Sys2Proof.Machine.execForcePage frame s
  | .frameStatusRead frame => Sys2Proof.Machine.execFrameStatusRead frame s
  | .pinRetry t x => Sys2Proof.Machine.execPinRetry t x s
  | .hallocComplete c id => Sys2Proof.Machine.execHallocComplete c id s
  | .hfreeComplete t h => Sys2Proof.Machine.execHfreeComplete t h s
  | .unitScrubDone t level => Sys2Proof.Machine.execUnitScrubDone t level s
  | .windowLineFill c id => Sys2Proof.Machine.execWindowLineFill c id s
  | .transferStart t x => Sys2Proof.Machine.execTransferStart t x s
  | .transferFinish t x => Sys2Proof.Machine.execTransferFinish t x s
  | .transferFault t x cause => Sys2Proof.Machine.execTransferFault t x cause s
  | .slowPathRetry t x => Sys2Proof.Machine.execSlowPathRetry t x s
  | .slowPageSkip t x => Sys2Proof.Machine.execSlowPageSkip t x s
  | .slowPathFinish t x => Sys2Proof.Machine.execSlowPathFinish t x s
  | .matrixStart t => Sys2Proof.Machine.execMatrixStart t s
  | .matrixCompletion t fringe => Sys2Proof.Machine.execMatrixCompletion t fringe s
  | .drainCompletion t => Sys2Proof.Machine.execDrainCompletion t s
  | .multicastReceive i1 => Sys2Proof.Machine.execMulticastReceive i1 s
  | .multicastAck i1 => Sys2Proof.Machine.execMulticastAck i1 s
  | .barrierArrival i1 => Sys2Proof.Machine.execBarrierArrival i1 s
  | .groupRequestArrival i1 => Sys2Proof.Machine.execGroupRequestArrival i1 s
  | .zephyrFillRequest chip ctx req => Sys2Proof.Machine.execZephyrFillRequest chip ctx req s
  | .zephyrFillComplete chip => Sys2Proof.Machine.execZephyrFillComplete chip s
  | .kick i1 => Sys2Proof.Machine.execKick i1 s
  | .slotLoaded chip slot => Sys2Proof.Machine.execSlotLoaded chip slot s
  | .packetFetch chip slot => Sys2Proof.Machine.execPacketFetch chip slot s
  | .recordPlacement chip slot => Sys2Proof.Machine.execRecordPlacement chip slot s
  | .slotPoll chip slot => Sys2Proof.Machine.execSlotPoll chip slot s
  | .unmapComplete chip slot => Sys2Proof.Machine.execUnmapComplete chip slot s
  | .queueDescriptorWrite q d => Sys2Proof.Machine.execQueueDescriptorWrite q d s
  | .queueDestroy q => Sys2Proof.Machine.execQueueDestroy q s
  | .queueAclWrite i1 e => Sys2Proof.Machine.execQueueAclWrite i1 e s
  | .schedulerScan chip => Sys2Proof.Machine.execSchedulerScan chip s
  | .standbyTakeover chip => Sys2Proof.Machine.execStandbyTakeover chip s
  | .cmdMap c w => Sys2Proof.Machine.execCmdMap c w s
  | .cmdUnmap c w => Sys2Proof.Machine.execCmdUnmap c w s
  | .cmdPrio c w => Sys2Proof.Machine.execCmdPrio c w s
  | .grel c w => Sys2Proof.Machine.execGrel c w s
  | .journalHalfStore c a w => Sys2Proof.Machine.execJournalHalfStore c a w s
  | .qeClear c => Sys2Proof.Machine.execQeClear c s
  | .registerWrite c a w => Sys2Proof.Machine.execRegisterWrite c a w s
  | .kernelBoundary k => Sys2Proof.Machine.execKernelBoundary k s
  | .completionStore k => Sys2Proof.Machine.execCompletionStore k s
  | .gateAdmit k => Sys2Proof.Machine.execGateAdmit k s
  | .ringSpaceFreed c id => Sys2Proof.Machine.execRingSpaceFreed c id s
  | .contextCreate r => Sys2Proof.Machine.execContextCreate r s
  | .creationScrubDone ctx => Sys2Proof.Machine.execCreationScrubDone ctx s
  | .tableStreamRequest ctx a => Sys2Proof.Machine.execTableStreamRequest ctx a s
  | .quantumExpiry ctx => Sys2Proof.Machine.execQuantumExpiry ctx s
  | .preEmptRequest ctx => Sys2Proof.Machine.execPreEmptRequest ctx s
  | .stopWindowExpiry ctx => Sys2Proof.Machine.execStopWindowExpiry ctx s
  | .stopRetry ctx => Sys2Proof.Machine.execStopRetry ctx s
  | .stoplate ctx => Sys2Proof.Machine.execStoplate ctx s
  | .contextPaused ctx => Sys2Proof.Machine.execContextPaused ctx s
  | .saveAcknowledge t => Sys2Proof.Machine.execSaveAcknowledge t s
  | .finalCopy ctx => Sys2Proof.Machine.execFinalCopy ctx s
  | .restoreRequest ctx vx0 vy0 => Sys2Proof.Machine.execRestoreRequest ctx vx0 vy0 s
  | .restoreVerified ctx good => Sys2Proof.Machine.execRestoreVerified ctx good s
  | .debugStop ctx => Sys2Proof.Machine.execDebugStop ctx s
  | .debugResume ctx => Sys2Proof.Machine.execDebugResume ctx s
  | .debugStep t => Sys2Proof.Machine.execDebugStep t s
  | .debugAccess t sel i1 w => Sys2Proof.Machine.execDebugAccess t sel i1 w s
  | .destroyRequest ctx => Sys2Proof.Machine.execDestroyRequest ctx s
  | .driftIntervalExpiry chip => Sys2Proof.Machine.execDriftIntervalExpiry chip s
  | .driftRequest p => Sys2Proof.Machine.execDriftRequest p s
  | .driftIntervalSet chip us => Sys2Proof.Machine.execDriftIntervalSet chip us s
  | .drainWindowExpiry chip => Sys2Proof.Machine.execDrainWindowExpiry chip s
  | .driftFreeze chip => Sys2Proof.Machine.execDriftFreeze chip s
  | .quiesceComplete chip => Sys2Proof.Machine.execQuiesceComplete chip s
  | .imageComplete chip => Sys2Proof.Machine.execImageComplete chip s
  | .routerApplyEntry chip router => Sys2Proof.Machine.execRouterApplyEntry chip router s
  | .forwardingEnd chip => Sys2Proof.Machine.execForwardingEnd chip s
  | .forwardedArrival chip => Sys2Proof.Machine.execForwardedArrival chip s
  | .driftResume chip cycles => Sys2Proof.Machine.execDriftResume chip cycles s
  | .testComplete p response cycles => Sys2Proof.Machine.execTestComplete p response cycles s
  | .castOff p reason => Sys2Proof.Machine.execCastOff p reason s
  | .routingRewrite p tab => Sys2Proof.Machine.execRoutingRewrite p tab s
  | .testPackageInstall image => Sys2Proof.Machine.execTestPackageInstall image s
  | .retentionEntry p bank => Sys2Proof.Machine.execRetentionEntry p bank s
  | .retentionExit p bank corrected => Sys2Proof.Machine.execRetentionExit p bank corrected s
  | .patrolScrub p corrected => Sys2Proof.Machine.execPatrolScrub p corrected s
  | .recoveryIntervalExpiry ctx => Sys2Proof.Machine.execRecoveryIntervalExpiry ctx s
  | .waveWindowExpiry ctx => Sys2Proof.Machine.execWaveWindowExpiry ctx s
  | .cut ctx => Sys2Proof.Machine.execCut ctx s
  | .sealPoint ctx => Sys2Proof.Machine.execSealPoint ctx s
  | .deltaMerge ctx => Sys2Proof.Machine.execDeltaMerge ctx s
  | .seallate ctx => Sys2Proof.Machine.execSeallate ctx s
  | .rollback ctx => Sys2Proof.Machine.execRollback ctx s
  | .logRead log n => Sys2Proof.Machine.execLogRead log n s
  | .linkTrained l lanes => Sys2Proof.Machine.execLinkTrained l lanes s
  | .laneLost l => Sys2Proof.Machine.execLaneLost l s
  | .retrainTimer l => Sys2Proof.Machine.execRetrainTimer l s
  | .linkTrainRequest l => Sys2Proof.Machine.execLinkTrainRequest l s
  | .flitReceive l good => Sys2Proof.Machine.execFlitReceive l good s
  | .peerDataFlit port flit => Sys2Proof.Machine.execPeerDataFlit port flit s
  | .peerAckFlit port flit => Sys2Proof.Machine.execPeerAckFlit port flit s
  | .peerRefusalFlit port flit => Sys2Proof.Machine.execPeerRefusalFlit port flit s
  | .peerKeepAlive port flit => Sys2Proof.Machine.execPeerKeepAlive port flit s
  | .connectionTimeout conn => Sys2Proof.Machine.execConnectionTimeout conn s
  | .peerlost conn => Sys2Proof.Machine.execPeerlost conn s
  | .hostPostedWrite port bar addr data => Sys2Proof.Machine.execHostPostedWrite port bar addr data s
  | .hostRead port bar addr n => Sys2Proof.Machine.execHostRead port bar addr n s
  | .hostAtomicop port bar addr op x y => Sys2Proof.Machine.execHostAtomicop port bar addr op x y s
  | .powerSample chip watts => Sys2Proof.Machine.execPowerSample chip watts s
  | .capTick chip => Sys2Proof.Machine.execCapTick chip s
  | .freqSetWrite chip mhz => Sys2Proof.Machine.execFreqSetWrite chip mhz s
  | .senseSample chip mv => Sys2Proof.Machine.execSenseSample chip mv s
  | .regulatorRecalibration chip => Sys2Proof.Machine.execRegulatorRecalibration chip s
  | .gustAcknowledge chip => Sys2Proof.Machine.execGustAcknowledge chip s
  | .gustSettle chip => Sys2Proof.Machine.execGustSettle chip s
  | .thermalSample chip readings => Sys2Proof.Machine.execThermalSample chip readings s
  | .thermalLevelDecay chip => Sys2Proof.Machine.execThermalLevelDecay chip s
  | .alertClear chip => Sys2Proof.Machine.execAlertClear chip s
  | .tileHold t => Sys2Proof.Machine.execTileHold t s
  | .tileGate t => Sys2Proof.Machine.execTileGate t s
  | .wakeCause t => Sys2Proof.Machine.execWakeCause t s
  | .inrushAdmit chip => Sys2Proof.Machine.execInrushAdmit chip s
  | .wakeComplete t => Sys2Proof.Machine.execWakeComplete t s
  | .powerOnReset => Sys2Proof.Machine.execPowerOnReset s
  | .bootImageFetched image => Sys2Proof.Machine.execBootImageFetched image s
  | .bootRetry => Sys2Proof.Machine.execBootRetry s
  | .controllerReady chip ranges => Sys2Proof.Machine.execControllerReady chip ranges s
  | .attestationRequest io core nonce => Sys2Proof.Machine.execAttestationRequest io core nonce s
  | .senderTimeOut c id => Sys2Proof.Machine.execSenderTimeOut c id s
  | .tileHardFailure p => Sys2Proof.Machine.execTileHardFailure p s
  | .waveRetry ctx => Sys2Proof.Machine.execWaveRetry ctx s
  | .firmwareReload c => Sys2Proof.Machine.execFirmwareReload c s

end Sys2Proof.Machine
end

