-- ==== Sys2Proof/Machine/EvFault.lean ====
section
/-! DEFINITION. Faults that come from outside and that no row of the opcode table names (16 R251-R253, R260): they stand in the
agenda as turns of their own. -/

namespace Sys2Proof.Machine

/-- An uncorrectable word in a tile's SRAM (R251, R253): two bits in active mode, or three in retention mode. It counts against the
tile (R263), and the owning context rolls back; on a tile of no context it is logged (R252). -/
def State.badSram (s : State) (p : Nat) : State :=
  let s := s.countFault p 4
  match (s.virtOf p).bind (fun t => (s.tile t).ctx) with
  | some n => s.reportFault n
  | none => s.faultFree (p / 272)

/-- The same in a home cache: the contexts whose partition holds the chiplet roll back (log 61). -/
def State.badCache (s : State) (chip : Nat) : State := s.droop chip

/-- A read by any agent meets an uncorrectable error (R260): `bad` has a bit for each member of the stripe that fails. -/
def State.badReadAt (s : State) (pa bad : Nat) : State := (s.readCheck pa bad).1

/-- An uncorrectable read of a system or management core's memory (R251; 22 R390, R391): of instructions, it halts the core; of
data, it is a machine check of KIND 3, taken at the next block entry, under INH a halt. -/
def State.badCore (s : State) (c : CoreRef) (inst : Bool) (a : Nat) : State :=
  if kindOf c ≠ .sysm ∨ !(s.core c).alive then s
  else
    let cause := mcauseVal (if inst then 2 else 3) 0 false (BitVec.ofNat 64 a)
    if inst || (s.core c).inh then s.haltCore c cause else s.modCore c (fun x => { x with mc := true, mcause := cause })

end Sys2Proof.Machine
end

