-- ==== Sys2Proof/Machine/Schedule.lean ====
section
/-! DEFINITION. What happens at a step: the turn of a core, an event, or a part of the machine's work that no event names.

The order in which agents act is not the spec's: it stands in `State.agenda`, and any order may stand there (log 1). With
nothing there, the cores take turns and each event that some core waits for comes about in time. -/

namespace Sys2Proof.Machine

/-! ### Fetching a word of the block (03 R45, R46) -/

/-- What stands at a core's next word: none past the last word of its block. -/
def Blk.decoded (b : Blk) : Option Decoded :=
  match b.words.drop b.widx with
  | [] => Option.none
  | [w] => some (decodeWords w.toNat Option.none)
  | w :: v :: _ => some (decodeWords w.toNat (some v.toNat))

/-- A word that is no instruction: the checks of R67 in their order, of which the last fails. -/
def illegalIns (opc : Nat) (b : Blk) : Ins :=
  let w := ((b.words.drop b.widx).headD 0).toNat
  let v := ((b.words.drop (b.widx + 1)).headD 0).toNat
  { opc := opc, aux := (opc == 0x3e && v / 2 ^ 12 % 2 == 1) || (opc == 0x77 && fieldN w 0 5 == 1),
    sysReg := (opc == 0x78 || opc == 0x79) && crSys (fieldN w 0 16), st := 0, legal := fun _ => false, srcs := [], need := [] }

/-- A word that is no instruction traps (R67 steps 1-4). -/
def illegal (opc : Nat) (b : Blk) (s : State) : Host.Outcome State Fault Refusal := issue (illegalIns opc b) suppNone suppNone s

/-- The next word of the current core's block: an instruction runs. -/
def runWord (s : State) : Host.Outcome State Fault Refusal :=
  let b := (s.core s.cur).blk
  match b.decoded with
  | none => .next (s.modCore s.cur (·.advance 0 0))
  | some (.instr i _) => exec i s
  | some (.unassigned _) => illegal 0 b s
  | some (.reserved o) => illegal o b s
  | some (.straddle o) => illegal o b s

/-- The turn of the current core: it runs its next word, enters its next block, looks for work, or wakes. The save handler is
firmware, which ends with ERET (08 R157). -/
def coreTurn (s : State) : Host.Outcome State Fault Refusal :=
  let x := s.core s.cur
  if x.sel = .msg then runWord s
  else match x.phase with
    | .running => runWord s
    | .saving _ => exec (.eret 0) s
    | .entering _ _ => exec (.blockEntry s.cur) { s with time := s.time + 1 }
    | .sleeping _ => exec (.sleepWake s.cur) { s with time := s.time + 1 }
    | .idle => exec (.taskTake s.cur) s
    | .paused _ => .next s
    | .halted => .next s
    | .unloaded => .next s

/-! ### The turns of the agenda -/

/-- An event, as against an instruction of a core: it has no encoding. -/
def isEvent (i : Instr) : Bool := (encode i).isEmpty

/-- A part of a running transfer moves. -/
def State.movePart (s : State) (t x n : Nat) : State :=
  match (s.tile t).xfer? x with
  | some k => if k.st = .running ∧ k.kind ≠ 1 ∧ !s.frozen t ∧ !(s.ctxOfTile t).fault then (s.xferMove t k n).1 else s
  | none => s

/-- A nanosecond passes that a chiplet's copy of cr.time does not count yet; a copy catches up by one (18 R293). -/
def State.copyStays (s : State) (n : Nat) : State :=
  { s with time := s.time + 1, lag := mput s.lag n (min 2 (mget 0 s.lag n + 1)) }
def State.copyCatches (s : State) (n : Nat) : State := { s with lag := mput s.lag n (mget 0 s.lag n - 1) }

/-- One turn. -/
def runTurn (t : Turn) (s : State) : Host.Outcome State Fault Refusal :=
  match t with
  | .core c => if coreExists c then coreTurn { s with cur := c } else .fault .noSuchCore
  | .event i => if isEvent i then exec i s else .next s
  | .tick ns => .next { s with time := s.time + ns }
  | .dropL1 t line => .next (s.modTile t (fun v => { v with l1 := mdel v.l1 line }))
  | .dropI t line => .next (s.modTile t (fun v => { v with icache := mdel v.icache line }))
  | .dropTlb t k => .next (s.modTile t (fun v => { v with tlb := delAt v.tlb k }))
  | .dropShared chip k => .next (s.modChip chip (fun h => { h with tlb := delAt h.tlb k }))
  | .move t x n => .next (s.movePart t x n)
  | .rows t n => .next (s.drainHead t (fun s m => s.drainRows t m n))
  | .unit t i => .next (s.otherUnit t i)
  | .badRead pa bad => .next (s.badReadAt pa bad)
  | .badSram p => .next (s.badSram p)
  | .badCache chip => .next (s.badCache chip)
  | .badPoints n => .next (s.modCtx n (fun x => { x with lostPoints := true }))
  | .badCore c inst a => .next (s.badCore c inst a)
  | .deadRouter p => .next (s.deadRouter p)
  | .measure d => .next (s.measure d)
  | .retire p => .next (s.retire p)
  | .settle n => .next (s.settle n)
  | .posted port => .next (s.postedGo port)
  | .reroute => .next s.reroute.fenceGo
  | .dequeue q => .next (s.dequeue q)
  | .logOut n => .next (s.logOut n)
  | .copyStays n => .next (s.copyStays n)
  | .copyCatches n => .next (s.copyCatches n)
  | .drifts chip => .next (s.driftsGo [chip])
  | .bootFetch => .next s.bootFetch

/-! ### The order where none is given -/

/-- The events that come about by themselves while a core waits. -/
inductive Auto where
  | deliver (c : CoreRef) (id : Nat)
  | homeRead (c : CoreRef) (id : Nat)
  | reread (c : CoreRef) (id : Nat)
  | homeAtomic (c : CoreRef) (id : Nat)
  | serve (c : CoreRef) (id : Nat)
  | halloc (c : CoreRef) (id : Nat)
  | window (c : CoreRef) (id : Nat)
  | ring (c : CoreRef) (id : Nat)
  | gateIn (k : Nat)
  | tlbinv (c : CoreRef)
  | drain (t : Nat)
  | homeWrite (t : Nat)
  | start (t x : Nat)
  | finish (t x : Nat)
  | matStart (t : Nat)
  | matDone (t : Nat)
  | drainDone (t : Nat)
  | hfree (t h : Nat)
  | message (t : Nat)
  | scrub (t l : Nat)
  | woken (t : Nat)
  | inrush (chip : Nat)
  | flit (l : Nat)
  | remote (i : Nat)
  | stitch (i : Nat)
  | group (i : Nat)
  | mcast (i : Nat)
  | arrival (i : Nat)
  | mack (i : Nat)
  | kick
  | loaded (chip m : Nat)
  | fetch (chip m : Nat)
  | place (chip m : Nat)
  | poll (chip m : Nat)
  | unmapped (chip m : Nat)
  | boundary (k : Nat)
  | completion (k : Nat)
  | settle (n : Nat)
  | posted (port : Nat)
  | reroute
  | dequeue (q : Nat)
  | retire (p : Nat)
  | bank (p b : Nat)
  | logOut (n : Nat)
  | drifts (chip : Nat)
  | bootFetch
deriving DecidableEq, Repr

/-- The meaning of each is that of its row of the opcode table, or of a turn of its own. -/
def Auto.run (e : Auto) (s : State) : Host.Outcome State Fault Refusal :=
  match e with
  | .deliver c id => execVariableLatencyCompletion c id s
  | .homeRead c id => execHomeSliceRead c id 0 s
  | .reread c id => execBusyReread c id s
  | .homeAtomic c id => execHomeSliceAtomic c id s
  | .serve c id => execConsumingLoadServed c id s
  | .halloc c id => execHallocComplete c id s
  | .window c id => execWindowLineFill c id s
  | .ring c id => execRingSpaceFreed c id s
  | .gateIn k => execGateAdmit k s
  | .tlbinv c => execTlbinvComplete c s
  | .drain t => execStoreBufferDrain t 0 s
  | .homeWrite t => execHomeSliceWrite t 0 s
  | .start t x => execTransferStart t x s
  | .finish t x => execTransferFinish t x s
  | .matStart t => execMatrixStart t s
  | .matDone t => execMatrixCompletion t 0 s
  | .drainDone t => execDrainCompletion t s
  | .hfree t h => execHfreeComplete t h s
  | .message t => execStitchMessageRun t s
  | .scrub t l => execUnitScrubDone t l s
  | .woken t => execWakeComplete t s
  | .inrush chip => execInrushAdmit chip s
  | .flit l => execFlitReceive l true s
  | .remote i => execRemoteAccessArrival i s
  | .stitch i => execStitchMessageArrival i s
  | .group i => execGroupRequestArrival i s
  | .mcast i => execMulticastReceive i s
  | .arrival i => execBarrierArrival i s
  | .mack i => execMulticastAck i s
  | .kick => execKick 0 s
  | .loaded chip m => execSlotLoaded chip m s
  | .fetch chip m => execPacketFetch chip m s
  | .place chip m => execRecordPlacement chip m s
  | .poll chip m => execSlotPoll chip m s
  | .unmapped chip m => execUnmapComplete chip m s
  | .boundary k => execKernelBoundary k s
  | .completion k => execCompletionStore k s
  | .settle n => .next (s.settle n)
  | .posted port => .next (s.postedGo port)
  | .reroute => .next s.reroute.fenceGo
  | .dequeue q => .next (s.dequeue q)
  | .retire p => .next (s.retire p)
  | .bank p b => execRetentionExit p b 0 s
  | .logOut n => .next (s.logOut n)
  | .drifts chip => .next (s.driftsGo [chip])
  | .bootFetch => .next s.bootFetch

/-- Events that a result in flight waits for. -/
def flightEvents (c : CoreRef) (f : Flight) : List Auto :=
  if f.res.isSome then [.deliver c f.id]
  else match f.kind with
    | .plain => []
    | .load _ _ => [.homeRead c f.id]
    | .busy _ _ => [.reread c f.id]
    | .atomic _ => [.homeAtomic c f.id]
    | .await => [.serve c f.id]
    | .bwait => []
    | .halloc _ _ _ => [.halloc c f.id]
    | .hwin _ _ _ _ _ => [.halloc c f.id]
    | .table _ _ _ _ _ none => [.reread c f.id]
    | .table _ _ _ _ _ (some _) => [.homeRead c f.id]
    | .xwait _ _ => []
    | .window _ _ => [.window c f.id]
    | .launch _ => [.ring c f.id]
    | .gate _ _ => (f.kern.map Auto.gateIn).toList
    | .tlbinv _ _ _ => [.tlbinv c]
    | .held _ => [.deliver c f.id]
    | .chka _ => []

/-- Events of a tile's own units. -/
def tileEvents (t : Nat) (v : VTile) : List Auto :=
  (match v.sbuf with
    | e :: _ => [if e.sent then .homeWrite t else .drain t]
    | [] => []) ++
  v.xfers.map (fun x => if x.st = .queued then .start t x.order else .finish t x.order) ++
  (if v.mq.isEmpty then [] else [.matStart t, .matDone t]) ++ (if v.dq.isEmpty then [] else [.drainDone t]) ++
  (v.handles.filter (fun h => h.2.st == .freeing)).map (fun h => .hfree t h.1) ++
  (if v.msgs.isEmpty then [] else [.message t]) ++ (if v.scrub.all (· == 0) then [] else [0, 1, 2].map (.scrub t)) ++
  (match v.power with
    | .waking _ => [.woken t]
    | .queued => [.inrush (chipOf t)]
    | _ => [])

/-- The events that the items of the networks wait for. -/
def netEvents (l : List NetItem) : List Auto :=
  (l.zipIdx.filter (fun e => !e.1.parked)).map (fun e => match e.1.flit with
    | some (k, _) => .flit k
    | none => match e.1.body with
      | .acc _ _ _ => .remote e.2
      | .msg _ => .stitch e.2
      | .grp _ => .group e.2
      | .mcast _ _ _ _ _ _ _ => .mcast e.2
      | .mack _ _ _ counted => if counted then .mack e.2 else .arrival e.2)

/-- Events of queue slots and kernels. -/
def workEvents (s : State) : List Auto :=
  s.chips.flatMap (fun h => h.2.slots.flatMap (fun e => match e.2.st with
    | .mapping => [.loaded h.1 e.1]
    | .active => [.fetch h.1 e.1, .place h.1 e.1]
    | .idle => [.poll h.1 e.1]
    | .unmapping => [.place h.1 e.1, .unmapped h.1 e.1])) ++
  s.kernels.flatMap (fun e => match e.2.st with
    | .running => [.boundary e.1]
    | .boundary => [if e.2.boundaryDone then .completion e.1 else .boundary e.1]
    | _ => []) ++
  s.ctxs.flatMap (fun e => if e.2.destroyReq || e.2.waitSave || e.2.waitDebug then [.settle e.1] else []) ++
  s.ctxs.flatMap (fun e => if e.2.log.dirty then [.logOut e.1] else []) ++ s.posted.map (fun w => .posted w.port) ++
  (if s.rewrites.isEmpty && s.fenceDue.isEmpty then [] else [.reroute]) ++ s.dequeues.map .dequeue ++
  s.phys.flatMap (fun e => e.2.retention.map (.bank e.1)) ++
  s.phys.flatMap (fun e => if e.2.retire = 0 ∧ e.2.castDue = 0 then [] else [.retire e.1]) ++
  s.chips.flatMap (fun h => h.2.failWait.map .retire) ++
  s.chips.flatMap (fun h => if h.2.driftWait.isEmpty then [] else [.drifts h.1]) ++ (if s.boot.step = 1 then [.bootFetch] else [])

/-- The events that may come about while the current core can do nothing. -/
def waitEvents (s : State) : List Auto :=
  (s.core s.cur).flights.flatMap (flightEvents s.cur) ++
    (match kindOf s.cur with
      | .sysm => []
      | _ => tileEvents (tileOf s.cur) (s.tile (tileOf s.cur))) ++
    netEvents s.net ++ (if s.kicks.isEmpty then [] else [.kick]) ++ workEvents s

/-- The cores that some component of the state names. -/
def liveCores (s : State) : List CoreRef :=
  s.tiles.flatMap (fun e => tileCores e.1) ++ s.chips.flatMap (fun e => [.sys e.1 0, .sys e.1 1]) ++
    (rangeFrom 0 16).map (fun i => .mgmt (i / 4) (i % 4))

/-- The core after a given one. -/
def nextOf (c : CoreRef) : List CoreRef → CoreRef → CoreRef
  | [], d => d
  | x :: r, d => if x = c then r.headD d else nextOf c r d

/-- The current core can do nothing now. -/
def State.stuck (s : State) : Bool :=
  let x := s.core s.cur
  x.blocked || s.stopped s.cur || (x.sel != .msg && (match x.phase with
    | .idle => true
    | .paused _ => true
    | .halted => true
    | .unloaded => true
    | .sleeping _ => true
    | _ => false))

/-- One of the events that may come about, and the next core's turn comes. -/
def idleTurn (s : State) : Host.Outcome State Fault Refusal :=
  let l := waitEvents s
  let cs := liveCores s
  let s' := { s.modCore s.cur (fun x => { x with blocked := false }) with
    time := s.time + 1, cur := if (s.core s.cur).blocked then s.cur else nextOf s.cur cs (cs.headD s.cur) }
  match l[s.time % max l.length 1]? with
  | some e => e.run s'
  | none => .next { s' with cur := nextOf s.cur cs (cs.headD s.cur) }

/-- Without an agenda: the current core's turn; a core that waits lets other things happen first. -/
def freeTurn (s : State) : Host.Outcome State Fault Refusal :=
  let x := s.core s.cur
  if !s.stuck then coreTurn s
  else match x.phase with
    | .idle => if s.canStart s.cur ∧ !((s.tile (tileOf s.cur)).deque (isFeeder s.cur)).isEmpty then coreTurn s else idleTurn s
    | .sleeping _ => if s.wakeBit s.cur then coreTurn s else idleTurn s
    | _ => idleTurn s

end Sys2Proof.Machine
end

