-- ==== Sys2Proof/Machine/Step.lean ====
section
/-! DEFINITION. One step of the machine, and placing an instruction where the next step fetches. -/

namespace Sys2Proof.Machine

/-- One step: the first turn of the agenda, or, where it is empty, the turn that falls to the current core. -/
def step (s : State) : Host.Outcome State Fault Refusal :=
  match s.agenda with
  | t :: r => runTurn t { s with agenda := r }
  | [] => freeTurn s

/-- The core that runs a placed instruction: the worker of tile 0, in user mode; for the system opcodes a system core. -/
def placeCore (w : Nat) : CoreRef := if 0x7a ≤ fieldN w 22 7 ∧ fieldN w 22 7 ≤ 0x7e then .sys 0 0 else .worker 0

/-- An instruction of which the opcode table gives `nbits` bits, as the two words of a block whose first word is the next
that `step` fetches. -/
def State.withFetchWord (s : State) (nbits w : Nat) : State :=
  let x := w % 2 ^ nbits
  let ws : List W32 := wordsOf (natBytes 8 x)
  { s.modCore (placeCore x) (fun y =>
      { y with phase := .running, sel := .norm, blocked := false,
               blk := { hdr := 0, head := 0, words := ws, widx := 0, slot := 0 } }) with cur := placeCore x, agenda := [] }

end Sys2Proof.Machine
end

