-- ==== Sys2Proof/WellFormed.lean ====
section
/-! DEFINITION. Terms of `Instr` that stand for something: an instruction that the encoding tables give words (03 R60-R66), an
event whose operands name an agent of the panel (01 R2, R10-R13). -/

namespace Sys2Proof

open Sys2Proof.Machine (coreExists)

/-- The term stands for an instruction or an event. AMO with OP 9 is written AMOCAS (21 R356). -/
def Instr.wf : Instr → Bool
  | .nop _ => true
  | .br _ _ => true
  | .brv _ _ _ => true
  | .brn _ _ _ => true
  | .call _ _ => true
  | .brx _ _ => true
  | .callThroughRegister _ _ => true
  | .ret _ _ => true
  | .loop _ _ _ _ => true
  | .exit _ => true
  | .waitAll _ => true
  | .waitTime _ _ => true
  | .trap _ _ => true
  | .add _ _ _ _ => true
  | .sub _ _ _ _ => true
  | .mul _ _ _ _ => true
  | .mulh _ _ _ _ => true
  | .mulhu _ _ _ _ => true
  | .div _ _ _ _ => true
  | .divu _ _ _ _ => true
  | .rem _ _ _ _ => true
  | .remu _ _ _ _ => true
  | .and _ _ _ _ => true
  | .or _ _ _ _ => true
  | .xor _ _ _ _ => true
  | .andn _ _ _ _ => true
  | .shl _ _ _ _ => true
  | .shr _ _ _ _ => true
  | .sra _ _ _ _ => true
  | .rol _ _ _ _ => true
  | .ror _ _ _ _ => true
  | .min _ _ _ _ => true
  | .max _ _ _ _ => true
  | .minu _ _ _ _ => true
  | .maxu _ _ _ _ => true
  | .clz _ _ _ => true
  | .ctz _ _ _ => true
  | .pop _ _ _ => true
  | .mov _ _ _ => true
  | .addi _ _ _ _ => true
  | .muli _ _ _ _ => true
  | .andi _ _ _ _ => true
  | .ori _ _ _ _ => true
  | .xori _ _ _ _ => true
  | .shli _ _ _ _ => true
  | .shri _ _ _ _ => true
  | .srai _ _ _ _ => true
  | .li _ _ _ => true
  | .lih _ _ _ _ => true
  | .test _ _ _ _ _ => true
  | .fill _ _ _ _ => true
  | .keep _ _ _ _ => true
  | .valid _ _ _ => true
  | .kill _ _ _ => true
  | .fadd _ _ _ _ _ => true
  | .fsub _ _ _ _ _ => true
  | .fmul _ _ _ _ _ => true
  | .fmin _ _ _ _ => true
  | .fmax _ _ _ _ => true
  | .fdiv _ _ _ _ _ => true
  | .fsqrt _ _ _ _ => true
  | .ffma _ _ _ _ _ _ => true
  | .fabs _ _ _ => true
  | .fneg _ _ _ => true
  | .fclass _ _ _ => true
  | .ftest _ _ _ _ _ => true
  | .fcvt _ _ _ _ _ _ => true
  | .pset _ _ _ => true
  | .pinc _ _ _ _ => true
  | .phnd _ _ _ _ => true
  | .pxy _ _ _ _ => true
  | .poff _ _ _ _ => true
  | .pget _ _ _ _ => true
  | .ld _ _ _ _ _ _ => true
  | .st _ _ _ _ _ _ => true
  | .ldl _ _ _ _ _ _ _ => true
  | .ldfe _ _ _ _ _ _ _ => true
  | .ldfeFec _ _ _ _ _ _ _ => true
  | .stl _ _ _ _ _ _ _ _ => true
  | .lda _ _ _ _ _ _ => true
  | .chka _ _ _ _ _ _ => true
  | .amo _ _ _ op _ _ _ _ => op != 9
  | .amocas _ _ _ _ _ _ _ _ => true
  | .amol _ _ _ _ _ _ _ _ _ => true
  | .fence _ _ _ => true
  | .pref _ _ => true
  | .vadd _ _ _ _ => true
  | .vsub _ _ _ _ => true
  | .vmul _ _ _ _ => true
  | .vmulh _ _ _ _ => true
  | .vmulhu _ _ _ _ => true
  | .vand _ _ _ _ => true
  | .vor _ _ _ _ => true
  | .vxor _ _ _ _ => true
  | .vandn _ _ _ _ => true
  | .vshl _ _ _ _ => true
  | .vshr _ _ _ _ => true
  | .vsra _ _ _ _ => true
  | .vmin _ _ _ _ => true
  | .vmax _ _ _ _ => true
  | .vminu _ _ _ _ => true
  | .vmaxu _ _ _ _ => true
  | .vpop _ _ _ => true
  | .vmov _ _ _ => true
  | .vfadd _ _ _ _ _ => true
  | .vfsub _ _ _ _ _ => true
  | .vfmul _ _ _ _ _ => true
  | .vfmin _ _ _ _ => true
  | .vfmax _ _ _ _ => true
  | .vfabs _ _ _ => true
  | .vfneg _ _ _ => true
  | .vffma _ _ _ _ _ _ => true
  | .vtest _ _ _ _ _ => true
  | .vexp2 _ _ _ => true
  | .vrcp _ _ _ => true
  | .vred _ _ _ _ => true
  | .vscan _ _ _ _ => true
  | .vperm _ _ _ _ => true
  | .vcnt _ _ _ => true
  | .vfill _ _ _ _ => true
  | .vkeep _ _ _ _ => true
  | .vvalid _ _ _ => true
  | .vkill _ _ _ => true
  | .vcvt _ _ _ _ _ _ => true
  | .vpack16 _ _ _ _ => true
  | .vpack8 _ _ _ _ => true
  | .vunpk16 _ _ _ _ => true
  | .vunpk8 _ _ _ _ => true
  | .vext _ _ _ _ => true
  | .vins _ _ _ _ => true
  | .vidx _ _ => true
  | .vfdiv _ _ _ _ _ => true
  | .vfsqrt _ _ _ _ => true
  | .vld _ _ _ _ _ _ => true
  | .vst _ _ _ _ _ _ => true
  | .vldl _ _ _ _ _ _ _ _ => true
  | .vstl _ _ _ _ _ _ _ _ => true
  | .vlds _ _ _ _ _ => true
  | .ydraw _ _ _ _ => true
  | .ycmp _ _ _ _ _ _ => true
  | .ycmpy _ _ _ _ _ => true
  | .ycopy _ _ _ => true
  | .yext _ _ _ _ => true
  | .ybits _ _ _ => true
  | .yst _ _ _ _ _ => true
  | .yld _ _ _ _ _ => true
  | .ysr _ _ _ _ _ => true
  | .halloc _ _ _ _ _ _ _ => true
  | .hallocD _ _ _ _ => true
  | .hwin _ _ _ _ _ => true
  | .hfree _ _ => true
  | .hinfo _ _ _ => true
  | .binit _ _ _ _ => true
  | .barv _ _ _ => true
  | .bwait _ _ _ _ => true
  | .btest _ _ _ _ => true
  | .bexp _ _ _ => true
  | .gjoin _ _ _ _ => true
  | .gleave _ _ => true
  | .ginfo _ _ _ => true
  | .gauge _ _ _ => true
  | .gadv _ _ _ => true
  | .cpy _ _ _ _ _ _ _ _ => true
  | .cpym _ _ _ _ _ _ _ => true
  | .tld _ _ _ _ _ _ _ _ => true
  | .tst _ _ _ _ _ _ _ _ => true
  | .xwait _ _ _ _ => true
  | .xstat _ _ _ => true
  | .mfmt _ _ _ _ => true
  | .mma _ _ _ _ _ _ _ _ => true
  | .mmag _ _ _ _ _ _ _ _ _ => true
  | .mdrain _ _ _ _ _ _ _ => true
  | .qnt _ _ _ _ _ _ _ => true
  | .msend _ _ _ _ => true
  | .launch _ _ _ => true
  | .doneI _ _ _ => true
  | .crd _ _ _ => true
  | .cwr _ _ _ => true
  | .eret _ => true
  | .inten _ _ => true
  | .intdis _ _ => true
  | .sleep _ => true
  | .tlbinvPage _ _ => true
  | .tlbinvCtx _ _ => true
  | .tlbinvAll _ => true
  | .halt _ => true
  | .blockEntry c => coreExists c
  | .variableLatencyCompletion c _ => coreExists c
  | .blockReplay c => coreExists c
  | .sleepWake c => coreExists c
  | .taskTake c => coreExists c
  | .stealRequest c => coreExists c
  | .stealAnswer c => coreExists c
  | .stealBackoffExpiry c => coreExists c
  | .stitchMessageArrival _ => true
  | .stitchMessageRun t => decide (t < 16384)
  | .remoteAccessArrival _ => true
  | .consumingLoadServed c _ => coreExists c
  | .storeBufferDrain t _ => decide (t < 16384)
  | .homeSliceRead c _ _ => coreExists c
  | .homeSliceWrite t _ => decide (t < 16384)
  | .homeSliceAtomic c _ => coreExists c
  | .undoLogSpaceFreed t _ => decide (t < 16384)
  | .zeroPendingBackground chip _ => decide (chip < 64)
  | .zeroPendingTableFreed t _ => decide (t < 16384)
  | .channelRetireRequest stack ch => decide (stack < 128) && decide (ch < 32)
  | .pageWalk t _ => decide (t < 16384)
  | .busyReread c _ => coreExists c
  | .busyTimeout c _ => coreExists c
  | .tlbinvComplete c => coreExists c
  | .forcePage _ => true
  | .frameStatusRead _ => true
  | .pinRetry t _ => decide (t < 16384)
  | .hallocComplete c _ => coreExists c
  | .hfreeComplete t h => decide (t < 16384) && decide (h < 256)
  | .unitScrubDone t level => decide (t < 16384) && decide (level < 3)
  | .windowLineFill c _ => coreExists c
  | .transferStart t _ => decide (t < 16384)
  | .transferFinish t _ => decide (t < 16384)
  | .transferFault t _ _ => decide (t < 16384)
  | .slowPathRetry t _ => decide (t < 16384)
  | .slowPageSkip t _ => decide (t < 16384)
  | .slowPathFinish t _ => decide (t < 16384)
  | .matrixStart t => decide (t < 16384)
  | .matrixCompletion t _ => decide (t < 16384)
  | .drainCompletion t => decide (t < 16384)
  | .multicastReceive _ => true
  | .multicastAck _ => true
  | .barrierArrival _ => true
  | .groupRequestArrival _ => true
  | .zephyrFillRequest chip ctx _ => decide (chip < 64) && decide (ctx < 256)
  | .zephyrFillComplete chip => decide (chip < 64)
  | .kick _ => true
  | .slotLoaded chip slot => decide (chip < 64) && decide (slot < 64)
  | .packetFetch chip slot => decide (chip < 64) && decide (slot < 64)
  | .recordPlacement chip slot => decide (chip < 64) && decide (slot < 64)
  | .slotPoll chip slot => decide (chip < 64) && decide (slot < 64)
  | .unmapComplete chip slot => decide (chip < 64) && decide (slot < 64)
  | .queueDescriptorWrite q _ => decide (q < 65536)
  | .queueDestroy q => decide (q < 65536)
  | .queueAclWrite _ _ => true
  | .schedulerScan chip => decide (chip < 64)
  | .standbyTakeover chip => decide (chip < 64)
  | .cmdMap c _ => coreExists c
  | .cmdUnmap c _ => coreExists c
  | .cmdPrio c _ => coreExists c
  | .grel c _ => coreExists c
  | .journalHalfStore c _ _ => coreExists c
  | .qeClear c => coreExists c
  | .registerWrite c _ _ => coreExists c
  | .kernelBoundary _ => true
  | .completionStore _ => true
  | .gateAdmit _ => true
  | .ringSpaceFreed c _ => coreExists c
  | .contextCreate _ => true
  | .creationScrubDone ctx => decide (ctx < 256)
  | .tableStreamRequest ctx _ => decide (ctx < 256)
  | .quantumExpiry ctx => decide (ctx < 256)
  | .preEmptRequest ctx => decide (ctx < 256)
  | .stopWindowExpiry ctx => decide (ctx < 256)
  | .stopRetry ctx => decide (ctx < 256)
  | .stoplate ctx => decide (ctx < 256)
  | .contextPaused ctx => decide (ctx < 256)
  | .saveAcknowledge t => decide (t < 16384)
  | .finalCopy ctx => decide (ctx < 256)
  | .restoreRequest ctx _ _ => decide (ctx < 256)
  | .restoreVerified ctx _ => decide (ctx < 256)
  | .debugStop ctx => decide (ctx < 256)
  | .debugResume ctx => decide (ctx < 256)
  | .debugStep t => decide (t < 16384)
  | .debugAccess t _ _ _ => decide (t < 16384)
  | .destroyRequest ctx => decide (ctx < 256)
  | .driftIntervalExpiry chip => decide (chip < 64)
  | .driftRequest p => decide (p < 17408)
  | .driftIntervalSet chip _ => decide (chip < 64)
  | .drainWindowExpiry chip => decide (chip < 64)
  | .driftFreeze chip => decide (chip < 64)
  | .quiesceComplete chip => decide (chip < 64)
  | .imageComplete chip => decide (chip < 64)
  | .routerApplyEntry chip _ => decide (chip < 64)
  | .forwardingEnd chip => decide (chip < 64)
  | .forwardedArrival chip => decide (chip < 64)
  | .driftResume chip _ => decide (chip < 64)
  | .testComplete p _ _ => decide (p < 17408)
  | .castOff p _ => decide (p < 17408)
  | .routingRewrite p _ => decide (p < 17408)
  | .testPackageInstall _ => true
  | .retentionEntry p _ => decide (p < 17408)
  | .retentionExit p _ _ => decide (p < 17408)
  | .patrolScrub p _ => decide (p < 17408)
  | .recoveryIntervalExpiry ctx => decide (ctx < 256)
  | .waveWindowExpiry ctx => decide (ctx < 256)
  | .cut ctx => decide (ctx < 256)
  | .sealPoint ctx => decide (ctx < 256)
  | .deltaMerge ctx => decide (ctx < 256)
  | .seallate ctx => decide (ctx < 256)
  | .rollback ctx => decide (ctx < 256)
  | .logRead log _ => decide (log < 257)
  | .linkTrained l _ => decide (l < 324)
  | .laneLost l => decide (l < 324)
  | .retrainTimer l => decide (l < 324)
  | .linkTrainRequest l => decide (l < 324)
  | .flitReceive l _ => decide (l < 324)
  | .peerDataFlit port _ => decide (port < 64)
  | .peerAckFlit port _ => decide (port < 64)
  | .peerRefusalFlit port _ => decide (port < 64)
  | .peerKeepAlive port _ => decide (port < 64)
  | .connectionTimeout conn => decide (conn < 256)
  | .peerlost conn => decide (conn < 256)
  | .hostPostedWrite port _ _ _ => decide (port < 4)
  | .hostRead port _ _ _ => decide (port < 4)
  | .hostAtomicop port _ _ _ _ _ => decide (port < 4)
  | .powerSample chip _ => decide (chip < 65)
  | .capTick chip => decide (chip < 64)
  | .freqSetWrite chip _ => decide (chip < 64)
  | .senseSample chip _ => decide (chip < 64)
  | .regulatorRecalibration chip => decide (chip < 64)
  | .gustAcknowledge chip => decide (chip < 64)
  | .gustSettle chip => decide (chip < 64)
  | .thermalSample chip _ => decide (chip < 64)
  | .thermalLevelDecay chip => decide (chip < 64)
  | .alertClear chip => decide (chip < 64)
  | .tileHold t => decide (t < 33792)
  | .tileGate t => decide (t < 33792)
  | .wakeCause t => decide (t < 33792)
  | .inrushAdmit chip => decide (chip < 64)
  | .wakeComplete t => decide (t < 33792)
  | .powerOnReset => true
  | .bootImageFetched _ => true
  | .bootRetry => true
  | .controllerReady chip _ => decide (chip < 64)
  | .attestationRequest io core _ => decide (io < 4) && decide (core < 4)
  | .senderTimeOut c _ => coreExists c
  | .tileHardFailure p => decide (p < 17408)
  | .waveRetry ctx => decide (ctx < 256)
  | .firmwareReload c => coreExists c

end Sys2Proof
end

