-- ==== Sys2Proof/Safety.lean ====
section
/-! DEFINITION. The terms in which statements are made: when the core whose turn it is can run an instruction with its full
effect, what it delivers, and what every step keeps. -/

namespace Sys2Proof.Machine

/-- The core whose turn it is can issue an instruction with these operands: it exists and runs a block (not a stitch
message), nothing holds its issue, the block is not being replayed, no operand is in flight (03 R57) and none that a check
looks at is read early (03 R56). -/
def State.ready (s : State) (l : List Src) : Bool :=
  let x := s.core s.cur
  coreExists s.cur && x.issues && !s.stopped s.cur && !x.held && x.sel != .msg && decide (x.replayTo ≤ x.blk.widx) &&
    l.all (fun o => !x.srcPend o && !(x.checking && x.srcEarly o))

/-- The kind of the core whose turn it is. -/
def State.kind (s : State) : CoreKind := kindOf s.cur

/-- The value and validity of a scalar operand of the current core. -/
def State.op (s : State) (a : BitVec 6) : SVal := s.rdS s.cur a

/-- A vector operand of the current core. -/
def State.opV (s : State) (a : BitVec 6) : VVal := s.rdV s.cur a

/-- A yarn operand of the current core. -/
def State.opY (s : State) (a : BitVec 6) : YVal := s.rdY s.cur a

/-- Scalar operand codes and a scalar destination that exist on the current core (02 R25, R28). -/
def State.codes (s : State) (l : List (BitVec 6)) (d : BitVec 5) : Bool := l.all (sLegal s.kind) && dLegal s.kind d

/-- Scalar operands that are valid. -/
def State.given (s : State) (l : List (BitVec 6)) : Bool := l.all (fun a => (s.op a).ok)

/-- A scalar delivered to D by the current core, readable at a latency (02 R27, 03 R56). -/
def State.gives (s : State) (d : BitVec 5) (lat : Nat) (v : SVal) : State := s.modCore s.cur (·.outS d lat v)

/-- A vector delivered to D by the current core. -/
def State.givesV (s : State) (d : BitVec 5) (lat : Nat) (v : VVal) : State := s.modCore s.cur (·.outV d lat v)

/-- A result that will be delivered later (03 R57): the core holds it as a result in flight. -/
def State.later (s : State) (cls : Cls) (d : BitVec 5) (v : RVal) : State :=
  s.modCore s.cur (fun x => x.launch cls d { Flight.base with res := some v })

/-- The same of an instruction that can raise a flag: reads and writes of the flags wait for it (04 R101). -/
def State.laterFlag (s : State) (cls : Cls) (d : BitVec 5) (v : RVal) : State :=
  s.modCore s.cur (fun x => x.launch cls d { Flight.base with res := some v, flagger := true })

/-- Flags raised by the current core (04 R100). -/
def State.flag (s : State) (f : BitVec 5) : State := s.modCore s.cur (·.raise f)

/-- The current core goes on past an instruction of n words with a stall count. -/
def State.moved (s : State) (n : Nat) (st : BitVec 3) : State := s.modCore s.cur (·.advance n st)

/-- The same, with the registers kept for a replay of the block (16 R256). -/
def State.kept (s : State) (n : Nat) (st : BitVec 3) : State :=
  s.modCore s.cur (fun x => (x.record x.blk.widx).advance n st)

/-- Control passes from the current core's instruction to the block at an address (19 R301, R302). -/
def State.goes (s : State) (t : W64) : State := finish s.cur 0 0 (.go t s)

/-- The current core's instruction is held at issue (03 R55). -/
def State.waits (s : State) : State := finish s.cur 0 0 (.wait s)

/-- The current core's instruction is held at issue for a result of its own (03 R57). -/
def State.pends (s : State) : State := finish s.cur 0 0 (.pend s)

/-- The current core's instruction ends its block. -/
def State.ends (s : State) : State := finish s.cur 0 0 (.stop s)

/-- The current core of s has in t one result in flight more, of which p holds (03 R57). -/
def State.inFlight (s t : State) (p : Flight → Prop) : Prop :=
  ∃ l f, (t.core s.cur).flights = l ++ [f] ∧ l.map (·.id) = (s.core s.cur).flights.map (·.id) ∧ p f

/-- The tile of the current core. -/
def State.home (s : State) : VTile := s.tile (tileOf s.cur)

/-- The first 256 digits of a yarn of an ordinary stream as a number, most significant first (14 R223, R224). -/
def State.digits (s : State) (y : YVal) : Nat :=
  let key := (s.ctxOfTile (tileOf s.cur)).key
  (zf128 key 0x59 y.sel y.pos 0).toNat * 2 ^ 128 + (zf128 key 0x59 y.sel y.pos 1).toNat

/-- A yarn of an ordinary stream whose known bits are its digits. -/
def State.honest (s : State) (y : YVal) : Bool :=
  y.ok && y.sel != 0xffff && decide (y.n ≤ 64) && y.bits == s.digits y / 2 ^ (256 - y.n) * 2 ^ (64 - y.n)

/-- The result in flight with a number is known to be a value (03 R57). -/
def State.gets (s : State) (c : CoreRef) (id : Nat) (v : RVal) : Prop :=
  ∃ f, (s.core c).flight? id = some f ∧ f.res = some v ∧ f.kind = .plain

/-- Bytes from a physical address a chiplet reaches through no port that is closed or training and that stand in no peer: a write
to them is performed in the panel (17 R277, R281). -/
def State.writable (s : State) (n pa : Nat) : Bool :=
  (s.portIn .fenced n pa).isNone && (s.portIn .training n pa).isNone && (s.peerOf n pa).isNone

/-- The i-th item of the networks is x, and it may be applied at its tile now: it has crossed its link, it is the oldest of its
channel, a row serves the tile, no drift moves it, it is not gated, and the item has not been applied before (07 R144, R146). -/
def State.lands (s : State) (i : Nat) (x : NetItem) : Prop :=
  s.itemReady i = some x ∧ (s.physOf x.dst).isSome = true ∧ s.driftAt x.dst = none ∧ (s.tile x.dst).power = .busy ∧
    (s.tile x.dst).seen x = false

/-- The item x has left the networks and its channel expects the next one. -/
def State.landed (s : State) (i : Nat) (x : NetItem) : State := { s with net := delAt s.net i }.markSeen x

/-- What an instruction with a destination D of a class leaves as it was in its core: every register and queue but the ones D
names (31 names none), the pointer p of a post-increment apart (8 for none), the loop stack and the banks not in use, and the
format context, traps, mode and task registers. -/
def Core.keeps (x y : Core) (cls : Cls) (d : BitVec 5) (p : Nat) : Prop :=
  (∀ k, k < 16 → (cls = .s → d.toNat ≠ k + 1) → vget ic y.bank.s k = vget ic x.bank.s k) ∧
  (∀ k, k < 8 → (cls = .s → d.toNat ≠ k + 17) → k ≠ p → vget ic y.r.p k = vget ic x.r.p k) ∧
  (∀ k, k < 4 → (cls = .s → d.toNat ≠ k + 25) → vget ic y.bank.k k = vget ic x.bank.k k) ∧
  (∀ k, k < 8 → (cls = .v → d.toNat ≠ k + 1) → vget (Cell.mk0 vz) y.r.v k = vget (Cell.mk0 vz) x.r.v k) ∧
  (∀ k, k < 8 → (cls = .y → d.toNat ≠ k + 1) → vget (Cell.mk0 yz) y.r.y k = vget (Cell.mk0 yz) x.r.y k) ∧
  (cls ≠ .s ∨ d = 31 → y.bank.q = x.bank.q) ∧ (cls ≠ .v ∨ d = 31 → y.r.vq = x.r.vq) ∧ y.bank.loops = x.bank.loops ∧
  (x.sel ≠ .norm → y.r.norm = x.r.norm) ∧ (x.sel ≠ .hand → y.r.hand = x.r.hand) ∧ y.sel = x.sel ∧ y.r.fmt = x.r.fmt ∧
  y.trap = x.trap ∧ y.check = x.check ∧ y.task = x.task ∧ y.taskarg = x.taskarg ∧ y.taskid = x.taskid ∧ y.kreg = x.kreg ∧
  y.ytab = x.ytab ∧ y.mcause = x.mcause ∧ y.jbase = x.jbase ∧ y.vec = x.vec ∧ y.inh = x.inh ∧ y.ien = x.ien ∧ y.ienNext = x.ienNext ∧ y.retBlk = x.retBlk

/-- What every step keeps: the panel's memory stands in its canonical form. -/
def State.Canonical (s : State) : Prop := memWf s.mem = true

end Sys2Proof.Machine
end

