-- ==== Sys2Proof/Certificates/Slice0/Obligations.lean ====
section
/-! DEFINITION. The statements for the provers, in the order of the spec's chapters. -/

open Sys2Proof Sys2Proof.Machine

/-! ### Encoding (chapter 03) -/

/-- Words written out from the encoding tables of 03 R49, R50 and the reference chapters, with the instructions they stand for. -/
def Obligations.WordsDecode : Prop :=
  decodeWords 0x04110060 none = .instr (.add 0 17 0 3) 1 ∧
  decodeWords 0x04155906 none = .instr (.divu 0 21 22 8) 1 ∧
  decodeWords 0x05911003 none = .instr (.shli 0 17 2 3) 1 ∧
  decodeWords 0x04553001 none = .instr (.addi 0 21 6 1) 1 ∧
  decodeWords 0x06401000 (some 0x12345678) = .instr (.li 0 2 0x12345678) 2 ∧
  decodeWords 0x06911000 (some 0x000000ff) = .instr (.lih 0 17 2 0xff) 2 ∧
  decodeWords 0x08114882 none = .instr (.test 0 17 18 4 2) 1 ∧
  decodeWords 0x09130080 none = .instr (.kill 0 19 4) 1 ∧
  decodeWords 0x1fc00000 none = .unassigned 0x7f ∧
  decodeWords 0x06401000 none = .straddle 0x19

/-- 03 R49-R66: decoding the words of a well-formed instruction gives the instruction back, with the number of its words. -/
def Obligations.DecodeEncode : Prop :=
  ∀ i : Instr, i.wf = true → encode i ≠ [] →
    decodeWords ((encode i).headD 0) ((encode i).drop 1).head? = .instr i (encode i).length

/-- 03 R49-R66: an instruction that the decoder reads is well formed, and its encoding is the words it was read from: no bit of
them is dropped. -/
def Obligations.EncodeDecode : Prop :=
  ∀ (w : Nat) (next : Option Nat) (i : Instr) (n : Nat), w < 2 ^ 32 → (∀ v ∈ next, v < 2 ^ 32) →
    decodeWords w next = .instr i n → i.wf = true ∧ encode i = (w :: next.toList).take n

/-- 03 R61: an unassigned opcode is read as such whatever its other bits hold, and traps ILLOP on a tile core or raises the
machine check of ILLOP on a system core; so does a reserved encoding of the integer opcodes (19 R310, R312-R315). -/
def Obligations.UnassignedOpcodes : Prop :=
  (∀ (w : Nat) (next : Option Nat), w / 2 ^ 22 % 128 ∈ [0x0a, 0x0b, 0x0c, 0x0d, 0x0e, 0x0f, 0x1b, 0x1c, 0x1d, 0x1e, 0x1f, 0x25,
      0x26, 0x27, 0x2d, 0x2e, 0x2f, 0x36, 0x37, 0x4e, 0x4f, 0x55, 0x56, 0x57, 0x58, 0x59, 0x5a, 0x5b, 0x5c, 0x5d, 0x5e, 0x5f,
      0x6e, 0x6f, 0x7f] → decodeWords w next = .unassigned (w / 2 ^ 22 % 128)) ∧
  ∀ (s : State) (o : Nat), s.agenda = [] → s.stuck = false → (s.core s.cur).phase = .running → s.ready [] = true →
    (s.core s.cur).blk.decoded = some (.unassigned o) ∨
      (∃ r ∈ [0x10, 0x16, 0x17, 0x18, 0x19, 0x1a, 0x20, 0x21, 0x22, 0x23, 0x24], (s.core s.cur).blk.decoded = some (.reserved r)) →
    step s = .next (s.takeTrap s.cur ILLOP 0)

/-! ### One step -/

/-- A step of the current core runs the instruction that the words at its place in its block decode to; a core or an event that
the agenda names takes its turn the same way. The words of a block: a word, with the one that follows it, is what the decoder is
given (03 R46). -/
def Obligations.StepRunsDecoded : Prop :=
  ((∀ (s : State) (i : Instr) (n : Nat), s.agenda = [] → s.stuck = false →
    ((s.core s.cur).sel = .msg ∨ (s.core s.cur).phase = .running) → (s.core s.cur).blk.decoded = some (.instr i n) →
    step s = exec i s) ∧
  (∀ (s : State) (c : CoreRef) (r : List Turn) (i : Instr) (n : Nat), s.agenda = .core c :: r → coreExists c = true →
    ((s.core c).sel = .msg ∨ (s.core c).phase = .running) → (s.core c).blk.decoded = some (.instr i n) →
    step s = exec i { s with agenda := r, cur := c }) ∧
  ∀ (s : State) (i : Instr) (r : List Turn), s.agenda = .event i :: r → encode i = [] → step s = exec i { s with agenda := r }) ∧
  (∀ (b : Blk) (w : W32) (r : List W32), b.words.drop b.widx = w :: r →
    b.decoded = some (decodeWords w.toNat (r.head?.map (·.toNat))))

/-- Every step that answers a next state keeps the panel's memory in its canonical form. -/
def Obligations.StepKeepsMemory : Prop :=
  ∀ s t : State, s.Canonical → step s = .next t → t.Canonical

/-- Memory reads back what was written, and a write leaves every other byte alone. -/
def Obligations.MemoryReadAfterWrite : Prop :=
  (∀ (m : Mem) (a : Nat) (l : List Byte), memWf m = true → memReadN (memWriteN m a l) a l.length = l) ∧
  ∀ (m : Mem) (a b : Nat) (l : List Byte), b < a ∨ a + l.length ≤ b → memRead (memWriteN m a l) b = memRead m b

/-! ### The checks at issue (03 R56, R57, R67, R68; 02 R28, R34, R38) -/

/-- 03 R67 step 2, R68; 02 R34: in user mode a tile core traps PRIV at the opcodes 0x7a to 0x7e, and at CRD and CWR of a register
marked "sys". 03 R67 step 3, R68: an opcode that is not permitted on its kind of core traps CLASS, whatever its operands are. -/
def Obligations.PrivilegeAndClass : Prop :=
  (∀ (s : State) (st : BitVec 3) (a : BitVec 6) (d : BitVec 5) (n : BitVec 16),
    s.ready [] = true → s.kind ≠ .sysm → (s.core s.cur).phase = .running →
    (∀ i ∈ [Instr.eret st, .inten st a, .intdis st a, .sleep st, .tlbinvPage st a, .tlbinvCtx st a, .tlbinvAll st, .halt st],
      exec i s = .next (s.takeTrap s.cur PRIV 0)) ∧
    (n.toNat ∈ [0x20, 0x21, 0x22, 0x23, 0x24] →
      exec (.crd st d n) s = .next (s.takeTrap s.cur PRIV 0) ∧ exec (.cwr st a n) s = .next (s.takeTrap s.cur PRIV 0))) ∧
  (∀ (s : State) (st : BitVec 3) (a b : BitVec 6) (d f : BitVec 5) (i : BitVec 11) (r : BitVec 2) (q : BitVec 2) (c : BitVec 1)
      (p w : BitVec 3) (h : BitVec 8) (m : BitVec 32) (n : BitVec 1),
    s.ready [] = true →
    (s.kind = .sysm →
      ∀ j ∈ [Instr.exit st, .pset st a d, .pinc st a d i, .phnd st a b d, .pxy st a b d, .poff st a b d, .pget st a d f,
          .ldl st a c p d w q, .ldfe st a c p d w q, .ldfeFec st a c p d w q, .stl st a b c p n w q, .amol st a d f p q n a b,
          .hfree st a, .hinfo st a d, .hallocD st a d h, .hwin st a d h m, .binit st a b d, .barv st a d, .bwait st a b d,
          .btest st a b d, .bexp st a b, .gjoin st a b d, .gleave st a, .ginfo st a d, .gauge st a b, .gadv st a d,
          .cpy st a b a r q n h, .cpym st a b a r n h, .tld st a b a r n h b, .tst st a b a r n h b, .xwait st a b d, .xstat st a d,
          .msend st a w m, .doneI st a b], exec j s = .next (s.takeTrap s.cur CLASS 0)) ∧
    (s.kind ≠ .worker →
      ∀ j ∈ [Instr.vadd st a b d, .vfadd st a b d r, .vffma st a d b r a, .vtest st a b d f, .vexp2 st a d, .vred st a d f,
          .vscan st a d f, .vperm st a b d, .vcnt st a d, .vfill st a b d, .vcvt st a p w d r, .vpack16 st a b d, .vidx st d,
          .vfdiv st a b d r, .vld st a c p d w, .vst st a b c p w, .vldl st a c p r d w q, .vstl st a b c p n w q,
          .vlds st a b d w, .ydraw st a b d, .ycmp st a b d r q, .ycopy st a d, .yext st a b d, .ybits st a d, .yst st a b c p,
          .yld st a c p d, .ysr st a b d f, .mfmt st a r q, .mma st a b a c n h b, .mmag st a b a c n h b a,
          .mdrain st a b a r n h, .qnt st a b a r n h], exec j s = .next (s.takeTrap s.cur CLASS 0)))

/-- 03 R67 step 4: a reserved code traps ILLOP before any operand is looked at: a destination of 29 or 30 (02 R28), operand codes
above 48, a reserved TEST code, TRAP outside 1-14, a load base that is no scalar of R345, a scope above 5. -/
def Obligations.IllegalOperands : Prop :=
  ∀ (s : State) (st : BitVec 3) (a b : BitVec 6) (d f : BitVec 5) (i : BitVec 11) (c : BitVec 1) (p w : BitVec 3),
    s.ready [] = true →
    (d.toNat = 29 ∨ d.toNat = 30 ∨ 48 < a.toNat ∨ 48 < b.toNat →
      ∀ j ∈ [Instr.add st a b d, .sub st a b d, .mul st a b d, .xor st a b d, .fill st a b d, .fmax st a b d],
        exec j s = .next (s.takeTrap s.cur ILLOP 0)) ∧
    (12 ≤ f.toNat → exec (.test st a b d f) s = .next (s.takeTrap s.cur ILLOP 0)) ∧
    (8 ≤ f.toNat → exec (.ftest st a b d f) s = .next (s.takeTrap s.cur ILLOP 0)) ∧
    (i.toNat = 0 ∨ 14 < i.toNat → exec (.trap st i) s = .next (s.takeTrap s.cur ILLOP 0)) ∧
    (31 < a.toNat ∨ 5 < p.toNat ∨ (c = 0 ∧ p ≠ 0) →
      exec (.ld st a c p d w) s = .next (s.takeTrap s.cur ILLOP 0) ∧ exec (.st st a b c p w) s = .next (s.takeTrap s.cur ILLOP 0))

/-- 03 R56, R67 step 5: an operand read before its latency traps STALLSHORT where cr.check or the block's CHK bit is set, and
reads as an invalid zero where neither is. 03 R57: an instruction that reads an operand whose value is in flight is held at issue:
nothing else changes. -/
def Obligations.EarlyAndPendingReads : Prop :=
  (∀ (s : State) (st : BitVec 3) (a b : BitVec 6) (d : BitVec 5),
    s.ready [] = true → s.codes [a, b] d = true →
    (s.core s.cur).srcPend (.s a) = false → (s.core s.cur).srcPend (.s b) = false → (s.core s.cur).srcEarly (.s a) = true →
    ((s.core s.cur).checking = true → exec (.add st a b d) s = .next (s.takeTrap s.cur STALLSHORT 0)) ∧
    ((s.core s.cur).checking = false → a.toNat < 44 → s.op a = ⟨0, false⟩ ∧
      exec (.add st a b d) s = .next ((s.gives d 1 ⟨0, false⟩).moved 1 st) ∧
      exec (.valid st a d) s = .next ((s.gives d 1 ⟨0, true⟩).moved 1 st))) ∧
  (∀ (s : State) (st : BitVec 3) (a b : BitVec 6) (d : BitVec 5) (i : BitVec 11),
    s.ready [] = true → s.codes [a, b] d = true → (s.core s.cur).srcPend (.s a) = true →
    ∀ j ∈ [Instr.add st a b d, .div st a b d, .fill st a b d, .valid st a d, .fadd st a b d 0, .addi st a d i, .brx st a,
        .waitTime st a], exec j s = .next (s.modCore s.cur (fun x => { x with blocked := true, awaits := true })))

/-- 02 R38: an invalid source suppresses an operation: invalid zero at the same latency, no flag, no access, no trap; a store, a
copy, LAUNCH or DONE is not made, and the core goes on. -/
def Obligations.InvalidOperandsSuppress : Prop :=
  (∀ (s : State) (st : BitVec 3) (a b : BitVec 6) (d f : BitVec 5) (r : BitVec 2),
    s.ready [.s a, .s b] = true → s.codes [a, b] d = true → s.given [a, b] = false →
    (∀ i ∈ [Instr.add st a b d, .sub st a b d, .and st a b d, .or st a b d, .xor st a b d, .andn st a b d, .shl st a b d,
        .shr st a b d, .sra st a b d, .rol st a b d, .ror st a b d, .min st a b d, .max st a b d, .minu st a b d, .maxu st a b d],
      exec i s = .next ((s.gives d 1 ⟨0, false⟩).moved 1 st)) ∧
    (f.toNat < 12 → exec (.test st a b d f) s = .next ((s.gives d 1 ⟨0, false⟩).moved 1 st)) ∧
    (∀ i ∈ [Instr.mul st a b d, .mulh st a b d, .mulhu st a b d], exec i s = .next ((s.gives d 3 ⟨0, false⟩).moved 1 st)) ∧
    (∀ i ∈ [Instr.fadd st a b d r, .fsub st a b d r, .fmul st a b d r, .fmin st a b d, .fmax st a b d],
      exec i s = .next ((s.gives d 4 ⟨0, false⟩).moved 1 st)) ∧
    (∀ i ∈ [Instr.div st a b d, .divu st a b d, .rem st a b d, .remu st a b d, .fdiv st a b d r],
      exec i s = .next ((s.later .s d (.s ⟨0, false⟩)).kept 1 st))) ∧
  (∀ (s : State) (st : BitVec 3) (a b : BitVec 6) (d : BitVec 5) (c : BitVec 1) (p : BitVec 3),
    s.ready [.s a, .s b] = true → a.toNat ≤ 31 → s.codes [a, b] d = true → p.toNat ≤ 5 → (c = 1 ∨ p = 0) →
    ((s.op a).ok = false → exec (.ld st a c p d 3) s = .next ((s.later .s d (.s ⟨0, false⟩)).kept 1 st)) ∧
    (s.given [a, b] = false → exec (.st st a b c p 3) s = .next (s.moved 1 st))) ∧
  ∀ (s : State) (st : BitVec 3) (a b n : BitVec 6) (ch : BitVec 2) (w : BitVec 32),
    s.ready [.s a, .s b, .s n] = true → s.codes [a, b, n] 0 = true → s.kind ≠ .sysm →
    (s.given [a, b, n] = false → exec (.cpy st a b n ch 0 0 0) s = .next (s.moved 2 st) ∧
      exec (.cpym st a b n ch 0 0) s = .next (s.moved 2 st)) ∧
    (s.given [a, b] = false → exec (.launch st a b) s = .next (s.moved 1 st) ∧ exec (.doneI st a b) s = .next (s.moved 1 st))

/-! ### Delivery, traps, frames and reset -/

/-- 02 R27, R28: a scalar delivered to a code other than 31 moves the queue on by one and becomes its newest entry; a code of 1-16
names s0-s15, 17-24 p0-p7, 25-28 k0-k3, which keep bits [31:0]; 31 discards; nothing else changes. 02 R27, R28: vector and yarn
results: v0-v7 with the vector queue, y0-y7 without a queue. -/
def Obligations.Delivery : Prop :=
  (∀ (x : Core) (d : BitVec 5) (l : Nat) (v : SVal),
    let y := x.outS d l v
    let c : Cell SVal := ⟨v, x.blk.slot + l, none⟩
    (d = 31 → y = x) ∧
    (d ≠ 31 → y.bank.q.age ic 0 = c ∧ (∀ a, 1 ≤ a → a < 16 → y.bank.q.age ic a = x.bank.q.age ic (a - 1))) ∧
    (∀ k, k < 16 → vget ic y.bank.s k = if d.toNat = k + 1 then c else vget ic x.bank.s k) ∧
    (∀ k, k < 8 → vget ic y.r.p k = if d.toNat = k + 17 then c else vget ic x.r.p k) ∧
    (∀ k, k < 4 → vget ic y.bank.k k =
      if d.toNat = k + 25 then ⟨⟨BitVec.ofNat 64 (v.v.toNat % 2 ^ 32), v.ok⟩, x.blk.slot + l, none⟩ else vget ic x.bank.k k) ∧
    y.bank.loops = x.bank.loops ∧ y.r.v = x.r.v ∧ y.r.vq = x.r.vq ∧ y.r.y = x.r.y ∧ y.r.fflags = x.r.fflags ∧
    y.r.fmt = x.r.fmt ∧ y.phase = x.phase ∧ y.blk = x.blk ∧ y.trap = x.trap ∧ y.flights = x.flights) ∧
  (∀ (x : Core) (d : BitVec 5) (l : Nat) (v : VVal) (u : YVal),
    let y := x.outV d l v
    let z := x.outY d l u
    let c : Cell VVal := ⟨v, x.blk.slot + l, none⟩
    let e := Cell.mk0 vz
    (d = 31 → y = x) ∧
    (d ≠ 31 → y.r.vq.age e 0 = c ∧ (∀ a, 1 ≤ a → a < 16 → y.r.vq.age e a = x.r.vq.age e (a - 1))) ∧
    (∀ k, k < 8 → vget e y.r.v k = if d.toNat = k + 1 then c else vget e x.r.v k) ∧
    y.bank = x.bank ∧ y.r.p = x.r.p ∧ y.r.y = x.r.y ∧
    (∀ k, k < 8 → vget (Cell.mk0 yz) z.r.y k =
      if d.toNat = k + 1 then ⟨u, x.blk.slot + l, none⟩ else vget (Cell.mk0 yz) x.r.y k) ∧
    z.bank = x.bank ∧ z.r.vq = x.r.vq ∧ z.r.v = x.r.v ∧ z.r.p = x.r.p)

/-- 02 R37; 10 R185: a user trap of a tile core writes CODE, WORD, HDR and FADDR of cr.trap, keeps MSGCNT, ends the task, and
counts in its kernel's status. 22 R386, R390, R391: a trap on a system or management core is a machine check: with INH clear
cr.mcause names the trap, the return block is the block that follows, INH and LAST are set, the handler bank is cleared and the
block at VEC3 is entered; with INH set the core halts. -/
def Obligations.TrapsTaken : Prop :=
  (∀ (s : State) (c : CoreRef) (code : Nat) (faddr : W64), kindOf c ≠ .sysm → 1 ≤ code → code ≤ 14 →
    (s.core c).blk.widx < 254 →
    let x := s.core c
    let t := s.takeTrap c code faddr
    let y := t.core c
    y.trap.toNat / 2 ^ 120 = x.trap.toNat / 2 ^ 120 ∧ y.trap.toNat / 2 ^ 116 % 16 = code ∧
    y.trap.toNat / 2 ^ 108 % 256 = x.blk.widx ∧ y.trap.toNat / 2 ^ 53 % 2 ^ 50 = x.blk.hdr.toNat / 8 % 2 ^ 50 ∧
    y.trap.toNat % 2 ^ 53 = faddr.toNat % 2 ^ 53 ∧ y.phase = .idle ∧ y.task = none ∧
    (∀ r k, x.task = some r → mfind s.kernels r.kern = some k → ∃ k', mfind t.kernels r.kern = some k' ∧
      k'.ntrap = min (k.ntrap + 1) 0xffffff ∧ k'.skind = 2 ∧ k'.left = k.left - 1) ∧
    (∀ a, memRead t.mem a = memRead s.mem a)) ∧
  (∀ (s : State) (c : CoreRef) (code : Nat) (faddr : W64), kindOf c = .sysm → 1 ≤ code → code ≤ 14 →
    let x := s.core c
    let y := (s.takeTrap c code faddr).core c
    y.mcause.toNat / 2 ^ 60 = 1 ∧ y.mcause.toNat / 2 ^ 56 % 16 = code ∧
    (x.inh = false → y.phase = .entering (vget 0 x.vec 3) .interrupt ∧ y.inh = true ∧ y.last = 3 ∧ y.sel = .hand ∧
      y.r.hand = Bank.clear ∧ y.r.norm = x.r.norm ∧ y.retBlk = x.blk.next ∧ y.mc = false ∧
      y.mcause.toNat % 2 ^ 53 = (if faddr ≠ 0 then faddr.toNat else x.blk.hdr.toNat) % 2 ^ 53) ∧
    (x.inh = true → y.phase = .halted))

/-- 02 R27, R35; 04 R100: an instruction that delivers one result changes the current core alone, and of its registers the ones D
names, with the queue of the result's class; no byte of memory changes; the integer, validity, immediate, pointer, yarn and move
instructions change no flag, the float ones only set flags. Where it traps, the trap is all that happens. -/
def Obligations.RegisterFrames : Prop :=
  ∀ (s t : State) (st : BitVec 3) (a b c : BitVec 6) (d f : BitVec 5) (i : BitVec 11) (k : BitVec 6) (w : BitVec 32)
      (r q : BitVec 2) (m n : BitVec 3) (cls : Cls) (float : Bool) (j : Instr),
    coreExists s.cur = true → (s.core s.cur).sel ≠ .msg → (s.core s.cur).replayTo ≤ (s.core s.cur).blk.widx →
    ((cls = .s ∧ float = false ∧ j ∈ [Instr.add st a b d, .sub st a b d, .mul st a b d, .mulh st a b d, .mulhu st a b d,
        .div st a b d, .divu st a b d, .rem st a b d, .remu st a b d, .and st a b d, .or st a b d, .xor st a b d, .andn st a b d,
        .shl st a b d, .shr st a b d, .sra st a b d, .rol st a b d, .ror st a b d, .min st a b d, .max st a b d, .minu st a b d,
        .maxu st a b d, .clz st a d, .ctz st a d, .pop st a d, .mov st a d, .addi st a d i, .muli st a d i, .andi st a d i,
        .ori st a d i, .xori st a d i, .shli st a d k, .shri st a d k, .srai st a d k, .li st d w, .lih st a d w, .test st a b d f,
        .fill st a b d, .keep st a b d, .valid st a d, .kill st a d, .pset st a d, .pinc st a d i, .phnd st a b d, .pxy st a b d,
        .poff st a b d, .pget st a d f, .fabs st a d, .fneg st a d, .fclass st a d, .vcnt st a d, .vext st a b d, .ybits st a d]) ∨
      (cls = .s ∧ float = true ∧ j ∈ [Instr.fadd st a b d r, .fsub st a b d r, .fmul st a b d r, .fmin st a b d, .fmax st a b d,
        .fdiv st a b d r, .fsqrt st a d r, .ffma st a d b r c, .ftest st a b d f, .fcvt st a m n d r, .vred st a d f]) ∨
      (cls = .v ∧ float = false ∧ j ∈ [Instr.vadd st a b d, .vsub st a b d, .vmul st a b d, .vmulh st a b d, .vmulhu st a b d,
        .vand st a b d, .vor st a b d, .vxor st a b d, .vandn st a b d, .vshl st a b d, .vshr st a b d, .vsra st a b d,
        .vmin st a b d, .vmax st a b d, .vminu st a b d, .vmaxu st a b d, .vpop st a d, .vmov st a d, .vfabs st a d, .vfneg st a d,
        .vperm st a b d, .vfill st a b d, .vkeep st a b d, .vvalid st a d, .vkill st a d, .vpack16 st a b d, .vpack8 st a b d,
        .vunpk16 st a b d, .vunpk8 st a b d, .vins st a b d, .vidx st d]) ∨
      (cls = .v ∧ float = true ∧ j ∈ [Instr.vfadd st a b d r, .vfsub st a b d r, .vfmul st a b d r, .vfmin st a b d,
        .vfmax st a b d, .vffma st a d b r c, .vtest st a b d f, .vexp2 st a d, .vrcp st a d, .vscan st a d f, .vcvt st a m n d r,
        .vfdiv st a b d r, .vfsqrt st a d r]) ∨
      (cls = .y ∧ float = false ∧ j = Instr.ycopy st a d)) →
    exec j s = .next t →
    let x := s.core s.cur
    let y := t.core s.cur
    (∃ code, t = s.takeTrap s.cur code 0) ∨
    ((t = s ∨ t = s.setCore s.cur y) ∧ x.keeps y cls d 8 ∧ (∀ e, memRead t.mem e = memRead s.mem e) ∧ y.r.yund = x.r.yund ∧
      (float = false → y.r.fflags = x.r.fflags) ∧ (∃ fl, y.r.fflags = x.r.fflags ||| fl))

/-- 21 R345-R365; 07 R142; 06 R125: on a tile core an access, a command, a message or a fence that takes no trap changes no
register but its destination and the pointer its post-increment moves, and no flag; an access to global memory changes no byte of
memory at its issue, the A and D bits of the page-table entry it uses apart. -/
def Obligations.AccessFrames : Prop :=
  ∀ (s t : State), coreExists s.cur = true → s.kind ≠ .sysm → (s.core s.cur).phase = .running → (s.core s.cur).sel ≠ .msg →
    (s.core s.cur).replayTo ≤ (s.core s.cur).blk.widx →
    let x := s.core s.cur
    let y := t.core s.cur
    let frame (j : Instr) (cls : Cls) (d : BitVec 5) (p : Nat) : Prop := exec j s = .next t →
      y.phase = .idle ∨ (x.keeps y cls d p ∧ y.r.fflags = x.r.fflags ∧ y.r.yund = x.r.yund)
    (∀ (st : BitVec 3) (b a : BitVec 6) (c r z : BitVec 1) (p w : BitVec 3) (d op : BitVec 5) (o : BitVec 2),
      (∀ j ∈ [Instr.ld st b c p d w, .lda st b c p d w, .chka st b c p d w, .amo st b d op p o z a], frame j .s d 8) ∧
      frame (.vld st b c p d w) .v d 8 ∧ frame (.vlds st b a d w) .v d 8 ∧ frame (.yld st b c p d) .y d 8 ∧
      (∀ j ∈ [Instr.st st b a r p w, .vst st b a r p w, .yst st b a r p], frame j .s 31 8) ∧
      (∀ j ∈ [Instr.ld st b c p d w, .lda st b c p d w, .chka st b c p d w, .amo st b d op p o z a, .vld st b c p d w, .yld st b c p d,
          .st st b a r p w, .vst st b a r p w, .yst st b a r p], exec j s = .next t →
        ∀ e, memRead t.mem e = memRead s.mem e ∨
          ∃ lv v, s.walk (s.op b).v.toNat 3 (s.ctx ((s.ctxOfCore s.cur).getD 256)).root = .leaf lv e v)) ∧
    (∀ (st : BitVec 3) (b a v : BitVec 6) (c r e z : BitVec 1) (p w : BitVec 3) (d op : BitVec 5) (q o fe : BitVec 2),
      (∀ j ∈ [Instr.ldl st b c p d w q, .ldfe st b c p d w q, .ldfeFec st b c p d w q], frame j .s d (b.toNat - 32)) ∧
      frame (.vldl st b c p fe d w q) .v d (b.toNat - 32) ∧ frame (.amol st b d op p o z a v) .s d 8 ∧
      (∀ j ∈ [Instr.stl st b a r p e w q, .vstl st b a r p e w q], frame j .s 31 (b.toNat - 32))) ∧
    ∀ (st p : BitVec 3) (a b n k m : BitVec 6) (ch dir rm : BitVec 2) (post z : BitVec 1) (bar : BitVec 8) (imm : BitVec 32),
      ∀ j ∈ [Instr.cpy st a b n ch dir post bar, .cpym st a b n ch post bar, .tld st a b n ch post bar k, .tst st a b n ch post bar k,
          .mma st a b n z post bar k, .mmag st a b n z post bar k m, .mdrain st a b n rm post bar, .qnt st a b n rm post bar,
          .msend st a p imm, .launch st a b, .doneI st a b, .fence st p dir, .pref st a, .hfree st a, .gleave st a, .bexp st a b,
          .gauge st a b, .waitAll st, .nop st], frame j .s 31 8

/-- 01 R22; 02 R39; 15 R237, R249; 18 R285, R296; 22 R385: what reset leaves where the spec states it: the time, the boot step and
MEAS, the column entries and spares, the routes, the drift interval, the power and thermal registers, the core blocks, and the
registers of a core; memory has its canonical form. -/
def Obligations.ResetValues : Prop :=
  let s := State.reset
  s.Canonical ∧ s.time = 0 ∧ s.boot.step = 1 ∧ s.boot.fail = false ∧ s.boot.meas = 0 ∧
  (∀ c k, k < 16 → (vget 31 (s.colE c) k).toNat = k) ∧
  (∀ h c, h < 64 → c < 16 → (s.ptile (272 * h + 256 + c)).st = .spare ∧ ∀ k, k < 16 → (s.ptile (272 * h + 16 * k + c)).st = .serving) ∧
  (∀ p d, s.route p d = if (routerPos p).1 < d % 128 then 2 else if d % 128 < (routerPos p).1 then 4
    else if (routerPos p).2 / 17 < d / 128 then 3 else if d / 128 < (routerPos p).2 / 17 then 1 else 0) ∧
  (∀ h, (s.chip h).interval = 250000 ∧ (s.chip h).nextCol = 0 ∧
    let p := (s.chip h).pw
    p.dio = 0 ∧ p.dcore = 0 ∧ p.pend = false ∧ p.en = true ∧ p.thresh = 0x05f0 ∧ p.eff = 0 ∧ p.thl = 0 ∧ p.capl = 0 ∧ p.swl = 0 ∧
    p.act = 2000 ∧ p.set = 2000 ∧ p.avglim = 780 ∧ p.pklim = 900 ∧ p.gust = .quiet ∧ p.gen = true) ∧
  (∀ c, coreExists c = true → kindOf c = .sysm →
    let x := s.core c
    x.vec = Vector.replicate 4 0 ∧ x.timecmp = 0xffffffffffffffff ∧ x.mc = false ∧ x.qe = false ∧ x.inh = false ∧ x.ien = 0 ∧
    x.last = 0 ∧ x.jbase = 0) ∧
  ∀ c, coreExists c = true →
    let x := s.core c
    x.check = false ∧ x.trap = 0 ∧ x.r.fflags = 0 ∧ x.r.yund = false ∧
    (∀ k, (vget ic x.r.norm.s k).val = ⟨0, false⟩ ∧ (vget ic x.r.norm.q.e k).val = ⟨0, false⟩ ∧ (vget ic x.r.p k).val = ⟨0, false⟩ ∧
      (vget ic x.r.norm.k k).val = ⟨0, false⟩ ∧ (vget (Cell.mk0 yz) x.r.y k).val = ⟨0, false⟩) ∧
    ∀ k i, (vget (Cell.mk0 vz) x.r.v k).val.lane i = ⟨0, false⟩ ∧ (vget (Cell.mk0 vz) x.r.vq.e k).val.lane i = ⟨0, false⟩

/-! ### Integer and validity instructions (chapter 19) -/

/-- 19 R310: on readable, valid operands each fixed-latency operation of opcode 0x10 delivers its result, valid, at its latency,
and raises no flag; the reserved selectors 26-31 and a nonzero B of a unary operation are no instructions. 19 R311: divisions and
remainders deliver later; a divisor of zero gives invalid zero, and −2^63 by −1 gives −2^63 and remainder 0. -/
def Obligations.IntegerResults : Prop :=
  ((∀ (s : State) (st : BitVec 3) (a b : BitVec 6) (d : BitVec 5),
    s.ready [.s a, .s b] = true → s.codes [a, b] d = true → s.given [a, b] = true →
    let x := (s.op a).v
    let y := (s.op b).v
    let k := y.toNat % 64
    let r (l : Nat) (v : W64) : Host.Outcome State Fault Refusal := .next ((s.gives d l ⟨v, true⟩).moved 1 st)
    exec (.add st a b d) s = r 1 (BitVec.ofNat 64 (x.toNat + y.toNat)) ∧
    exec (.sub st a b d) s = r 1 (BitVec.ofInt 64 (x.toNat - y.toNat)) ∧
    exec (.mul st a b d) s = r 3 (BitVec.ofNat 64 (x.toNat * y.toNat)) ∧
    exec (.mulh st a b d) s = r 3 (BitVec.ofInt 64 (x.toInt * y.toInt / 2 ^ 64)) ∧
    exec (.mulhu st a b d) s = r 3 (BitVec.ofNat 64 (x.toNat * y.toNat / 2 ^ 64)) ∧
    exec (.and st a b d) s = r 1 (x &&& y) ∧
    exec (.or st a b d) s = r 1 (x ||| y) ∧
    exec (.xor st a b d) s = r 1 (x ^^^ y) ∧
    exec (.andn st a b d) s = r 1 (x &&& ~~~y) ∧
    exec (.shl st a b d) s = r 1 (BitVec.ofNat 64 (x.toNat * 2 ^ k)) ∧
    exec (.shr st a b d) s = r 1 (BitVec.ofNat 64 (x.toNat / 2 ^ k)) ∧
    exec (.sra st a b d) s = r 1 (BitVec.ofInt 64 (x.toInt / 2 ^ k)) ∧
    exec (.rol st a b d) s = r 1 (BitVec.ofNat 64 (x.toNat * 2 ^ k + x.toNat / 2 ^ (64 - k))) ∧
    exec (.ror st a b d) s = r 1 (BitVec.ofNat 64 (x.toNat / 2 ^ k + x.toNat * 2 ^ (64 - k))) ∧
    exec (.min st a b d) s = r 1 (BitVec.ofInt 64 (min x.toInt y.toInt)) ∧
    exec (.max st a b d) s = r 1 (BitVec.ofInt 64 (max x.toInt y.toInt)) ∧
    exec (.minu st a b d) s = r 1 (BitVec.ofNat 64 (min x.toNat y.toNat)) ∧
    exec (.maxu st a b d) s = r 1 (BitVec.ofNat 64 (max x.toNat y.toNat))) ∧
  (∀ (s : State) (st : BitVec 3) (a : BitVec 6) (d : BitVec 5),
    s.ready [.s a] = true → s.codes [a] d = true → s.given [a] = true →
    let x := (s.op a).v
    let r (v : Nat) : Host.Outcome State Fault Refusal := .next ((s.gives d 1 ⟨BitVec.ofNat 64 v, true⟩).moved 1 st)
    (∃ n, exec (.clz st a d) s = r n ∧ n ≤ 64 ∧ (∀ i, 64 - n ≤ i → x.getLsbD i = false) ∧
      (n < 64 → x.getLsbD (63 - n) = true)) ∧
    (∃ n, exec (.ctz st a d) s = r n ∧ n ≤ 64 ∧ (∀ i, i < n → x.getLsbD i = false) ∧ (n < 64 → x.getLsbD n = true)) ∧
    exec (.pop st a d) s = r ((List.range 64).countP (fun i => x.getLsbD i)) ∧
    exec (.mov st a d) s = r x.toNat) ∧
  ∀ (w : Nat) (next : Option Nat), w / 2 ^ 22 % 128 = 0x10 → 26 ≤ w % 32 ∨ (22 ≤ w % 32 ∧ w / 2 ^ 10 % 64 ≠ 0) →
    decodeWords w next = .reserved 0x10) ∧
  (∀ (s : State) (st : BitVec 3) (a b : BitVec 6) (d : BitVec 5),
    s.ready [.s a, .s b] = true → s.codes [a, b] d = true → s.given [a, b] = true →
    let x := (s.op a).v
    let y := (s.op b).v
    let r (v : SVal) : Host.Outcome State Fault Refusal := .next ((s.later .s d (.s v)).kept 1 st)
    (y = 0 → exec (.div st a b d) s = r ⟨0, false⟩ ∧ exec (.divu st a b d) s = r ⟨0, false⟩ ∧
      exec (.rem st a b d) s = r ⟨0, false⟩ ∧ exec (.remu st a b d) s = r ⟨0, false⟩) ∧
    (y ≠ 0 →
      (∃ q m : Int, exec (.div st a b d) s = r ⟨BitVec.ofInt 64 q, true⟩ ∧ exec (.rem st a b d) s = r ⟨BitVec.ofInt 64 m, true⟩ ∧
        x.toInt = y.toInt * q + m ∧ m.natAbs < y.toInt.natAbs ∧ (0 < m → 0 < x.toInt) ∧ (m < 0 → x.toInt < 0)) ∧
      exec (.divu st a b d) s = r ⟨BitVec.ofNat 64 (x.toNat / y.toNat), true⟩ ∧
      exec (.remu st a b d) s = r ⟨BitVec.ofNat 64 (x.toNat % y.toNat), true⟩))

/-- 19 R312, R313: the operations with an immediate, LI and LIH; the fields that must be zero there and in R315. 19 R314, R315:
TEST delivers a where the condition of its code holds, else invalid zero; FILL, KEEP, VALID and KILL read validity as data, so no
validity of their operands suppresses them. -/
def Obligations.ImmediateAndValidityResults : Prop :=
  ((∀ (s : State) (st : BitVec 3) (a : BitVec 6) (d : BitVec 5) (i : BitVec 11) (k : BitVec 6) (w : BitVec 32),
    s.ready [.s a] = true → s.codes [a] d = true → s.given [a] = true →
    let x := (s.op a).v
    let r (l : Nat) (v : W64) : Host.Outcome State Fault Refusal := .next ((s.gives d l ⟨v, true⟩).moved 1 st)
    exec (.addi st a d i) s = r 1 (BitVec.ofInt 64 (x.toInt + i.toInt)) ∧
    exec (.muli st a d i) s = r 3 (BitVec.ofInt 64 (x.toInt * i.toInt)) ∧
    exec (.andi st a d i) s = r 1 (x &&& BitVec.ofInt 64 i.toInt) ∧
    exec (.ori st a d i) s = r 1 (x ||| BitVec.ofInt 64 i.toInt) ∧
    exec (.xori st a d i) s = r 1 (x ^^^ BitVec.ofInt 64 i.toInt) ∧
    exec (.shli st a d k) s = r 1 (BitVec.ofNat 64 (x.toNat * 2 ^ k.toNat)) ∧
    exec (.shri st a d k) s = r 1 (BitVec.ofNat 64 (x.toNat / 2 ^ k.toNat)) ∧
    exec (.srai st a d k) s = r 1 (BitVec.ofInt 64 (x.toInt / 2 ^ k.toNat)) ∧
    exec (.lih st a d w) s =
      .next ((s.gives d 1 ⟨BitVec.ofNat 64 (w.toNat * 2 ^ 32 + x.toNat % 2 ^ 32), true⟩).moved 2 st)) ∧
  (∀ (s : State) (st : BitVec 3) (d : BitVec 5) (w : BitVec 32), s.ready [] = true → dLegal s.kind d = true →
    exec (.li st d w) s = .next ((s.gives d 1 ⟨BitVec.ofInt 64 w.toInt, true⟩).moved 2 st)) ∧
  (∀ (s : State) (st : BitVec 3) (a : BitVec 6) (d : BitVec 5) (w : BitVec 32), s.ready [.s a] = true → s.codes [a] d = true →
    s.given [a] = false → exec (.lih st a d w) s = .next ((s.gives d 1 ⟨0, false⟩).moved 2 st)) ∧
  ∀ (w v : Nat),
    (w / 2 ^ 22 % 128 ∈ [0x16, 0x17, 0x18] → w / 2 ^ 6 % 32 ≠ 0 → decodeWords w none = .reserved (w / 2 ^ 22 % 128)) ∧
    (w / 2 ^ 22 % 128 ∈ [0x19, 0x1a] → w % 2 ^ 11 ≠ 0 ∨ (w / 2 ^ 22 % 128 = 0x19 ∧ w / 2 ^ 16 % 64 ≠ 0) →
      decodeWords w (some v) = .reserved (w / 2 ^ 22 % 128)) ∧
    (w / 2 ^ 22 % 128 ∈ [0x21, 0x22, 0x23, 0x24] → w % 32 ≠ 0 ∨ (0x23 ≤ w / 2 ^ 22 % 128 ∧ w / 2 ^ 10 % 64 ≠ 0) →
      decodeWords w none = .reserved (w / 2 ^ 22 % 128))) ∧
  ((∀ (s : State) (st : BitVec 3) (a b : BitVec 6) (d f : BitVec 5),
    s.ready [.s a, .s b] = true → s.codes [a, b] d = true → s.given [a, b] = true → f.toNat < 12 →
    let x := (s.op a).v
    let y := (s.op b).v
    let holds : Prop := match f.toNat with
      | 0 => x = y
      | 1 => x ≠ y
      | 2 => x.toInt < y.toInt
      | 3 => y.toInt ≤ x.toInt
      | 4 => x.toNat < y.toNat
      | 5 => y.toNat ≤ x.toNat
      | 6 => y.toInt < x.toInt
      | 7 => x.toInt ≤ y.toInt
      | 8 => y.toNat < x.toNat
      | 9 => x.toNat ≤ y.toNat
      | 10 => x &&& y ≠ 0
      | _ => x &&& y = 0
    (holds → exec (.test st a b d f) s = .next ((s.gives d 1 ⟨x, true⟩).moved 1 st)) ∧
    (¬holds → exec (.test st a b d f) s = .next ((s.gives d 1 ⟨0, false⟩).moved 1 st))) ∧
  (∀ (s : State) (st : BitVec 3) (a b : BitVec 6) (d f : BitVec 5), s.ready [] = true → 12 ≤ f.toNat →
    exec (.test st a b d f) s = .next (s.takeTrap s.cur ILLOP 0)) ∧
  (∀ (s : State) (st : BitVec 3) (a b : BitVec 6) (d : BitVec 5), s.ready [.s a, .s b] = true → s.codes [a, b] d = true →
    exec (.fill st a b d) s = .next ((s.gives d 1 (if (s.op a).ok then s.op a else s.op b)).moved 1 st) ∧
    exec (.keep st a b d) s =
      .next ((s.gives d 1 (if (s.op a).ok ∧ (s.op b).ok then s.op a else ⟨0, false⟩)).moved 1 st)) ∧
  ∀ (s : State) (st : BitVec 3) (a : BitVec 6) (d : BitVec 5), s.ready [.s a] = true → s.codes [a] d = true →
    exec (.valid st a d) s = .next ((s.gives d 1 ⟨if (s.op a).ok then 1 else 0, true⟩).moved 1 st) ∧
    exec (.kill st a d) s = .next ((s.gives d 1 ⟨0, false⟩).moved 1 st))

/-! ### Pointers (02 R30, R31; 19 R316-R319) -/

/-- 19 R316-R319: PSET copies a value to a pointer; PHND, PXY and POFF replace one field; PGET delivers one; PINC delivers the
pointer after a post-increment and traps ILLOP where WALK is above 3. 02 R31: a post-increment by inc of a pointer whose WALK is
not 0: without an allocated handle it becomes invalid; else the offset wraps at the extent e and the carry walks through VX (WALK
1), VY (WALK 2) or VX and then VY at the partition's width (WALK 3), and a coordinate outside 0-255 makes the pointer invalid. H
and WALK never change. -/
def Obligations.PointerResults : Prop :=
  ((∀ (s : State) (st : BitVec 3) (a : BitVec 6) (d f : BitVec 5) (i : BitVec 11),
    s.ready [.s a] = true → s.kind ≠ .sysm → s.codes [a] d = true → s.given [a] = true →
    let p := (s.op a).v.toNat
    let r (v : Nat) : Host.Outcome State Fault Refusal := .next ((s.gives d 1 ⟨BitVec.ofNat 64 v, true⟩).moved 1 st)
    (17 ≤ d.toNat → d.toNat ≤ 24 → exec (.pset st a d) s = r p) ∧
    (f.toNat < 5 → exec (.pget st a d f) s = r (match f.toNat with
      | 0 => p / 2 ^ 56
      | 1 => p / 2 ^ 48 % 256
      | 2 => p / 2 ^ 40 % 256
      | 3 => p / 2 ^ 32 % 256
      | _ => p % 2 ^ 32)) ∧
    (17 ≤ d.toNat → d.toNat ≤ 24 → 32 ≤ a.toNat → a.toNat ≤ 39 →
      (p / 2 ^ 32 % 256 = 0 → exec (.pinc st a d i) s =
        r (p / 2 ^ 32 * 2 ^ 32 + (((p : Int) % 2 ^ 32 + i.toInt) % 2 ^ 32).toNat)) ∧
      (p / 2 ^ 32 % 256 ≤ 3 → exec (.pinc st a d i) s =
        .next ((s.gives d 1 (s.postincOf s.cur (s.op a).v i.toInt)).moved 1 st)) ∧
      (3 < p / 2 ^ 32 % 256 → exec (.pinc st a d i) s = .next (s.takeTrap s.cur ILLOP 0)))) ∧
  ∀ (s : State) (st : BitVec 3) (a b : BitVec 6) (d : BitVec 5),
    s.ready [.s a, .s b] = true → s.kind ≠ .sysm → s.codes [a, b] d = true → s.given [a, b] = true →
    let p := (s.op a).v.toNat
    let y := (s.op b).v.toNat
    let r (v : Nat) : Host.Outcome State Fault Refusal := .next ((s.gives d 1 ⟨BitVec.ofNat 64 v, true⟩).moved 1 st)
    exec (.phnd st a b d) s = r (p / 2 ^ 48 * 2 ^ 48 + y % 256 * 2 ^ 40 + p % 2 ^ 40) ∧
    exec (.pxy st a b d) s = r (y / 256 % 256 * 2 ^ 56 + y % 256 * 2 ^ 48 + p % 2 ^ 48) ∧
    exec (.poff st a b d) s = r (p / 2 ^ 32 * 2 ^ 32 + y % 2 ^ 32)) ∧
  (∀ (p : W64) (inc : Int) (w : Nat), 0 < w →
    (pWALK p ≠ 0 → (postinc p inc none w).ok = false) ∧
    (pWALK p = 0 → ∀ x, postinc p inc x w = ⟨BitVec.ofNat 64 (p.toNat / 2 ^ 32 * 2 ^ 32 + ((pOFF p + inc) % 2 ^ 32).toNat), true⟩) ∧
    (∀ e : Nat, 0 < e → e < 2 ^ 32 → pWALK p ≠ 0 → pWALK p ≤ 3 →
      let q := postinc p inc (some e) w
      let n : Int := (pOFF p + inc) / e
      pOFF q.v = ((pOFF p + inc) % e).toNat ∧ pH q.v = pH p ∧ pWALK q.v = pWALK p ∧
      (pWALK p = 1 → pVY q.v = pVY p ∧ (q.ok = true ↔ 0 ≤ pVX p + n ∧ pVX p + n < 256) ∧ (q.ok = true → (pVX q.v : Int) = pVX p + n)) ∧
      (pWALK p = 2 → pVX q.v = pVX p ∧ (q.ok = true ↔ 0 ≤ pVY p + n ∧ pVY p + n < 256) ∧ (q.ok = true → (pVY q.v : Int) = pVY p + n)) ∧
      (pWALK p = 3 → q.ok = true → (pVX q.v : Int) = (pVX p + n) % w ∧ (pVY q.v : Int) = pVY p + (pVX p + n) / w)))

/-! ### Floating point and vectors (chapters 04 and 20) -/

/-- 04 R83-R85: a magnitude m x 2^e rounded to a multiple of 2^q, q > e: toward zero takes the multiple below, upward for a
positive and downward for a negative value the multiple at or above, to nearest the nearer one and the even one of two equally
near; exact is told apart from inexact. 04 R79, R83, R85, R100; 20 R322, R323: NaN operands give the canonical NaN, with IV for a
signalling one; infinities, zeros and their invalid pairs give the results of the tables. -/
def Obligations.RoundingAndSpecialCases : Prop :=
  (∀ (neg : Bool) (m : Nat) (e q : Int), e < q →
    let u := 2 ^ (q - e).toNat
    let r (rm : Nat) := (roundAt rm neg m e q).1
    (r 1 * u ≤ m ∧ m < (r 1 + 1) * u) ∧
    (∀ rm, rm < 4 → ((roundAt rm neg m e q).2 = true ↔ m % u ≠ 0) ∧ (m % u = 0 → r rm * u = m)) ∧
    (neg = false → m ≤ r 2 * u ∧ r 2 * u < m + u ∧ r 3 = r 1) ∧ (neg = true → m ≤ r 3 * u ∧ r 3 * u < m + u ∧ r 2 = r 1) ∧
    (2 * r 0 * u ≤ 2 * m + u ∧ 2 * m ≤ 2 * r 0 * u + u) ∧
    (2 * m % (2 * u) = u → r 0 % 2 = 0)) ∧
  (let nan (u : Nat) : Prop := 0x7f800000 < u % 2 ^ 31
  let sig (u : Nat) : Prop := nan u ∧ u / 2 ^ 22 % 2 = 0
  (∀ rm u w, rm < 4 → u < 2 ^ 32 → w < 2 ^ 32 → (nan u ∨ nan w) →
    (∀ f ∈ [fAdd, fSub, fMul, fDiv], (f rm u w).bits = 0x7fc00000 ∧ ((sig u ∨ sig w) → (f rm u w).flags = 16) ∧
      (¬(sig u ∨ sig w) → (f rm u w).flags = 0))) ∧
  (∀ rm u, rm < 4 → u < 2 ^ 32 → nan u → (fSqrt rm u).bits = 0x7fc00000) ∧
  (∀ rm, rm < 4 → fAdd rm 0x7f800000 0xff800000 = ⟨0x7fc00000, 16⟩ ∧ fSub rm 0x7f800000 0x7f800000 = ⟨0x7fc00000, 16⟩ ∧
    fMul rm 0 0xff800000 = ⟨0x7fc00000, 16⟩ ∧ fDiv rm 0 0x80000000 = ⟨0x7fc00000, 16⟩ ∧
    fDiv rm 0x7f800000 0x7f800000 = ⟨0x7fc00000, 16⟩ ∧ fDiv rm 0x7f800000 0 = ⟨0x7f800000, 0⟩ ∧
    fDiv rm 0x3f800000 0x80000000 = ⟨0xff800000, 8⟩ ∧ fSqrt rm 0x80000000 = ⟨0x80000000, 0⟩ ∧ fSqrt rm 0x7f800000 = ⟨0x7f800000, 0⟩ ∧
    fSqrt rm 0xff800000 = ⟨0x7fc00000, 16⟩ ∧ fFma rm 0 0x7f800000 0x7fc00000 = ⟨0x7fc00000, 16⟩) ∧
  (∀ rm u, rm < 4 → u < 0x7f800000 → 0 < u → fDiv rm u 0 = ⟨0x7f800000, 8⟩ ∧ fSqrt rm (u + 2 ^ 31) = ⟨0x7fc00000, 16⟩ ∧
    fAdd rm u (u + 2 ^ 31) = ⟨if rm = 3 then 0x80000000 else 0, 0⟩) ∧
  (∀ u w, u < 2 ^ 32 → w < 2 ^ 32 → nan u → ¬nan w → ∀ b, (fMinMax b u w).bits = w ∧ (fMinMax b w u).bits = w) ∧
  fMinMax false 0x80000000 0 = ⟨0x80000000, 0⟩ ∧ fMinMax true 0x80000000 0 = ⟨0, 0⟩ ∧
  fMinMax false 0x7fc00001 0x7fc00000 = ⟨0x7fc00000, 0⟩ ∧ (convert 0 2 0 0x3f808000).1 = 0x3f80 ∧ (convert 0 2 0 0x3f808000).2 = 1)

/-- 20 R321-R328: the scalar float instructions read FP32 in the low bits, OR their flags into cr.fflags, and deliver their result
zero-extended at latency 4, conversions at 3, FDIV and FSQRT later. -/
def Obligations.FloatResults : Prop :=
  (∀ (s : State) (st : BitVec 3) (a b c : BitVec 6) (d f : BitVec 5) (r : BitVec 2),
    s.ready [.s a, .s b] = true → s.codes [a, b] d = true → s.given [a, b] = true →
    let x := (s.op a).v.toNat % 2 ^ 32
    let y := (s.op b).v.toNat % 2 ^ 32
    let g (v : FRes) : Host.Outcome State Fault Refusal :=
      .next (((s.flag v.flags).gives d 4 ⟨BitVec.ofNat 64 v.bits, true⟩).moved 1 st)
    exec (.fadd st a b d r) s = g (fAdd r.toNat x y) ∧ exec (.fsub st a b d r) s = g (fSub r.toNat x y) ∧
    exec (.fmul st a b d r) s = g (fMul r.toNat x y) ∧ exec (.fmin st a b d) s = g (fMinMax false x y) ∧
    exec (.fmax st a b d) s = g (fMinMax true x y) ∧
    exec (.fdiv st a b d r) s = .next (((s.flag (fDiv r.toNat x y).flags).laterFlag .s d
      (.s ⟨BitVec.ofNat 64 (fDiv r.toNat x y).bits, true⟩)).kept 1 st) ∧
    (f.toNat < 8 → ∃ (holds : Bool) (fl : BitVec 5), fCond f.toNat x y = some (holds, fl) ∧
      exec (.ftest st a b d f) s = .next (((s.flag fl).gives d 4 (if holds then s.op a else ⟨0, false⟩)).moved 1 st)) ∧
    (s.ready [.s c] = true → sLegal s.kind c = true → (s.op c).ok = true → exec (.ffma st a d b r c) s =
      .next (((s.flag (fFma r.toNat x y ((s.op c).v.toNat % 2 ^ 32)).flags).gives d 4
        ⟨BitVec.ofNat 64 (fFma r.toNat x y ((s.op c).v.toNat % 2 ^ 32)).bits, true⟩).moved 2 st))) ∧
  ∀ (s : State) (st : BitVec 3) (a : BitVec 6) (d : BitVec 5) (r : BitVec 2) (m n : BitVec 3),
    s.ready [.s a] = true → s.codes [a] d = true → s.given [a] = true →
    let x := (s.op a).v.toNat % 2 ^ 32
    let g (v : Nat) : Host.Outcome State Fault Refusal := .next ((s.gives d 4 ⟨BitVec.ofNat 64 v, true⟩).moved 1 st)
    exec (.fabs st a d) s = g (x % 2 ^ 31) ∧ exec (.fneg st a d) s = g (if x < 2 ^ 31 then x + 2 ^ 31 else x - 2 ^ 31) ∧
    exec (.fclass st a d) s = g (if x = 0xff800000 then 1 else if 0x80800000 ≤ x ∧ x < 0xff800000 then 2
      else if 0x80000000 < x ∧ x < 0x80800000 then 4 else if x = 0x80000000 then 8 else if x = 0 then 0x10
      else if x < 0x800000 then 0x20 else if x < 0x7f800000 then 0x40 else if x = 0x7f800000 then 0x80
      else if x / 2 ^ 22 % 2 = 0 then 0x100 else 0x200) ∧
    exec (.fsqrt st a d r) s = .next (((s.flag (fSqrt r.toNat x).flags).laterFlag .s d
      (.s ⟨BitVec.ofNat 64 (fSqrt r.toNat x).bits, true⟩)).kept 1 st) ∧
    (m ≠ n → m ≠ 7 → n ≠ 7 → exec (.fcvt st a m n d r) s =
      .next (((s.flag (convert m.toNat n.toNat r.toNat (s.op a).v).2).gives d 3
        ⟨(convert m.toNat n.toNat r.toNat (s.op a).v).1, true⟩).moved 1 st))

/-- 20 R329, R330: the lane-wise integer operations, at latency 2; a lane is an invalid zero where a source lane is invalid. -/
def Obligations.VectorIntegerResults : Prop :=
  ∀ (s : State) (st : BitVec 3) (a b : BitVec 6) (d : BitVec 5),
    s.kind = .worker → s.ready [.v a, .v b] = true → vLegal a = true → vLegal b = true → dvLegal d = true →
    let x := s.opV a
    let y := s.opV b
    let r (f : W32 → W32 → W32) : Host.Outcome State Fault Refusal := .next ((s.givesV d 2 (vecMk (fun i =>
      if (x.lane i).ok ∧ (y.lane i).ok then ⟨f (x.lane i).v (y.lane i).v, true⟩ else ⟨0, false⟩))).moved 1 st)
    let q (f : W32 → W32) : Host.Outcome State Fault Refusal := .next ((s.givesV d 2 (vecMk (fun i =>
      if (x.lane i).ok then ⟨f (x.lane i).v, true⟩ else ⟨0, false⟩))).moved 1 st)
    exec (.vadd st a b d) s = r (fun u w => BitVec.ofNat 32 (u.toNat + w.toNat)) ∧
    exec (.vsub st a b d) s = r (fun u w => BitVec.ofInt 32 (u.toNat - w.toNat)) ∧
    exec (.vmul st a b d) s = r (fun u w => BitVec.ofNat 32 (u.toNat * w.toNat)) ∧
    exec (.vmulh st a b d) s = r (fun u w => BitVec.ofInt 32 (u.toInt * w.toInt / 2 ^ 32)) ∧
    exec (.vmulhu st a b d) s = r (fun u w => BitVec.ofNat 32 (u.toNat * w.toNat / 2 ^ 32)) ∧
    exec (.vand st a b d) s = r (fun u w => u &&& w) ∧ exec (.vor st a b d) s = r (fun u w => u ||| w) ∧
    exec (.vxor st a b d) s = r (fun u w => u ^^^ w) ∧ exec (.vandn st a b d) s = r (fun u w => u &&& ~~~w) ∧
    exec (.vshl st a b d) s = r (fun u w => BitVec.ofNat 32 (u.toNat * 2 ^ (w.toNat % 32))) ∧
    exec (.vshr st a b d) s = r (fun u w => BitVec.ofNat 32 (u.toNat / 2 ^ (w.toNat % 32))) ∧
    exec (.vsra st a b d) s = r (fun u w => BitVec.ofInt 32 (u.toInt / 2 ^ (w.toNat % 32))) ∧
    exec (.vmin st a b d) s = r (fun u w => if u.toInt ≤ w.toInt then u else w) ∧
    exec (.vmax st a b d) s = r (fun u w => if u.toInt ≤ w.toInt then w else u) ∧
    exec (.vminu st a b d) s = r (fun u w => if u.toNat ≤ w.toNat then u else w) ∧
    exec (.vmaxu st a b d) s = r (fun u w => if u.toNat ≤ w.toNat then w else u) ∧
    exec (.vpop st a d) s = q (fun u => BitVec.ofNat 32 ((List.range 32).countP (fun i => u.getLsbD i))) ∧
    exec (.vmov st a d) s = q (fun u => u)

/-- 20 R329, R331, R333, R334, R342: the lane-wise float operations: each valid lane follows the scalar rule, the flags are those
of all valid lanes. -/
def Obligations.VectorFloatResults : Prop :=
  ∀ (s : State) (st : BitVec 3) (a b c : BitVec 6) (d f : BitVec 5) (r : BitVec 2) (m n : BitVec 3),
    s.kind = .worker → s.ready [.v a, .v b, .v c] = true → vLegal a = true → vLegal b = true → vLegal c = true →
    dvLegal d = true →
    let x := s.opV a
    let y := s.opV b
    let z := s.opV c
    let or (g : Nat → Lane × BitVec 5) : BitVec 5 := (List.range 16).foldl (fun t i => t ||| (g i).2) 0
    let put (l w : Nat) (g : Nat → Lane × BitVec 5) : Host.Outcome State Fault Refusal :=
      .next (((s.flag (or g)).givesV d l (vecMk (fun i => (g i).1))).moved w st)
    let put' (g : Nat → Lane × BitVec 5) : Host.Outcome State Fault Refusal :=
      .next (((s.flag (or g)).laterFlag .v d (.v (vecMk (fun i => (g i).1)))).kept 1 st)
    let res (v : FRes) : Lane × BitVec 5 := (⟨BitVec.ofNat 32 v.bits, true⟩, v.flags)
    let no : Lane × BitVec 5 := (⟨0, false⟩, 0)
    let un (g : Nat → FRes) (i : Nat) : Lane × BitVec 5 := if (x.lane i).ok then res (g (x.lane i).v.toNat) else no
    let bi (g : Nat → Nat → FRes) (i : Nat) : Lane × BitVec 5 :=
      if (x.lane i).ok ∧ (y.lane i).ok then res (g (x.lane i).v.toNat (y.lane i).v.toNat) else no
    exec (.vfadd st a b d r) s = put 4 1 (bi (fAdd r.toNat)) ∧ exec (.vfsub st a b d r) s = put 4 1 (bi (fSub r.toNat)) ∧
    exec (.vfmul st a b d r) s = put 4 1 (bi (fMul r.toNat)) ∧ exec (.vfmin st a b d) s = put 4 1 (bi (fMinMax false)) ∧
    exec (.vfmax st a b d) s = put 4 1 (bi (fMinMax true)) ∧
    exec (.vfabs st a d) s = put 4 1 (un (fun u => ⟨u % 2 ^ 31, 0⟩)) ∧
    exec (.vfneg st a d) s = put 4 1 (un (fun u => ⟨(u + 2 ^ 31) % 2 ^ 32, 0⟩)) ∧
    exec (.vffma st a d b r c) s = put 4 2 (fun i => if (x.lane i).ok ∧ (y.lane i).ok ∧ (z.lane i).ok then
      res (fFma r.toNat (x.lane i).v.toNat (y.lane i).v.toNat (z.lane i).v.toNat) else no) ∧
    exec (.vfdiv st a b d r) s = put' (bi (fDiv r.toNat)) ∧ exec (.vfsqrt st a d r) s = put' (un (fSqrt r.toNat)) ∧
    exec (.vexp2 st a d) s = put 6 1 (un fExp2) ∧ exec (.vrcp st a d) s = put 6 1 (un fRcp) ∧
    (m ≠ n → m.toNat < 6 → n.toNat < 6 → exec (.vcvt st a m n d r) s = put 4 1 (fun i => if (x.lane i).ok then
      (⟨BitVec.ofNat 32 (convert m.toNat n.toNat r.toNat (BitVec.ofNat 64 (x.lane i).v.toNat)).1.toNat, true⟩,
        (convert m.toNat n.toNat r.toNat (BitVec.ofNat 64 (x.lane i).v.toNat)).2) else no)) ∧
    (f.toNat < 12 → exec (.vtest st a b d f) s = put 2 1 (fun i => if (x.lane i).ok ∧ (y.lane i).ok ∧
      testCond f.toNat (x.lane i).v (y.lane i).v = some true then (x.lane i, 0) else no)) ∧
    (16 ≤ f.toNat → f.toNat < 24 → exec (.vtest st a b d f) s = put 2 1 (fun i => if (x.lane i).ok ∧ (y.lane i).ok then
      (match fCond (f.toNat - 16) (x.lane i).v.toNat (y.lane i).v.toNat with
      | some (h, fl) => (if h then x.lane i else ⟨0, false⟩, fl)
      | none => no) else no))

/-- 20 R337-R341, R343: permutes, lane moves, validity and packing, lane by lane. 04 R98, R99; 20 R335, R336: VRED's integer forms
combine the valid lanes whatever the order, with an invalid zero only where no lane is valid; the float forms take the fixed
trees; VSCAN leaves at each valid lane the combination of the valid lanes up to it. -/
def Obligations.VectorMoveAndReduceResults : Prop :=
  ((∀ (s : State) (st : BitVec 3) (a b : BitVec 6) (d : BitVec 5),
    s.kind = .worker → s.ready [.v a, .v b] = true → vLegal a = true → vLegal b = true → dvLegal d = true →
    let x := s.opV a
    let y := s.opV b
    let no : Lane := ⟨0, false⟩
    let r (l : Nat) (g : Nat → Lane) : Host.Outcome State Fault Refusal := .next ((s.givesV d l (vecMk g)).moved 1 st)
    let el (e : Nat) : Lane := if e < 16 then x.lane e else y.lane (e - 16)
    let h16 (v : VVal) (e : Nat) : Nat := (v.lane (e / 2)).v.toNat / 2 ^ (16 * (e % 2)) % 2 ^ 16
    let b8 (v : VVal) (e : Nat) : Nat := (v.lane (e / 4)).v.toNat / 2 ^ (8 * (e % 4)) % 2 ^ 8
    let hf := (y.lane 0).v.toNat % 2
    exec (.vperm st a b d) s = r 3 (fun i => if (y.lane i).ok ∧ (y.lane i).v.toNat ≤ 15 ∧ (x.lane (y.lane i).v.toNat).ok then
      x.lane (y.lane i).v.toNat else no) ∧
    exec (.vidx st d) s = r 2 (fun i => ⟨BitVec.ofNat 32 i, true⟩) ∧
    exec (.vfill st a b d) s = r 2 (fun i => if (x.lane i).ok then x.lane i else y.lane i) ∧
    exec (.vkeep st a b d) s = r 2 (fun i => if (x.lane i).ok ∧ (y.lane i).ok then x.lane i else no) ∧
    exec (.vvalid st a d) s = r 2 (fun i => ⟨if (x.lane i).ok then 1 else 0, true⟩) ∧
    exec (.vkill st a d) s = r 2 (fun _ => no) ∧
    exec (.vpack16 st a b d) s = r 2 (fun i => if (el (2 * i)).ok ∧ (el (2 * i + 1)).ok then
      ⟨BitVec.ofNat 32 ((el (2 * i)).v.toNat % 2 ^ 16 + (el (2 * i + 1)).v.toNat % 2 ^ 16 * 2 ^ 16), true⟩ else no) ∧
    exec (.vpack8 st a b d) s = r 2 (fun i =>
      let v := if i < 8 then x else y
      let e (k : Nat) := h16 v (4 * (i % 8) + k) % 256
      if (v.lane (2 * (i % 8))).ok ∧ (v.lane (2 * (i % 8) + 1)).ok then
        ⟨BitVec.ofNat 32 (e 0 + e 1 * 2 ^ 8 + e 2 * 2 ^ 16 + e 3 * 2 ^ 24), true⟩ else no) ∧
    exec (.vunpk16 st a b d) s = r 2 (fun i => if (x.lane (8 * hf + i / 2)).ok ∧ (y.lane 0).ok then
      ⟨BitVec.ofNat 32 (h16 x (16 * hf + i)), true⟩ else no) ∧
    exec (.vunpk8 st a b d) s = r 2 (fun i => if (x.lane (8 * hf + i / 2)).ok ∧ (y.lane 0).ok then
      ⟨BitVec.ofNat 32 (b8 x (32 * hf + 2 * i) + b8 x (32 * hf + 2 * i + 1) * 2 ^ 16), true⟩ else no)) ∧
  ∀ (s : State) (st : BitVec 3) (a b : BitVec 6) (d : BitVec 5),
    s.kind = .worker → s.ready [.v a, .s b] = true → vLegal a = true → sLegal s.kind b = true → (s.op b).ok = true →
    let x := s.opV a
    let y := (s.op b).v.toNat
    (dLegal s.kind d = true → exec (.vext st a b d) s = .next ((s.gives d 2 (if (x.lane (y % 16)).ok then
      ⟨BitVec.ofNat 64 (x.lane (y % 16)).v.toNat, true⟩ else ⟨0, false⟩)).moved 1 st)) ∧
    (dLegal s.kind d = true → exec (.vcnt st a d) s =
      .next ((s.gives d 2 ⟨BitVec.ofNat 64 ((List.range 16).countP (fun i => (x.lane i).ok)), true⟩).moved 1 st)) ∧
    (dvLegal d = true → exec (.vins st a b d) s = .next ((s.givesV d 2 (vecMk (fun i =>
      if i = y / 2 ^ 32 % 16 then ⟨BitVec.ofNat 32 y, true⟩ else x.lane i))).moved 1 st))) ∧
  (∀ (s : State) (st : BitVec 3) (a : BitVec 6) (d : BitVec 5),
    s.kind = .worker → s.ready [.v a] = true → vLegal a = true →
    let x := s.opV a
    let l := (x.toList.filter (·.ok)).map (·.v)
    let sums (n : Nat) : List W32 := (((x.toList.take (n + 1)).filter (·.ok)).map (·.v))
    (dLegal s.kind d = true →
      (∀ f : BitVec 5, l = [] → f.toNat < 9 → exec (.vred st a d f) s = .next ((s.gives d 5 ⟨0, false⟩).moved 1 st)) ∧
      (l ≠ [] →
        exec (.vred st a d 0) s = .next ((s.gives d 5 ⟨(l.foldl (· + ·) 0).signExtend 64, true⟩).moved 1 st) ∧
        exec (.vred st a d 6) s = .next ((s.gives d 5 ⟨(l.foldl (· &&& ·) (-1)).setWidth 64, true⟩).moved 1 st) ∧
        exec (.vred st a d 7) s = .next ((s.gives d 5 ⟨(l.foldl (· ||| ·) 0).setWidth 64, true⟩).moved 1 st) ∧
        exec (.vred st a d 8) s = .next ((s.gives d 5 ⟨(l.foldl (· ^^^ ·) 0).setWidth 64, true⟩).moved 1 st) ∧
        (∃ m ∈ l, (∀ v ∈ l, v.toInt ≤ m.toInt) ∧
          exec (.vred st a d 4) s = .next ((s.gives d 5 ⟨m.signExtend 64, true⟩).moved 1 st)) ∧
        (∃ m ∈ l, (∀ v ∈ l, m.toInt ≤ v.toInt) ∧
          exec (.vred st a d 5) s = .next ((s.gives d 5 ⟨m.signExtend 64, true⟩).moved 1 st)) ∧
        (∀ f ∈ [1, 2, 3], exec (.vred st a d (BitVec.ofNat 5 f)) s = .next (((s.flag (redTree f x).2).gives d 5
          ⟨(redTree f x).1.v.setWidth 64, true⟩).moved 1 st)))) ∧
    (dvLegal d = true →
      exec (.vscan st a d 0) s = .next ((s.givesV d 6 (vecMk (fun i =>
        if (x.lane i).ok then ⟨(sums i).foldl (· + ·) 0, true⟩ else ⟨0, false⟩))).moved 1 st) ∧
      ∀ f ∈ [1, 2, 3, 4, 5], exec (.vscan st a d (BitVec.ofNat 5 f)) s =
        .next (((s.flag (scanTree f x).2).givesV d 6 (scanTree f x).1).moved 1 st)))

/-! ### Control and system instructions (chapters 19 and 22) -/

/-- 19 R303-R305: NOP goes on; a transfer enters hdr + 8 x offset, or the address in A, naming the header and word it came from;
BRV goes on a valid, BRN on an invalid condition, code 63 is always and never; CALL writes s15 with the header that follows the
block; a misaligned register target traps BADTGT, CALL having written s15; an invalid one is no branch. 19 R306: LOOP with an
invalid count or a count of 0 enters the exit header with its counter invalid zero or 0; otherwise it enters the block that
follows with the counter at the count and the loop on the stack; a fifth loop traps LOOPDEPTH, a loop without a body ILLOP. -/
def Obligations.BranchesAndLoops : Prop :=
  ((∀ (s : State) (t : W64), (s.goes t).core s.cur = { s.core s.cur with
    phase := .entering t (.branch (s.core s.cur).blk.hdr (s.core s.cur).blk.widx), blocked := false, awaits := false,
    began := none, resume := none, busyAt := none, replayTo := 0 }) ∧
  (∀ (s : State) (st : BitVec 3) (o : BitVec 16), s.ready [] = true →
    let b := (s.core s.cur).blk
    let len := b.head.toNat / 2 ^ 48 % 256
    let next := b.hdr + BitVec.ofNat 64 (8 + 4 * (len + len % 2))
    let t := b.hdr + BitVec.ofInt 64 (8 * o.toInt)
    exec (.nop st) s = .next (s.moved 1 st) ∧ exec (.br st o) s = .next (s.goes t) ∧
    exec (.brv st 63 o) s = .next (s.goes t) ∧ exec (.brn st 63 o) s = .next (s.moved 1 st) ∧
    (∃ u : State, exec (.call st o) s = .next (u.goes t) ∧ (∀ k, k < 15 → vget ic (u.core s.cur).bank.s k = vget ic (s.core s.cur).bank.s k) ∧
      vget ic (u.core s.cur).bank.s 15 = ⟨⟨next, true⟩, b.slot + 1, none⟩ ∧ (u.core s.cur).bank.q = (s.core s.cur).bank.q) ∧
    ∀ f : BitVec 6, s.ready [.s f] = true → sLegal s.kind f = true →
      ((s.op f).ok = true → exec (.brv st f o) s = .next (s.goes t) ∧ exec (.brn st f o) s = .next (s.moved 1 st)) ∧
      ((s.op f).ok = false → exec (.brv st f o) s = .next (s.moved 1 st) ∧ exec (.brn st f o) s = .next (s.goes t))) ∧
  ∀ (s : State) (st : BitVec 3) (a : BitVec 6), s.ready [.s a] = true → sLegal s.kind a = true →
    let t := (s.op a).v
    let len := (s.core s.cur).blk.head.toNat / 2 ^ 48 % 256
    let next := (s.core s.cur).blk.hdr + BitVec.ofNat 64 (8 + 4 * (len + len % 2))
    ((s.op a).ok = false → exec (.brx st a) s = .next (s.moved 1 st) ∧ exec (.ret st a) s = .next (s.moved 1 st) ∧
      exec (.callThroughRegister st a) s = .next (s.moved 1 st)) ∧
    ((s.op a).ok = true → t.toNat % 8 = 0 → exec (.brx st a) s = .next (s.goes t) ∧ exec (.ret st a) s = .next (s.goes t) ∧
      ∃ u : State, exec (.callThroughRegister st a) s = .next (u.goes t) ∧
        vget ic (u.core s.cur).bank.s 15 = ⟨⟨next, true⟩, (s.core s.cur).blk.slot + 1, none⟩) ∧
    ((s.op a).ok = true → t.toNat % 8 ≠ 0 → exec (.brx st a) s = .next (s.takeTrap s.cur BADTGT 0) ∧
      exec (.ret st a) s = .next (s.takeTrap s.cur BADTGT 0) ∧
      ∃ u : State, exec (.callThroughRegister st a) s = .next (u.takeTrap s.cur BADTGT 0) ∧
        vget ic (u.core s.cur).bank.s 15 = ⟨⟨next, true⟩, (s.core s.cur).blk.slot + 1, none⟩)) ∧
  (∀ (s : State) (st : BitVec 3) (a : BitVec 6) (d : BitVec 5) (w : BitVec 32),
    s.ready [.s a] = true → sLegal s.kind a = true → 25 ≤ d.toNat → d.toNat ≤ 28 →
    let b := (s.core s.cur).blk
    let x := s.core s.cur
    let exit := b.hdr + BitVec.ofInt 64 (8 * w.toInt)
    let n := (s.op a).v.toNat % 2 ^ 32
    let k := d.toNat - 25
    (exit = b.next → exec (.loop st a d w) s = .next (s.takeTrap s.cur ILLOP 0)) ∧
    (exit ≠ b.next → (s.op a).ok = true → 4 ≤ x.bank.loops.length →
      exec (.loop st a d w) s = .next (s.takeTrap s.cur LOOPDEPTH 0)) ∧
    (exit ≠ b.next → (s.op a).ok = false → ∃ u : State, exec (.loop st a d w) s = .next (u.goes exit) ∧
      vget ic (u.core s.cur).bank.k k = ⟨⟨0, false⟩, 0, none⟩ ∧ (u.core s.cur).bank.loops = x.bank.loops) ∧
    (exit ≠ b.next → (s.op a).ok = true → x.bank.loops.length < 4 → n = 0 → ∃ u : State,
      exec (.loop st a d w) s = .next (u.goes exit) ∧ vget ic (u.core s.cur).bank.k k = ⟨⟨0, true⟩, 0, none⟩ ∧
      (u.core s.cur).bank.loops = x.bank.loops) ∧
    (exit ≠ b.next → (s.op a).ok = true → x.bank.loops.length < 4 → n ≠ 0 → ∃ u : State,
      exec (.loop st a d w) s = .next (u.goes b.next) ∧
      vget ic (u.core s.cur).bank.k k = ⟨⟨BitVec.ofNat 64 n, true⟩, 0, none⟩ ∧
      (u.core s.cur).bank.loops = ⟨k, b.next, exit⟩ :: x.bank.loops))

/-- 10 R184; 19 R308, R309: EXIT ends the task at once, whatever groups it is in, ORs its flags into the kernel's status and
counts one task less; WAIT.all goes on once no result, store or remote access of the core is outstanding and is held till then;
WAIT.time once the core's clock reads the time; TRAP raises the trap its immediate names. -/
def Obligations.ExitWaitTrap : Prop :=
  (∀ (s : State) (st : BitVec 3), s.ready [] = true → s.kind ≠ .sysm →
    ∃ t, exec (.exit st) s = .next t ∧ (t.core s.cur).phase = .idle ∧ (t.core s.cur).task = none ∧
      (∀ a, memRead t.mem a = memRead s.mem a) ∧
      ∀ r k, (s.core s.cur).task = some r → mfind s.kernels r.kern = some k → ∃ k', mfind t.kernels r.kern = some k' ∧
        k'.left = k.left - 1 ∧ k'.fflags = k.fflags ||| (s.core s.cur).r.fflags ∧
        k'.yund = (k.yund || (s.core s.cur).r.yund)) ∧
  (∀ (s : State) (st : BitVec 3), s.ready [] = true →
    let l := (s.core s.cur).flights.filter Flight.waited
    (l = [] → s.buffered s.cur = false → s.accOut s.cur = false → exec (.waitAll st) s = .next (s.moved 1 st)) ∧
    (l ≠ [] ∨ s.buffered s.cur = true ∨ s.accOut s.cur = true → exec (.waitAll st) s =
      .next (if l.any Flight.isResult then s.pends else s.waits))) ∧
  (∀ (s : State) (st : BitVec 3) (a : BitVec 6), s.ready [.s a] = true → sLegal s.kind a = true →
    ((s.op a).ok = false ∨ (s.op a).v.toNat ≤ s.clock s.cur → exec (.waitTime st a) s = .next (s.moved 1 st)) ∧
    ((s.op a).ok = true → s.clock s.cur < (s.op a).v.toNat → exec (.waitTime st a) s = .next s.waits)) ∧
  ∀ (s : State) (st : BitVec 3) (i : BitVec 11), s.ready [] = true → 1 ≤ i.toNat → i.toNat ≤ 14 →
    (s.kind ≠ .sysm → exec (.trap st i) s = .next (s.takeTrap s.cur i.toNat 0)) ∧
    (s.kind = .sysm → exec (.trap st i) s = .next (s.machineCheck s.cur
      (mcauseVal 1 i.toNat false (s.core s.cur).blk.hdr) (s.core s.cur).blk.next))

/-- 02 R34; 22 R384: CRD delivers each register that the core's kind and mode may read, at latency 2; the tile-only ones read as
an invalid zero on a system core. A CRD of cr.fflags or cr.ystat waits for the flags of earlier instructions (04 R101), one of
cr.xdone is an acquire. 02 R34; 22 R384: CWR writes cr.check, cr.fflags and cr.ystat of a tile core, and cr.ytable, cr.mcause but
for its bits [54:53], cr.jbase, cr.lull and cr.gust of a system core; a write of a read-only register traps PROT, of a tile-only
one on a system core ILLOP, of an unassigned number ILLOP; an invalid operand writes nothing. -/
def Obligations.ControlRegisters : Prop :=
  ((∀ (s : State) (st : BitVec 3) (d : BitVec 5), s.ready [] = true → s.kind ≠ .sysm → dLegal s.kind d = true →
    let x := s.core s.cur
    let v := s.tile (tileOf s.cur)
    let r (w : W64) : Host.Outcome State Fault Refusal := .next ((s.gives d 2 ⟨w, true⟩).kept 1 st)
    exec (.crd st d 0) s = r ((s.vtileBits (tileOf s.cur)).setWidth 64) ∧
    exec (.crd st d 1) s = r (BitVec.ofNat 64 (s.ptileBits (tileOf s.cur))) ∧
    exec (.crd st d 3) s = r x.taskarg ∧ exec (.crd st d 4) s = r (x.taskid.setWidth 64) ∧ exec (.crd st d 5) s = r x.kreg ∧
    (s.flagsOpen s.cur = false → exec (.crd st d 8) s = r (if x.r.yund then 1 else 0)) ∧
    (s.flagsOpen s.cur = true → exec (.crd st d 8) s = .next s.waits) ∧
    (∀ p, x.phase = .saving p → exec (.crd st d 0x21) s = r v.ytab) ∧
    (∀ k, k < 4 → ∃ t, exec (.crd st d (BitVec.ofNat 16 (0x10 + k))) s = .next t ∧
      (d ≠ 31 → ((t.core s.cur).bank.q.age ic 0).val = ⟨(vget 0 v.chDone k).setWidth 64, true⟩) ∧ (t.core s.cur).watches = [])) ∧
  (∀ (s : State) (st : BitVec 3) (d : BitVec 5), s.ready [] = true → dLegal s.kind d = true →
    let x := s.core s.cur
    let r (w : W64) : Host.Outcome State Fault Refusal := .next ((s.gives d 2 ⟨w, true⟩).kept 1 st)
    exec (.crd st d 2) s = r (BitVec.ofNat 64 (s.clock s.cur)) ∧ exec (.crd st d 6) s = r (if x.check then 1 else 0) ∧
    (s.flagsOpen s.cur = false → exec (.crd st d 7) s = r (x.r.fflags.setWidth 64)) ∧
    (s.flagsOpen s.cur = true → exec (.crd st d 7) s = .next s.waits) ∧
    exec (.crd st d 0x18) s = r (BitVec.ofNat 64 x.trap.toNat) ∧
    exec (.crd st d 0x19) s = r (BitVec.ofNat 64 (x.trap.toNat / 2 ^ 64))) ∧
  ∀ (s : State) (st : BitVec 3) (d : BitVec 5), s.ready [] = true → s.kind = .sysm → dLegal s.kind d = true →
    let x := s.core s.cur
    let r (w : SVal) : Host.Outcome State Fault Refusal := .next ((s.gives d 2 w).kept 1 st)
    (∀ n ∈ [0, 1, 3, 4, 5, 0x10, 0x11, 0x12, 0x13], exec (.crd st d n) s = r ⟨0, false⟩) ∧
    exec (.crd st d 0x21) s = r ⟨x.ytab, true⟩ ∧ exec (.crd st d 0x23) s = r ⟨x.mcause, true⟩ ∧
    exec (.crd st d 0x24) s = r ⟨x.jbase, true⟩ ∧
    (∀ io k, s.cur = .mgmt io k → exec (.crd st d 0x20) s = r ⟨0, true⟩ ∧ exec (.crd st d 0x22) s = r ⟨0, true⟩) ∧
    ∀ ch k, s.cur = .sys ch k → exec (.crd st d 0x20) s = r ⟨BitVec.ofNat 64 (s.chip ch).pw.eff, true⟩ ∧
      exec (.crd st d 0x22) s = r ⟨if (s.chip ch).pw.gust = .ready then 2 else 0, true⟩) ∧
  (∀ (s : State) (st : BitVec 3) (a : BitVec 6), s.ready [.s a] = true → sLegal s.kind a = true →
    let v := (s.op a).v
    let x := s.core s.cur
    let put (y : Core) : Host.Outcome State Fault Refusal := .next ((s.setCore s.cur y).kept 1 st)
    (∀ n ∈ [9, 0x0f, 0x14, 0x1a, 0x25, 0xffff], exec (.cwr st a n) s = .next (s.takeTrap s.cur ILLOP 0)) ∧
    ((s.op a).ok = true →
      exec (.cwr st a 6) s = put { x with check := v.getLsbD 0 } ∧
      (s.flagsOpen s.cur = false → exec (.cwr st a 7) s = put { x with r := { x.r with fflags := v.setWidth 5 } }) ∧
      (s.kind ≠ .sysm → (s.flagsOpen s.cur = false → exec (.cwr st a 8) s = put { x with r := { x.r with yund := v.getLsbD 0 } }) ∧
        ∀ n ∈ [0, 1, 2, 3, 4, 5, 0x10, 0x11, 0x12, 0x13, 0x18, 0x19], exec (.cwr st a n) s = .next (s.takeTrap s.cur PROT 0)) ∧
      (s.kind = .sysm → (∀ n ∈ [0, 1, 3, 4, 5, 8, 0x10, 0x11, 0x12, 0x13], exec (.cwr st a n) s = .next (s.takeTrap s.cur ILLOP 0)) ∧
        (∀ n ∈ [2, 0x18, 0x19], exec (.cwr st a n) s = .next (s.takeTrap s.cur PROT 0)) ∧
        exec (.cwr st a 0x21) s = put { x with ytab := BitVec.ofNat 64 (v.toNat % 2 ^ 53 / 64 * 64) } ∧
        exec (.cwr st a 0x23) s = put { x with mcause := v &&& ~~~((3 : W64) <<< 53) } ∧
        exec (.cwr st a 0x24) s = put { x with jbase := BitVec.ofNat 64 (v.toNat % 2 ^ 53 / 64 * 64) } ∧
        ∀ ch k, s.cur = .sys ch k →
          exec (.cwr st a 0x20) s = .next ((s.modChip ch (fun h => { h with pw := { h.pw with swl := v.toNat % 8 } })).kept 1 st) ∧
          (v.getLsbD 0 = true → exec (.cwr st a 0x22) s = .next ((s.gustNotice ch).kept 1 st)))) ∧
    ((s.op a).ok = false → exec (.cwr st a 6) s = .next (s.moved 1 st)))

/-- 22 R387-R390; 06 R126: on a system or management core ERET returns to the normal bank and the return block with INH clear, and
traps ILLOP where INH is clear; INTEN and INTDIS set and clear bits of IEN from the next block entry on; SLEEP ends the block
asleep or, with a wake bit set, goes on; HALT stops the core, and the active system core's duties pass to the other; TLBINV
removes the translations its form names from every TLB of the panel and holds the core. -/
def Obligations.SystemResults : Prop :=
  (∀ (s : State) (st : BitVec 3), s.ready [] = true → s.kind = .sysm →
    let x := s.core s.cur
    (x.inh = true → ∃ t, exec (.eret st) s = .next t ∧ (t.core s.cur).sel = .norm ∧ (t.core s.cur).inh = false ∧
      (t.core s.cur).phase = .entering x.retBlk .direct ∧ (t.core s.cur).r = x.r) ∧
    (x.inh = false → exec (.eret st) s = .next (s.takeTrap s.cur ILLOP 0)) ∧
    (∃ t, exec (.sleep st) s = .next t ∧ (t.core s.cur).phase =
      (if s.wakeBit s.cur then .entering x.blk.next .fall else .sleeping x.blk.next) ∧ (t.core s.cur).r = x.r) ∧
    (∃ t, exec (.halt st) s = .next t ∧ (t.core s.cur).phase = .halted) ∧
    (∀ ch k, s.cur = .sys ch k → k < 2 → (s.chip ch).active = k → (s.core (.sys ch (1 - k))).inh = false → ∃ t,
      exec (.halt st) s = .next t ∧ (t.chip ch).active = 1 - k ∧ (t.core (.sys ch (1 - k))).mc = true ∧
      (t.core (.sys ch (1 - k))).mcause.toNat / 2 ^ 60 = 4)) ∧
  (∀ (s : State) (st : BitVec 3) (a : BitVec 6), s.ready [.s a] = true → s.kind = .sysm → sLegal s.kind a = true →
    (s.op a).ok = true →
    let v := (s.op a).v
    let x := s.core s.cur
    exec (.inten st a) s = .next ((s.setCore s.cur { x with ienNext := x.ienNext ||| v.setWidth 3 }).kept 1 st) ∧
    exec (.intdis st a) s = .next ((s.setCore s.cur { x with ienNext := x.ienNext &&& ~~~(v.setWidth 3) }).kept 1 st) ∧
    (∃ t, exec (.tlbinvPage st a) s = .next t ∧ (t.core s.cur).flights.length = x.flights.length + 1 ∧
      ∀ e, (∃ n v, mfind t.tiles n = some v ∧ e ∈ v.tlb) ∨ (∃ n h, mfind t.chips n = some h ∧ e ∈ h.tlb) →
        ¬(e.ctx = v.toNat / 2 ^ 56 ∧ e.vpn = v.toNat / 2 ^ 13 % 2 ^ 40 * 8192 / 2 ^ (13 + 10 * e.level))) ∧
    (∃ t, exec (.tlbinvCtx st a) s = .next t ∧ (t.core s.cur).flights.length = x.flights.length + 1 ∧
      ∀ e, (∃ n v, mfind t.tiles n = some v ∧ e ∈ v.tlb) ∨ (∃ n h, mfind t.chips n = some h ∧ e ∈ h.tlb) →
        e.ctx ≠ v.toNat / 2 ^ 56)) ∧
  (∀ (s : State) (st : BitVec 3), s.ready [] = true → s.kind = .sysm →
    ∃ t, exec (.tlbinvAll st) s = .next t ∧ (t.core s.cur).flights.length = (s.core s.cur).flights.length + 1 ∧
      (∀ n v, mfind t.tiles n = some v → v.tlb = []) ∧ ∀ n h, mfind t.chips n = some h → h.tlb = []) ∧
  ∀ (s : State) (st : BitVec 3) (p : Option W64), s.ready [] = true → s.kind ≠ .sysm → (s.core s.cur).phase = .saving p →
    ∃ t, exec (.eret st) s = .next t ∧ (∀ q, p = some q → (t.core s.cur).phase = .paused q) ∧
      (p = none → (t.core s.cur).phase = .idle)

/-! ### Memory (chapters 06, 07 and 21) -/

/-- 06 R118-R125: an address with a bit of [63:53] set is refused; a cached translation that gives the rights, with D for a write,
answers without a walk; otherwise the walk decides: BUSY waits, an absent or malformed entry is a page fault, a missing right a
protection fault, and a leaf gives the frame and sets A, for a write D as well, in the entry's lowest byte alone. -/
def Obligations.Translation : Prop :=
  ∀ (s : State) (g : Agent) (va : W64) (n : Need),
    (2 ^ 53 ≤ va.toNat → s.translate g va n = (s, .prot)) ∧
    (va.toNat < 2 ^ 53 →
      (∀ e, s.tlbFind g va.toNat = some e → rightsOk e.bits.toNat n = true → (n.w = true → e.bits.getLsbD 7 = true) → e.zp = false →
        s.translate g va n = (s, .ok (e.frame + va.toNat % 2 ^ (13 + 10 * e.level)) false)) ∧
      (s.tlbFind g va.toNat = none →
        (s.walk va.toNat 3 (s.ctx g.ctx).root = .busy → s.translate g va n = (s, .busy)) ∧
        (s.walk va.toNat 3 (s.ctx g.ctx).root = .absent → s.translate g va n = (s, .page)) ∧
        (∀ lv a e, s.walk va.toNat 3 (s.ctx g.ctx).root = .leaf lv a e →
          (rightsOk e n = false → s.translate g va n = (s, .prot)) ∧
          (rightsOk e n = true → pbit e 63 = false →
            (s.writable g.ctx a = true ∧ s.undoFull g.ctx (linesOf [a]) = false ∨ pbit e 6 = true ∧ (n.w = true → pbit e 7 = true)) → ∃ t,
            s.translate g va n = (t, .ok (pframe e + va.toNat % 2 ^ (13 + 10 * lv)) false) ∧
            (∀ b, b ≠ a → memRead t.mem b = memRead s.mem b) ∧
            (pbit e 6 = true → (n.w = true → pbit e 7 = true) → t.mem = s.mem) ∧
            (e % 256 = (memRead s.mem a).toNat → (memRead t.mem a).getLsbD 6 = true ∧ (n.w = true → (memRead t.mem a).getLsbD 7 = true) ∧
              ∀ k, k ≠ 6 → k ≠ 7 → (memRead t.mem a).getLsbD k = (memRead s.mem a).getLsbD k)))))

/-- 21 R345, R347, R351, R352; 22 R382: on a tile core a load whose address passes the checks enters the results in flight: with
its value where every byte stands in the store buffer or L1 and no earlier load is open, else as a read of the home slice, which
the tile's L1 lines alone anticipate; a check that fails traps with the address. 21 R352: VLDS reads lane i at the base plus i
times the stride, modulo 2^64; the first address that fails a check traps. 21 R353, R354: LDA of an address that fails a check
delivers an invalid zero and does not trap; one that passes sets a watch on its bytes; CHKA with its watch in place delivers the
watched value and removes the watch, and without one loads again. -/
def Obligations.GlobalLoads : Prop :=
  (∀ (s t : State) (st : BitVec 3) (b : BitVec 6) (c : BitVec 1) (p w : BitVec 3) (d : BitVec 5) (sh : Shape) (n : Nat)
      (i : Instr),
    s.ready [.s b] = true → s.kind ≠ .sysm → b.toNat ≤ 31 → (s.op b).ok = true → p.toNat ≤ 5 → (c = 1 ∨ p = 0) →
    (s.core s.cur).acqPending = false →
    ((i = .ld st b c p d w ∧ dLegal s.kind d = true ∧ ∃ x, lsize w = some (n, x) ∧ sh = .scalar n x) ∨
      (i = .vld st b c p d w ∧ s.kind = .worker ∧ dvLegal d = true ∧ ∃ e x, vsize w = some (e, x) ∧ n = 16 * e ∧ sh = .vector e x) ∨
      (i = .yld st b c p d ∧ s.kind = .worker ∧ dvLegal d = true ∧ n = 16 ∧ sh = .yarn)) →
    (∀ code va, s.gcheck (s.agentOf s.cur) (s.needOf s.cur true false) n n (s.op b).v = (t, .bad code va) →
      exec i s = .next (t.takeTrap s.cur code va)) ∧
    (∀ pas z, s.gcheck (s.agentOf s.cur) (s.needOf s.cur true false) n n (s.op b).v = (t, .ok pas z) →
      let free := !(s.core s.cur).flights.any Flight.isOpenLoad
      let l := (t.tile (tileOf s.cur)).snap free pas
      let asked := (t.tile (tileOf s.cur)).ask free pas
      ∃ u, exec i s = .next u ∧ u.mem = t.mem ∧ s.inFlight u (fun f => f.dst = d.toNat ∧ f.cls = sh.cls ∧
        f.acq = (if c = 1 then some p.toNat else none) ∧
        (if free = true ∧ l.all (fun x => x.v.isSome) = true then f.res = some (sh.make (l.map (fun x => (x.v.getD 0, true))))
          else f.res = none ∧ f.kind = .load asked z ∧ f.shape = sh)))) ∧
  (∀ (s t : State) (st : BitVec 3) (b x : BitVec 6) (d : BitVec 5) (w : BitVec 3) (e : Nat) (sx : Bool),
    s.ready [.s b, .s x] = true → s.kind = .worker → b.toNat ≤ 31 → sLegal s.kind x = true → (s.op b).ok = true →
    (s.op x).ok = true → dvLegal d = true → vsize w = some (e, sx) → (s.core s.cur).acqPending = false →
    let vas := (List.range 16).map (fun i => BitVec.ofNat 64 ((s.op b).v.toNat + i * (s.op x).v.toNat))
    (∀ pas z, s.gchecks (s.agentOf s.cur) (s.needOf s.cur true false) e e vas = (t, .ok pas z) →
      ∃ u, exec (.vlds st b x d w) s = .next u ∧ u.mem = t.mem ∧ s.inFlight u (fun f => f.dst = d.toNat ∧ f.cls = .v ∧
        (f.res.isSome ∨ ∃ l, f.kind = .load l z ∧ l.map (·.pa) = pas ∧ f.shape = .vector e sx))) ∧
    ∀ code va, s.gchecks (s.agentOf s.cur) (s.needOf s.cur true false) e e vas = (t, .bad code va) →
      exec (.vlds st b x d w) s = .next (t.takeTrap s.cur code va)) ∧
  (∀ (s t : State) (st : BitVec 3) (b : BitVec 6) (c : BitVec 1) (p w : BitVec 3) (d : BitVec 5) (n : Nat) (sx : Bool),
    s.ready [.s b] = true → s.kind ≠ .sysm → b.toNat ≤ 31 → (s.op b).ok = true → p.toNat ≤ 5 → (c = 1 ∨ p = 0) →
    (s.core s.cur).acqPending = false → 1 ≤ d.toNat → d.toNat ≤ 16 → lsize w = some (n, sx) →
    (∀ code va, s.gcheck (s.agentOf s.cur) (s.needOf s.cur true false) n n (s.op b).v = (t, .bad code va) →
      ∃ u, exec (.lda st b c p d w) s = .next u ∧ s.inFlight u (fun f => f.res = some (.s ⟨0, false⟩) ∧ f.dst = d.toNat)) ∧
    (∀ pas z, s.gcheck (s.agentOf s.cur) (s.needOf s.cur true false) n n (s.op b).v = (t, .ok pas z) →
      ∃ u, exec (.lda st b c p d w) s = .next u ∧ (∃ k ∈ (u.core s.cur).watches, k.d = d.toNat ∧ k.a = (s.op b).v ∧ k.n = n ∧ k.pas = pas) ∧
        s.inFlight u (fun f => f.dst = d.toNat ∧ f.cls = .s)) ∧
    (∀ k v, (s.core s.cur).watches.find? (fun k => k.d == d.toNat && k.a == (s.op b).v && k.n == n) = some k → k.val = some v →
      ∃ u, exec (.chka st b c p d w) s = .next u ∧ (∀ o ∈ (u.core s.cur).watches, o.d ≠ d.toNat) ∧
        s.inFlight u (fun f => f.res = some (.s v) ∧ f.dst = d.toNat)) ∧
    ((s.core s.cur).watches.find? (fun k => k.d == d.toNat && k.a == (s.op b).v && k.n == n) = none →
      exec (.chka st b c p d w) s = exec (.ld st b c p d w) s))

/-- 21 R347, R351, R382; 07 R142: a store of a tile core whose address passes the checks, with nothing that holds it, appends its
bytes at their physical addresses to the tile's store buffer and changes no byte of memory; a vector store writes its valid lanes,
and nothing when it has none. 21 R351: a vector store without a valid lane does nothing. -/
def Obligations.GlobalStores : Prop :=
  (∀ (s t : State) (st : BitVec 3) (b x : BitVec 6) (r : BitVec 1) (p w : BitVec 3) (n : Nat) (data : List (Nat × Byte)) (i : Instr),
    s.ready [.s b] = true → s.kind ≠ .sysm → b.toNat ≤ 31 → (s.op b).ok = true → p.toNat ≤ 5 → (r = 1 ∨ p = 0) →
    (s.core s.cur).acqPending = false → (s.core s.cur).openAcc = false → (r = 0 ∨ t.relReady s.cur p.toNat = true) →
    ((i = .st st b x r p w ∧ s.ready [.s b, .s x] = true ∧ sLegal s.kind x = true ∧ (s.op x).ok = true ∧ w.toNat < 4 ∧ n = 2 ^ w.toNat ∧
        data = (List.range n).map (fun k => (k, BitVec.ofNat 8 ((s.op x).v.toNat / 256 ^ k)))) ∨
      (i = .vst st b x r p w ∧ s.ready [.s b, .v x] = true ∧ s.kind = .worker ∧ vLegal x = true ∧ w.toNat < 3 ∧ n = 16 * 2 ^ w.toNat ∧
        data = laneBytes (2 ^ w.toNat) (s.opV x) ∧ anyLane (s.opV x) = true) ∨
      (i = .yst st b x r p ∧ s.ready [.s b, .y x] = true ∧ s.kind = .worker ∧ yLegal x = true ∧ (s.opY x).ok = true ∧ n = 16 ∧
        data = (List.range 16).map (fun k => (k, BitVec.ofNat 8 ((s.opY x).v.toNat / 256 ^ k))))) →
    (∀ code va, s.gcheck (s.agentOf s.cur) (s.needOf s.cur false true) n n (s.op b).v = (t, .bad code va) →
      exec i s = .next (t.takeTrap s.cur code va)) ∧
    (∀ pas z, s.gcheck (s.agentOf s.cur) (s.needOf s.cur false true) n n (s.op b).v = (t, .ok pas z) →
      (t.notifyOf (data.map (fun k => pas.headD 0 + k.1)) = [] ∨ t.tagged s.cur < 32) →
      ∃ u e, exec i s = .next u ∧ u.mem = t.mem ∧ (u.tile (tileOf s.cur)).sbuf = (t.tile (tileOf s.cur)).sbuf ++ [e] ∧
        e.bytes = data.map (fun k => (pas.headD 0 + k.1, k.2)) ∧ e.sent = false ∧ e.feeder = isFeeder s.cur)) ∧
  (∀ (s : State) (st : BitVec 3) (b x : BitVec 6) (r : BitVec 1) (p w : BitVec 3),
    s.ready [.s b, .v x] = true → s.kind = .worker → b.toNat ≤ 31 → vLegal x = true → w.toNat < 3 → p.toNat ≤ 5 → (r = 1 ∨ p = 0) →
    (∀ k, k < 16 → ((s.opV x).lane k).ok = false) → exec (.vst st b x r p w) s = .next (s.moved 1 st))

/-- Log 12; 21 R347, R357: an access of a system or management core to its own memory issues, with nothing changed, and is held
among the results in flight; once it may be performed its completion performs it: a load gives the bytes, a store changes exactly
its own, which stand at the address operand, and an atomic combines there. -/
def Obligations.SystemMemory : Prop :=
  (∀ (s : State) (st : BitVec 3) (b x : BitVec 6) (w : BitVec 3) (d : BitVec 5) (op : BitVec 5),
    s.ready [.s b, .s x] = true → s.kind = .sysm → b.toNat ≤ 31 → (s.op b).ok = true →
    let va := (s.op b).v.toNat
    let n := 2 ^ w.toNat
    let held (u : State) (p : Flight → Prop) : Prop := u.mem = s.mem ∧ u.ownMem s.cur = s.ownMem s.cur ∧ s.inFlight u (fun f => f.res = none ∧ p f)
    va < 2 ^ 31 → w.toNat < 4 → va % n = 0 → placeOf s.cur va = .plain →
    (dLegal s.kind d = true → ∃ u, exec (.ld st b 0 0 d w) s = .next u ∧
      held u (fun f => f.dst = d.toNat ∧ f.shape = .scalar n false ∧ f.kind = .held ⟨.own va n .ld, none, 0⟩)) ∧
    (sLegal s.kind x = true → (s.op x).ok = true →
      (s.inJournal s.cur va = false → ∃ u q, exec (.st st b x 0 0 w) s = .next u ∧ held u (fun f => f.kind =
        .held ⟨.own va n (.st ((List.range n).map (fun k => BitVec.ofNat 8 ((s.op x).v.toNat / 256 ^ k))) [] q), none, 0⟩)) ∧
      (dLegal s.kind d = true → 2 ≤ w.toNat → atomLegal op.toNat n false = true → ∃ u q,
        exec (.amo st b d op 0 0 (BitVec.ofNat 1 (w.toNat - 2)) x) s = .next u ∧ q.op = op.toNat ∧ q.n = n ∧ q.x = (s.op x).v ∧
        held u (fun f => f.dst = d.toNat ∧ f.kind = .held ⟨.own va n (.atom q), none, 0⟩)))) ∧
  ∀ (s : State) (c : CoreRef) (id a n k : Nat) (f : Flight) (op : OwnOp), coreExists c = true → kindOf c = .sysm →
    (s.core c).flight? id = some f → f.res = none → f.kind = .held ⟨.own a n op, none, k⟩ → a < 2 ^ 31 → placeOf c a = .plain →
    let m := s.ownMem c
    let done := exec (.variableLatencyCompletion c id) s
    (s.heldReady c id ⟨.own a n op, none, k⟩ = false → done = .next s) ∧
    (s.heldReady c id ⟨.own a n op, none, k⟩ = true →
      (op = .ld → ∃ t, done = .next t ∧ t.ownMem c = m ∧ t.gets c id (f.shape.make ((memReadN m a n).map (fun b => (b, true))))) ∧
      (∀ b q, op = .st b [] q → ∃ t, done = .next t ∧ t.mem = s.mem ∧ t.ownMem c = memWriteN m a b ∧
        (t.core c).flights = (s.core c).flights.filter (fun g => g.id != id) ∧
        ∀ o, o < a ∨ a + b.length ≤ o → memRead (t.ownMem c) o = memRead m o) ∧
      (∀ q, op = .atom q → q.n = n → ∃ t, done = .next t ∧ t.mem = s.mem ∧ t.gets c id (.s ⟨BitVec.ofNat 64 (memReadLE m a n), true⟩) ∧
        t.ownMem c = memWriteN m a ((List.range n).map (fun i => BitVec.ofNat 8
          ((atomNew q.op n (memReadLE m a n) q.x.toNat q.c.toNat).1 / 256 ^ i)))))

/-- 21 R348, R351; 05 R113: a load through a pointer that passes the checks of R345, at a handle of the core's own tile: a plain
load delivers the handle's bytes; a consuming load whose granules are all full delivers them, and .fec empties them; one whose
granules are not all full, or are due to an earlier one, joins the handle's waiting loads; a pointer to another tile sends the
access there; a failed check traps. 21 R348, R351; 05 R112: a store through a pointer that passes the checks writes exactly its
bytes of the named handle of the core's own tile, at the pointer's offset, and fills their granules with .fe; other handles and
memory stay as they were; a pointer to another tile sends the bytes there; invalid data make no access; Q of 1 and 2 move the
pointer on by the size. -/
def Obligations.PointerAccesses : Prop :=
  (∀ (s : State) (st : BitVec 3) (b : BitVec 6) (c : BitVec 1) (p w : BitVec 3) (d : BitVec 5) (n fe : Nat) (sh : Shape) (i : Instr),
    s.ready [.s b] = true → s.kind ≠ .sysm → 32 ≤ b.toNat → b.toNat ≤ 39 → (s.op b).ok = true → p.toNat ≤ 5 → (c = 1 ∨ p = 0) →
    ((dLegal s.kind d = true ∧ (∃ x, lsize w = some (n, x) ∧ sh = .scalar n x) ∧
        ((i = .ldl st b c p d w 0 ∧ fe = 0) ∨ (i = .ldfe st b c p d w 0 ∧ fe = 1) ∨ (i = .ldfeFec st b c p d w 0 ∧ fe = 2))) ∨
      (s.kind = .worker ∧ dvLegal d = true ∧ (∃ e x, vsize w = some (e, x) ∧ n = 16 * e ∧ sh = .vector e x) ∧ fe ≤ 2 ∧
        i = .vldl st b c p (BitVec.ofNat 2 fe) d w 0)) →
    let ptr := (s.op b).v
    let here := tileOf s.cur
    let path : Path := if fe ≠ 0 then .fe else .loc
    (∀ code, s.pcheck s.cur ptr n n path = some code → exec i s = .next (s.takeTrap s.cur code 0)) ∧
    (s.pcheck s.cur ptr n n path = none → (s.core s.cur).acqPending = false →
      (s.ptrTile s.cur ptr = here → s.bankHeld here ⟨pH ptr, pOFF ptr, pOFF ptr + n⟩ false = false →
        ∀ h, mfind s.home.handles (pH ptr) = some h →
          (fe = 0 → s.winFetch s.cur (s.core s.cur).nextId h (pH ptr) (pOFF ptr) n = false → ∃ u, exec i s = .next u ∧ u.mem = s.mem ∧ mfind u.home.handles (pH ptr) = some h ∧
            s.inFlight u (fun f => f.dst = d.toNat ∧ f.res = some (sh.make (h.read (pOFF ptr) n)))) ∧
          (fe = 0 → s.winFetch s.cur (s.core s.cur).nextId h (pH ptr) (pOFF ptr) n = true → ∃ u, exec i s = .next u ∧
            s.inFlight u (fun f => f.res = none ∧ f.kind = .window (pH ptr) (pOFF ptr))) ∧
          (fe ≠ 0 → h.allFull (pOFF ptr) n = true → s.home.consumeAhead s.home.order (pH ptr) (pOFF ptr) n = false → ∃ u, exec i s = .next u ∧
            s.inFlight u (fun f => f.res = some (sh.make (h.read (pOFF ptr) n))) ∧
            ∃ h', mfind u.home.handles (pH ptr) = some h' ∧ h'.data = h.data ∧
              ∀ g, h'.full.contains g = (h.full.contains g && !(decide (fe = 2) && (granules (pOFF ptr) n).contains g))) ∧
          (fe ≠ 0 → (h.allFull (pOFF ptr) n = false ∨ s.home.consumeAhead s.home.order (pH ptr) (pOFF ptr) n = true) → ∃ u, exec i s = .next u ∧ mfind u.home.handles (pH ptr) = some h ∧
            u.home.waits = s.home.waits ++ [⟨s.cur, (s.core s.cur).nextId, pH ptr, pOFF ptr, n, fe == 2, s.home.order⟩] ∧
            s.inFlight u (fun f => f.res = none ∧ f.kind = .await ∧ f.id = (s.core s.cur).nextId))) ∧
      (s.ptrTile s.cur ptr ≠ here → s.chanHeld s.cur (s.ptrTile s.cur ptr) 0 = false →
        ∃ u k, exec i s = .next u ∧ u.net = s.net ++ [k] ∧ k.src = here ∧ k.dst = s.ptrTile s.cur ptr ∧
        k.body = .acc (pH ptr) (pOFF ptr) (.load n fe) ∧ k.c = s.cur ∧ k.id = (s.core s.cur).nextId ∧
        s.inFlight u (fun f => f.id = k.id ∧ f.res = none ∧ f.kind = .await)))) ∧
  (∀ (s : State) (st : BitVec 3) (b x : BitVec 6) (r : BitVec 1) (p w : BitVec 3) (e : BitVec 1) (q : BitVec 2) (n : Nat)
      (data : List (Nat × Byte)) (some' : Bool) (i : Instr),
    s.ready [.s b] = true → s.kind ≠ .sysm → 32 ≤ b.toNat → b.toNat ≤ 39 → (s.op b).ok = true → p.toNat ≤ 5 → (r = 1 ∨ p = 0) →
    q.toNat ≤ 2 → pWALK (s.op b).v ≤ 3 →
    ((i = .stl st b x r p e w q ∧ s.ready [.s b, .s x] = true ∧ sLegal s.kind x = true ∧ some' = (s.op x).ok ∧ w.toNat < 4 ∧ n = 2 ^ w.toNat ∧
        data = (List.range n).map (fun k => (k, BitVec.ofNat 8 ((s.op x).v.toNat / 256 ^ k)))) ∨
      (i = .vstl st b x r p e w q ∧ s.ready [.s b, .v x] = true ∧ s.kind = .worker ∧ vLegal x = true ∧ some' = anyLane (s.opV x) ∧
        w.toNat < 3 ∧ n = 16 * 2 ^ w.toNat ∧ data = laneBytes (2 ^ w.toNat) (s.opV x))) →
    let ptr := (s.op b).v
    let here := tileOf s.cur
    let inc : Int := if q = 0 then 0 else if q = 1 then n else -(n : Int)
    let moves (u : State) : Prop := vget ic (u.core s.cur).r.p (b.toNat - 32) =
      if q = 0 then vget ic (s.core s.cur).r.p (b.toNat - 32)
      else ⟨s.postincOf s.cur ptr inc, (s.core s.cur).blk.slot + 1, none⟩
    (some' = false → ∃ u, exec i s = .next u ∧ moves u ∧ u.home.handles = s.home.handles ∧ u.mem = s.mem ∧ u.net = s.net) ∧
    (some' = true →
      (∀ code, s.pcheck s.cur ptr n n (if e = 1 then .fe else .loc) = some code → exec i s = .next (s.takeTrap s.cur code 0)) ∧
      (s.pcheck s.cur ptr n n (if e = 1 then .fe else .loc) = none → (s.core s.cur).acqPending = false →
        (s.core s.cur).openAcc = false → (r = 0 ∨ s.relReady s.cur p.toNat = true) →
        (s.ptrTile s.cur ptr = here → s.bankHeld here ⟨pH ptr, pOFF ptr, pOFF ptr + n⟩ true = false →
          ∀ h, mfind s.home.handles (pH ptr) = some h → h.kind ≠ 1 → h.st = .allocated →
            ∃ u h', exec i s = .next u ∧ moves u ∧ u.mem = s.mem ∧ mfind u.home.handles (pH ptr) = some h' ∧
              h'.data = memWriteL h.data (data.map (fun k => (pOFF ptr + k.1, k.2))) ∧
              (∀ o, pH ptr ≠ o → mfind u.home.handles o = mfind s.home.handles o) ∧
              (e = 0 → h'.full = h.full) ∧
              (e = 1 → ∀ k ∈ data, h'.full.contains ((pOFF ptr + k.1) / 16) = true)) ∧
        (s.ptrTile s.cur ptr ≠ here → s.chanHeld s.cur (s.ptrTile s.cur ptr) 0 = false →
          ∃ u k, exec i s = .next u ∧ moves u ∧ u.net = s.net ++ [k] ∧ k.dst = s.ptrTile s.cur ptr ∧
          k.body = .acc (pH ptr) (pOFF ptr) (.store (data.map (fun k => (pOFF ptr + k.1, k.2))) n (e == 1))))))

/-- 21 R356: the new value of each atomic operation, for a cell of n bytes that holds m; AMOCAS (9) swaps only where the cell
equals the compare value; the float add (10) is FADD to nearest. 21 R356-R358: on a tile core a global atomic that passes the
checks, with nothing that holds it and fewer than 32 outstanding, enters the results in flight for its home slice, numbered by its
tag; AMOL performs its operation at the handle at once, and at another tile's handle sends it; the float add traps NONREPRO in a
reproducible context. -/
def Obligations.Atomics : Prop :=
  (∀ (n m x c : Nat), (n = 4 ∨ n = 8) → m < 2 ^ (8 * n) → x < 2 ^ (8 * n) → c < 2 ^ (8 * n) →
    let sg (v : Nat) : Int := if 2 * v < 2 ^ (8 * n) then v else (v : Int) - 2 ^ (8 * n)
    (atomNew 0 n m x c).1 = x ∧ (atomNew 1 n m x c).1 = (m + x) % 2 ^ (8 * n) ∧ (atomNew 2 n m x c).1 = m &&& x ∧
    (atomNew 3 n m x c).1 = m ||| x ∧ (atomNew 4 n m x c).1 = m ^^^ x ∧
    (atomNew 5 n m x c).1 = (if sg m ≤ sg x then m else x) ∧ (atomNew 6 n m x c).1 = (if sg x ≤ sg m then m else x) ∧
    (atomNew 7 n m x c).1 = min m x ∧ (atomNew 8 n m x c).1 = max m x ∧ (atomNew 9 n m x c).1 = (if m = c then x else m) ∧
    atomNew 10 4 m x c = ((fAdd 0 m (x % 2 ^ 32)).bits, (fAdd 0 m (x % 2 ^ 32)).flags)) ∧
  ((∀ (s t : State) (st : BitVec 3) (a x y : BitVec 6) (d op : BitVec 5) (w : BitVec 1) (i : Instr) (n : Nat) (k : Nat) (cmp : W64),
    s.ready [.s a, .s x, .s y] = true → s.kind ≠ .sysm → a.toNat ≤ 31 → s.given [a, x, y] = true → s.codes [a, x, y] d = true →
    (s.core s.cur).acqPending = false → n = (if w = 1 then 8 else 4) →
    ((i = .amo st a d op 0 0 w x ∧ (op.toNat ≤ 8 ∨ (op.toNat = 10 ∧ w = 0)) ∧ k = op.toNat ∧ cmp = 0) ∨
      (i = .amocas st a d 0 0 w x y ∧ k = 9 ∧ cmp = (s.op y).v)) →
    (∀ code va, s.gcheck (s.agentOf s.cur) (s.needOf s.cur true true) n n (s.op a).v = (t, .bad code va) →
      exec i s = .next (t.takeTrap s.cur code va)) ∧
    (∀ pas z, s.gcheck (s.agentOf s.cur) (s.needOf s.cur true true) n n (s.op a).v = (t, .ok pas z) →
      (k = 10 → (t.ctxOfTile (tileOf s.cur)).repro = true → exec i s = .next (t.takeTrap s.cur NONREPRO 0)) ∧
      ((k ≠ 10 ∨ (t.ctxOfTile (tileOf s.cur)).repro = false) → t.tagged s.cur < 32 → ∃ u, exec i s = .next u ∧ u.mem = t.mem ∧
        (u.core s.cur).seq = (s.core s.cur).seq + 1 ∧
        s.inFlight u (fun f => f.dst = d.toNat ∧ f.res = none ∧ ∃ q, f.kind = .atomic q ∧ q.pa = pas.headD 0 ∧ q.n = n ∧ q.op = k ∧
          q.x = (s.op x).v ∧ q.c = cmp ∧ q.seq = (s.core s.cur).seq.toNat)))) ∧
  ∀ (s : State) (st : BitVec 3) (a x : BitVec 6) (d op : BitVec 5) (w : BitVec 1),
    s.ready [.s a, .s x] = true → s.kind ≠ .sysm → 32 ≤ a.toNat → a.toNat ≤ 39 → s.given [a, x] = true → s.codes [a, x] d = true →
    op.toNat ≤ 8 →
    let n := if w = 1 then 8 else 4
    let ptr := (s.op a).v
    (∀ code, s.pcheck s.cur ptr n n .amol = some code → exec (.amol st a d op 0 0 w x 0) s = .next (s.takeTrap s.cur code 0)) ∧
    (s.pcheck s.cur ptr n n .amol = none → (s.core s.cur).acqPending = false → (s.core s.cur).openAcc = false →
      (s.ptrTile s.cur ptr = tileOf s.cur → s.bankHeld (tileOf s.cur) ⟨pH ptr, pOFF ptr, pOFF ptr + n⟩ true = false →
        ∀ h, mfind s.home.handles (pH ptr) = some h → ∃ u h', exec (.amol st a d op 0 0 w x 0) s = .next u ∧
          mfind u.home.handles (pH ptr) = some h' ∧ h'.full = h.full ∧
          h'.data = memWriteN h.data (pOFF ptr) ((List.range n).map (fun k => BitVec.ofNat 8
            ((atomNew op.toNat n (memReadLE h.data (pOFF ptr) n) (s.op x).v.toNat 0).1 / 256 ^ k))) ∧
          (∀ o, o < pOFF ptr ∨ pOFF ptr + n ≤ o → memRead h'.data o = memRead h.data o) ∧
          s.inFlight u (fun f => f.res = some (.s ⟨BitVec.ofNat 64 (memReadLE h.data (pOFF ptr) n), true⟩))) ∧
      (s.ptrTile s.cur ptr ≠ tileOf s.cur → s.chanHeld s.cur (s.ptrTile s.cur ptr) 0 = false → ∃ u k q, exec (.amol st a d op 0 0 w x 0) s = .next u ∧ u.net = s.net ++ [k] ∧
        k.dst = s.ptrTile s.cur ptr ∧ k.body = .acc (pH ptr) (pOFF ptr) (.atomic q) ∧ q.op = op.toNat ∧ q.n = n ∧ q.x = (s.op x).v)))

/-- 07 R141, R142; 21 R355: a FENCE whose halves have nothing to wait for goes on; a full one takes the next place in the order of
full fences; its acquire half of GROUP scope or more drops the tile's L1 lines; a release half waits for the core's earlier
accesses and, from GROUP scope on, for the stores buffered in its tile; PREF changes no byte of memory but a page-table entry's A
bit and a zero-pending line, and never traps. -/
def Obligations.Fences : Prop :=
  (∀ (s : State) (st : BitVec 3) (p : BitVec 3), s.ready [] = true → p.toNat ≤ 5 →
    (s.relReady s.cur p.toNat = true → exec (.fence st p 2) s = .next (s.kept 1 st)) ∧
    (s.relReady s.cur p.toNat = false → (s.core s.cur).openAcc = false →
      exec (.fence st p 2) s = .next s.waits ∧ exec (.fence st p 3) s = .next s.waits) ∧
    (s.relReady s.cur p.toNat = false → (s.core s.cur).openAcc = true →
      exec (.fence st p 2) s = .next s.pends ∧ exec (.fence st p 3) s = .next s.pends) ∧
    ((s.core s.cur).openAcc = false → (s.core s.cur).acqPending = false → ∃ u, exec (.fence st p 1) s = .next u ∧
      (u.core s.cur).watches = [] ∧ u.fences = s.fences ∧ u.mem = s.mem ∧ (s.kind ≠ .sysm → 2 ≤ p.toNat → u.home.l1 = [])) ∧
    (s.relReady s.cur p.toNat = true → (s.core s.cur).openAcc = false → (s.core s.cur).acqPending = false → ∃ u,
      exec (.fence st p 3) s = .next u ∧ u.fences = s.fences + 1 ∧ (u.core s.cur).watches = [])) ∧
  ∀ (s : State) (st : BitVec 3) (a : BitVec 6), s.ready [.s a] = true → a.toNat ≤ 31 →
    (∃ u, exec (.pref st a) s = .next u ∧ u.core s.cur = (s.moved 1 st).core s.cur ∧ u.kernels = s.kernels) ∧
    ((s.op a).ok = false ∨ s.kind = .sysm → exec (.pref st a) s = .next (s.moved 1 st)) ∧
    (∀ t r, (s.op a).ok = true → s.kind ≠ .sysm →
      s.gcheck (s.agentOf s.cur) ⟨false, false, false, !(s.core s.cur).sysMode⟩ 1 1 (s.op a).v = (t, r) →
      ((∀ pas z, r ≠ .ok pas z) → exec (.pref st a) s = .next (t.moved 1 st)) ∧
      (∀ pas, r = .ok pas false → ∃ u, exec (.pref st a) s = .next u ∧ u.mem = t.mem ∧
        (t.memShut (t.coreRouter s.cur) [pas.headD 0] = false → (mfind u.home.l1 (pas.headD 0 / 64)).isSome = true)))

/-- 03 R57; 07 R142-R144: a load, a store or a group request of a tile core that may not be performed yet issues all the same, is
held among the results in flight, and changes no byte of memory, of the store buffer or of a handle, and no channel. It may not be
performed while an earlier acquire of its core is open; a write, while an earlier read does not have its value; an access to bytes
that an earlier held one writes, or of a channel on which an earlier one is held, while that one is; one to a bank, while an
earlier engine command overlaps it or the bank is in retention; a release of GROUP scope or more, while an earlier store of its
core or any store of the other one is buffered; with nothing earlier, it may. 07 R142-R144: the completion of a held access that
may not be performed yet changes nothing; of one that may, it performs it: a store enters the store buffer, a load is served or
goes to its home slice, an atomic goes there, an access at a handle is made at its bank, and an access, message or request to
another tile joins its channel. -/
def Obligations.HeldAccesses : Prop :=
  ((∀ (s t : State) (st : BitVec 3) (b x : BitVec 6) (c : BitVec 1) (p w : BitVec 3) (d : BitVec 5) (n : Nat) (sx z : Bool) (pas : List Nat),
    s.ready [.s b, .s x] = true → s.kind ≠ .sysm → (s.op b).ok = true → p.toNat ≤ 5 → (c = 1 ∨ p = 0) →
    let held (u : State) (f : Flight → Prop) : Prop := u.mem = t.mem ∧ u.net = t.net ∧ u.home.sbuf = t.home.sbuf ∧
      u.home.handles = t.home.handles ∧ s.inFlight u (fun g => g.res = none ∧ f g)
    let ptr := (s.op b).v
    let here := tileOf s.cur
    (b.toNat ≤ 31 → dLegal s.kind d = true → lsize w = some (n, sx) → (s.core s.cur).acqPending = true →
      s.gcheck (s.agentOf s.cur) (s.needOf s.cur true false) n n (s.op b).v = (t, .ok pas z) →
      ∃ u, exec (.ld st b c p d w) s = .next u ∧ held u (fun g => g.dst = d.toNat ∧
        g.kind = .held ⟨.ld pas z, none, t.home.order⟩ ∧ g.acq = (if c = 1 then some p.toNat else none))) ∧
    (b.toNat ≤ 31 → sLegal s.kind x = true → (s.op x).ok = true → w.toNat < 4 → n = 2 ^ w.toNat →
      ((s.core s.cur).acqPending = true ∨ (s.core s.cur).openAcc = true ∨ (c = 1 ∧ t.relReady s.cur p.toNat = false)) →
      s.gcheck (s.agentOf s.cur) (s.needOf s.cur false true) n n (s.op b).v = (t, .ok pas z) →
      (t.notifyOf ((List.range n).map (pas.headD 0 + ·)) = [] ∨ t.tagged s.cur < 32) →
      ∃ u k, exec (.st st b x c p w) s = .next u ∧ held u (fun g => g.kind = .held ⟨.st ((List.range n).map (fun i =>
        (pas.headD 0 + i, BitVec.ofNat 8 ((s.op x).v.toNat / 256 ^ i)))) n z k (s.core s.cur).seq.toNat,
          if c = 1 then some p.toNat else none, t.home.order⟩)) ∧
    (s = t → 32 ≤ b.toNat → b.toNat ≤ 39 → dLegal s.kind d = true → lsize w = some (n, sx) → s.pcheck s.cur ptr n n .loc = none →
      (s.ptrTile s.cur ptr = here → (s.core s.cur).acqPending = true ∨
          s.bankHeld here ⟨pH ptr, pOFF ptr, pOFF ptr + n⟩ false = true → ∃ u, exec (.ldl st b c p d w 0) s = .next u ∧ held u (fun g =>
          g.kind = .held ⟨.bank (pH ptr) (pOFF ptr) (.load n 0), none, s.home.order⟩)) ∧
      (s.ptrTile s.cur ptr ≠ here → ((s.core s.cur).acqPending = true ∨ s.chanHeld s.cur (s.ptrTile s.cur ptr) 0 = true) →
        ∃ u, exec (.ldl st b c p d w 0) s = .next u ∧ held u (fun g =>
          g.kind = .held ⟨.acc (s.ptrTile s.cur ptr) (pH ptr) (pOFF ptr) (.load n 0), none, s.home.order⟩))) ∧
    (s = t → b.toNat ≤ 39 → sLegal s.kind x = true → (s.op x).ok = true → dLegal s.kind d = true → (s.op b).v.toNat ≤ 4095 →
      (s.op x).v.toNat ≤ 1023 → let g := (s.op b).v.toNat
      s.chanHeld s.cur (s.homeOf s.cur g) 0 = true → ∃ u, exec (.gjoin st b x d) s = .next u ∧ held u (fun f =>
        f.kind = .held ⟨.grp (s.homeOf s.cur g) ⟨0, g, (s.core s.cur).gen, (s.op x).v⟩, none,
          s.home.order⟩))) ∧
  ∀ (s : State) (c : CoreRef) (id : Nat) (h : Held),
    let old := (s.core c).before id
    ((∃ f ∈ old, f.acq.isSome = true) → s.heldReady c id h = false) ∧
    (h.op.writes = true → (∃ f ∈ old, f.isRead = true) → s.heldReady c id h = false) ∧
    (∀ p, h.rel = some p → (∃ f ∈ old, f.isAccess = true) → s.heldReady c id h = false) ∧
    (∀ pas z, h.op = .ld pas z → (∃ f ∈ old, ∃ a ∈ f.writePas, a ∈ pas) → s.heldReady c id h = false) ∧
    (∀ g off op, h.op = .bank g off op → (∃ f ∈ old, f.heldHandle = some g) → s.heldReady c id h = false) ∧
    (∀ ch, h.op.chan = some ch → (s.tile (tileOf c)).chanBefore ch h.ord = true → s.heldReady c id h = false) ∧
    (old = [] → (∀ ch, h.op.chan = some ch → (s.tile (tileOf c)).chanBefore ch h.ord = false) →
      (∀ p, h.rel = some p → (∀ i ∈ s.traffic, i.c = c → i.body.ofCore = false ∨ id < i.at') ∧
        (wide p = true → ∀ e ∈ (s.tile (tileOf c)).sbuf, e.feeder = isFeeder c ∧ id < e.after)) →
      (∀ r w, h.op.bankRng = some (r, w) → (s.tile (tileOf c)).engineBefore h.ord r w = false) →
      s.bankSleeps c h.op = false → s.ownWaits c h.op = false → s.heldReady c id h = true) ∧
    (s.bankSleeps c h.op = true ∨ s.ownWaits c h.op = true → s.heldReady c id h = false) ∧
    (∀ a n op, h.op = .own a n op → (∃ f ∈ old, s.ownAfter c a n f = true) → s.heldReady c id h = false) ∧
    (∀ r w, h.op.bankRng = some (r, w) → (s.tile (tileOf c)).engineBefore h.ord r w = true → s.heldReady c id h = false) ∧
    (∀ p, h.rel = some p → wide p = true → kindOf c ≠ .sysm → (∃ e ∈ (s.tile (tileOf c)).sbuf, e.feeder ≠ isFeeder c) →
      s.heldReady c id h = false)) ∧
  (∀ (s : State) (c : CoreRef) (id : Nat) (f : Flight) (h : Held), coreExists c = true → kindOf c ≠ .sysm →
    (s.core c).flight? id = some f → f.kind = .held h → f.res = none → s.movingC c = false →
    let home := tileOf c
    let done := exec (.variableLatencyCompletion c id) s
    let gone (t : State) : Prop := (t.core c).flights = (s.core c).flights.filter (fun g => g.id != id)
    let waits (t : State) (k : FKind) : Prop := ∃ g, (t.core c).flight? id = some g ∧ g.res = none ∧ g.kind = k
    let sends (t : State) (dst cls : Nat) (p : NetItem → Prop) : Prop := ∃ k, t.net = s.net ++ [k] ∧ k.src = home ∧ k.dst = dst ∧
      k.cls = cls ∧ k.seq = mget 0 (s.tile home).chOut (dst * 8 + cls) ∧ k.c = c ∧ k.kern = f.kern ∧ p k
    (s.heldReady c id h = false → done = .next s) ∧
    (s.heldReady c id h = true →
      (∀ b n z k q, h.op = .st b n z k q → ∃ t e, done = .next t ∧ t.mem = s.mem ∧ gone t ∧
        (t.tile home).sbuf = (s.tile home).sbuf ++ [e] ∧ e.bytes = b ∧ e.kick = k ∧ e.seq = q ∧ e.sent = false ∧ e.zp = z ∧ e.u = n) ∧
      (∀ pas z, h.op = .ld pas z →
        let free := !((s.core c).before id).any Flight.isOpenLoad
        let l := (s.tile home).snap free pas
        let asked := (s.tile home).ask free pas
        ∃ t, done = .next t ∧ t.mem = s.mem ∧
          (free = true → l.all (fun b => b.v.isSome) = true → t.gets c id (f.shape.make (l.map (fun b => (b.v.getD 0, true))))) ∧
          (free = false ∨ l.all (fun b => b.v.isSome) = false → waits t (.load asked z))) ∧
      (∀ a, h.op = .atom a → ∃ t, done = .next t ∧ t.mem = s.mem ∧ waits t (.atomic a)) ∧
      (∀ g off b n fe x, h.op = .bank g off (.store b n fe) → mfind (s.tile home).handles g = some x → x.isStale = false →
        ∃ t y, done = .next t ∧ t.mem = s.mem ∧ gone t ∧ mfind (t.tile home).handles g = some y ∧ y.data = memWriteL x.data b ∧
          ∀ o, g ≠ o → mfind (t.tile home).handles o = mfind (s.tile home).handles o) ∧
      (∀ g off n x, h.op = .bank g off (.load n 0) → mfind (s.tile home).handles g = some x → s.winFetch c id x g off n = false →
        ∃ t, done = .next t ∧ t.mem = s.mem ∧ t.gets c id (f.shape.make (x.read off n)) ∧ mfind (t.tile home).handles g = some x) ∧
      (∀ dst g off op, h.op = .acc dst g off op → ∃ t, done = .next t ∧ sends t dst 0 (fun k => k.body = .acc g off op) ∧
        (op.reads = true → waits t .await) ∧ (op.reads = false → gone t)) ∧
      (∀ dst m, h.op = .msg dst m →
        (16 ≤ s.msgLoad dst → done = .next s) ∧
        (s.msgLoad dst < 16 → ∃ t, done = .next t ∧ gone t ∧ sends t dst m.cls (fun k => k.body = .msg { m with seq := k.seq }))) ∧
      (∀ dst r, h.op = .grp dst r → ∃ t, done = .next t ∧ sends t dst 0 (fun k => k.body = .grp r))))

/-! ### Yarns, handles, barriers and groups -/

/-- 14 R224, R225, R227; 22 R380: YDRAW takes SEL and POS from its operands and the first 32 digits of the stream; YEXT adds
digits up to 64 and leaves SEL and POS; YCOPY copies 128 bits and V at latency 2; YBITS delivers BITS; a draw on the table stream
while cr.ytable is 0, or with an invalid operand, gives an invalid yarn. 14 R229-R231; 22 R381: YCMP delivers the threshold as
held where the yarn's value is below it (.lt), or is not (.ge), else an invalid zero, without changing the yarn; a NaN threshold
raises IV and gives invalid zero either way; YCMPY compares two yarns and delivers 1, equal coordinates compare equal. The value
of a yarn is read here from its first 256 digits. 14 R233; 22 R383: YSR delivers at latency 4. The INT32 form gives the integer at
or below x, or the one above where the yarn's value is below the fraction; the BF16 form chooses between the neighbours the same
way. A value that the format holds is given as it is and no digit is read; NaN and infinities give the table's results. -/
def Obligations.YarnResults : Prop :=
  ((∀ (s : State) (st : BitVec 3) (a b : BitVec 6) (d : BitVec 5),
    s.ready [.s a, .s b] = true → s.kind = .worker → sLegal s.kind a = true → sLegal s.kind b = true → dvLegal d = true →
    let sel := (s.op a).v.toNat % 2 ^ 16
    let pos := (s.op b).v.toNat % 2 ^ 40
    let z := (zf128 (s.ctxOfTile (tileOf s.cur)).key 0x59 sel pos 0).toNat
    (s.given [a, b] = false → exec (.ydraw st a b d) s = .next ((s.later .y d (.y ⟨0, false⟩)).kept 1 st)) ∧
    (s.given [a, b] = true →
      (sel ≠ 0xffff → exec (.ydraw st a b d) s = .next ((s.later .y d
        (.y ⟨BitVec.ofNat 128 (sel * 2 ^ 112 + pos * 2 ^ 72 + 32 * 2 ^ 64 + z / 2 ^ 96 * 2 ^ 32), true⟩)).kept 1 st)) ∧
      (sel = 0xffff → s.home.ytab = 0 → exec (.ydraw st a b d) s = .next ((s.later .y d (.y ⟨0, false⟩)).kept 1 st)))) ∧
  (∀ (s : State) (st : BitVec 3) (a : BitVec 6) (d : BitVec 5), s.ready [.y a] = true → s.kind = .worker → yLegal a = true →
    (dvLegal d = true → exec (.ycopy st a d) s =
      .next ((s.modCore s.cur (·.outY d 2 (if (s.opY a).ok then s.opY a else ⟨0, false⟩))).moved 1 st)) ∧
    (dLegal s.kind d = true → (s.opY a).ok = true → exec (.ybits st a d) s =
      .next ((s.gives d 2 ⟨BitVec.ofNat 64 ((s.opY a).v.toNat % 2 ^ 64), true⟩).moved 1 st)) ∧
    (dLegal s.kind d = true → (s.opY a).ok = false → exec (.ybits st a d) s = .next ((s.gives d 2 ⟨0, false⟩).moved 1 st))) ∧
  ∀ (s : State) (st : BitVec 3) (a b : BitVec 6) (d : BitVec 5), s.ready [.y a, .s b] = true → s.kind = .worker →
    yLegal a = true → sLegal s.kind b = true → dvLegal d = true → s.honest (s.opY a) = true → (s.op b).ok = true →
    let y := s.opY a
    let n := min 64 (y.n + (s.op b).v.toNat)
    ∃ u : YVal, exec (.yext st a b d) s = .next ((s.later .y d (.y u)).kept 1 st) ∧ u.ok = true ∧ u.sel = y.sel ∧ u.pos = y.pos ∧
      u.n = n ∧ u.bits = s.digits y / 2 ^ (256 - n) * 2 ^ (64 - n)) ∧
  ((∀ (s : State) (st : BitVec 3) (a b : BitVec 6) (d : BitVec 5) (k : BitVec 2),
    s.ready [.s a, .y b] = true → s.kind = .worker → sLegal s.kind a = true → yLegal b = true → dLegal s.kind d = true →
    (s.op a).ok = true → s.honest (s.opY b) = true →
    let t := s.op a
    let u := s.digits (s.opY b)
    let r (c : Prop) [Decidable c] : Host.Outcome State Fault Refusal :=
      .next ((s.laterFlag .s d (.s (if c then t else ⟨0, false⟩))).kept 1 st)
    let both (c : Prop) [Decidable c] : Prop := exec (.ycmp st a b d 0 k) s = r c ∧ exec (.ycmp st a b d 1 k) s = r (¬c)
    (k = 3 → both (u < t.v.toNat * 2 ^ 192)) ∧
    (∀ f ∈ [(0, Fmt.fp32, 32), (1, Fmt.fp16, 16), (2, Fmt.bf16, 16)], k.toNat = f.1 →
      match f.2.1.val (t.v.toNat % 2 ^ f.2.2) with
      | .nan _ => ∀ c ∈ [(0 : BitVec 2), 1], exec (.ycmp st a b d c k) s =
          .next (((s.flag 16).laterFlag .s d (.s ⟨0, false⟩)).kept 1 st)
      | .inf n => both (n = false)
      | .fin n m e => both (n = false ∧ u < m * 2 ^ (256 + e).toNat))) ∧
  ∀ (s : State) (st : BitVec 3) (a b : BitVec 6) (d : BitVec 5),
    s.ready [.y a, .y b] = true → s.kind = .worker → yLegal a = true → yLegal b = true → dLegal s.kind d = true →
    s.honest (s.opY a) = true → s.honest (s.opY b) = true →
    let x := s.opY a
    let y := s.opY b
    let r (c : Prop) [Decidable c] : Host.Outcome State Fault Refusal :=
      .next ((s.laterFlag .s d (.s (if c then ⟨1, true⟩ else ⟨0, false⟩))).kept 1 st)
    (x.sel = y.sel → x.pos = y.pos → exec (.ycmpy st a b d 0) s = r False ∧ exec (.ycmpy st a b d 1) s = r True) ∧
    (¬(x.sel = y.sel ∧ x.pos = y.pos) → s.digits x ≠ s.digits y →
      exec (.ycmpy st a b d 0) s = r (s.digits y < s.digits x) ∧ exec (.ycmpy st a b d 1) s = r (¬(s.digits y < s.digits x)))) ∧
  (∀ (s : State) (st : BitVec 3) (a b : BitVec 6) (d : BitVec 5),
    s.ready [.s a, .y b] = true → s.kind = .worker → sLegal s.kind a = true → yLegal b = true → dLegal s.kind d = true →
    ((s.op a).ok = false ∨ (s.opY b).ok = false → ∀ f : BitVec 5, f.toNat < 5 →
      exec (.ysr st a b d f) s = .next ((s.gives d 4 ⟨0, false⟩).moved 1 st)) ∧
    ((s.op a).ok = true → s.honest (s.opY b) = true →
      let x := (s.op a).v.toNat % 2 ^ 32
      let u := s.digits (s.opY b)
      let r (v : W64) (fl : BitVec 5) : Host.Outcome State Fault Refusal :=
        .next ((s.modCore s.cur (fun y => (y.raise fl).outS d 4 ⟨v, true⟩)).moved 1 st)
      (∀ f : BitVec 5, f.toNat < 5 → ∃ v fl, exec (.ysr st a b d f) s = r v fl) ∧
      (0x7f800000 < x % 2 ^ 31 → exec (.ysr st a b d 0) s = r 0x7fc0 16 ∧ exec (.ysr st a b d 1) s = r 0x7e00 16 ∧
        exec (.ysr st a b d 2) s = r 0x7f 16 ∧ exec (.ysr st a b d 3) s = r 0x7e 16 ∧ exec (.ysr st a b d 4) s = r 0 16) ∧
      (x = 0x7f800000 → exec (.ysr st a b d 0) s = r 0x7f80 0 ∧ exec (.ysr st a b d 1) s = r 0x7c00 0 ∧
        exec (.ysr st a b d 2) s = r 0x7f 16 ∧ exec (.ysr st a b d 3) s = r 0x7c 0 ∧ exec (.ysr st a b d 4) s = r 0x7fffffff 16) ∧
      (x % 2 ^ 31 < 0x7f800000 →
        let q := x / 2 ^ 16
        let m := x % 2 ^ 16
        let up : Bool := if x < 2 ^ 31 then decide (u < m * 2 ^ 240) else !decide (u < (2 ^ 16 - m) * 2 ^ 240)
        let w := if up then q + 1 else q
        (m = 0 → exec (.ysr st a b d 0) s = r (BitVec.ofNat 64 q) 0) ∧
        (m ≠ 0 → q % 2 ^ 15 < 0x7f7f → exec (.ysr st a b d 0) s = r (BitVec.ofNat 64 w) (if w % 2 ^ 15 < 2 ^ 7 then 3 else 1)) ∧
        (m ≠ 0 → q % 2 ^ 15 = 0x7f7f → exec (.ysr st a b d 0) s = r (BitVec.ofNat 64 q) 5)) ∧
      (∀ n m e, Fmt.fp32.val x = .fin n m e →
        let l := (-e).toNat
        let v : Int := if n then -(m * 2 ^ e.toNat : Nat) else (m * 2 ^ e.toNat : Nat)
        let lo : Int := v / 2 ^ l
        let rem := (v % 2 ^ l).toNat
        (rem = 0 → -2 ^ 31 ≤ lo → lo < 2 ^ 31 → exec (.ysr st a b d 4) s = r (BitVec.ofInt 64 lo) 0) ∧
        (rem ≠ 0 → -2 ^ 31 ≤ lo → lo + 1 < 2 ^ 31 →
          exec (.ysr st a b d 4) s = r (BitVec.ofInt 64 (if u * 2 ^ l < rem * 2 ^ 256 then lo + 1 else lo)) 1) ∧
        (lo < -2 ^ 31 → exec (.ysr st a b d 4) s = r (BitVec.ofInt 64 (-2 ^ 31)) 16) ∧
        (2 ^ 31 ≤ lo → exec (.ysr st a b d 4) s = r 0x7fffffff 16))))

/-- 05 R107-R109; 21 R359-R361: HALLOC of a number that is not FREE, or with a bad descriptor, traps HNDL; short of units it
delivers invalid zero; else it takes its number and waits for its units. HWIN whose pages translate and whose units are scrubbed
pins them and delivers its number with a window over them; units still being scrubbed are awaited. HFREE makes its handle FREEING
and holds the core until it is FREE, then goes on. HINFO delivers the descriptor. -/
def Obligations.HandleResults : Prop :=
  (∀ (s : State) (st : BitVec 3) (a : BitVec 6) (lv : BitVec 2) (ft : BitVec 4) (rows cols : BitVec 16) (d : BitVec 5) (h : BitVec 8)
      (i : Instr) (k : Desc), s.ready [] = true → s.kind ≠ .sysm → dLegal s.kind d = true →
    ((i = .halloc st lv ft d h rows cols ∧ k = ⟨lv.toNat, ft.toNat, 0, rows.toNat, cols.toNat⟩) ∨
      (i = .hallocD st a d h ∧ s.ready [.s a] = true ∧ sLegal s.kind a = true ∧ (s.op a).ok = true ∧
        k = ⟨(s.op a).v.toNat / 2 ^ 62 % 4, (s.op a).v.toNat / 2 ^ 58 % 16, (s.op a).v.toNat / 2 ^ 56 % 4,
          (s.op a).v.toNat / 2 ^ 32 % 2 ^ 16, (s.op a).v.toNat / 2 ^ 16 % 2 ^ 16⟩)) →
    (s.home.numberFree h.toNat = false ∨ k.good = false → exec i s = .next (s.takeTrap s.cur HNDL 0)) ∧
    (s.home.numberFree h.toNat = true → k.good = true →
      (s.home.freeUnits k.level < unitsFor k.level k.extent →
        exec i s = .next ((s.later .s d (.s ⟨0, false⟩)).kept (encode i).length st)) ∧
      (unitsFor k.level k.extent ≤ s.home.freeUnits k.level → ∃ u, exec i s = .next u ∧ u.home.handles = s.home.handles ∧
        s.inFlight u (fun f => f.dst = d.toNat ∧ f.res = none ∧ ∃ w o, f.kind = .halloc h.toNat w o ∧ descOf w = k)))) ∧
  (∀ (s t : State) (st : BitVec 3) (a : BitVec 6) (d : BitVec 5) (h : BitVec 8) (len : BitVec 32) (frames : List Nat),
    s.ready [.s a] = true → s.kind ≠ .sysm → s.codes [a] d = true → (s.op a).ok = true → len ≠ 0 → len.toNat % 8192 = 0 →
    len.toNat ≤ 1048576 → s.home.numberFree h.toNat = true → (s.op a).v.toNat < 2 ^ 53 →
    ((s.op a).v.toNat % 8192 ≠ 0 → exec (.hwin st a d h len) s = .next (s.takeTrap s.cur ALIGN (s.op a).v)) ∧
    ((s.op a).v.toNat % 8192 = 0 → s.winPages s.cur (s.op a).v (len.toNat / 8192) = (t, frames, none) →
      (t.home.freeUnits 0 < len.toNat / 4096 ∨ t.pinRefused frames = true → ∃ u, exec (.hwin st a d h len) s = .next u ∧
        u.pins = t.pins ∧ s.inFlight u (fun f => f.res = some (.s ⟨0, false⟩))) ∧
      (len.toNat / 4096 ≤ t.home.freeUnits 0 → t.pinRefused frames = false →
        t.home.scrubbed ⟨h.toNat, 0, len.toNat / 4096, t.home.order⟩ = false → ∃ u, exec (.hwin st a d h len) s = .next u ∧
          u.pins = t.pins ∧ s.inFlight u (fun f => f.dst = d.toNat ∧ f.res = none ∧
            f.kind = .hwin h.toNat (s.op a).v (len.toNat / 8192) true t.home.order)) ∧
      (len.toNat / 4096 ≤ t.home.freeUnits 0 → t.pinRefused frames = false →
        t.home.scrubbed ⟨h.toNat, 0, len.toNat / 4096, t.home.order⟩ = true →
        ∃ u w, exec (.hwin st a d h len) s = .next u ∧ s.inFlight u (fun f => f.res = some (.s ⟨BitVec.ofNat 64 h.toNat, true⟩)) ∧
          mfind u.home.handles h.toNat = some w ∧ w.kind = 1 ∧ w.base = (s.op a).v ∧ w.pins = frames ∧ w.lines = [] ∧
          w.level = 0 ∧ w.extent = len.toNat ∧ u.pins = (t.pin frames).pins ∧ u.mem = t.mem))) ∧
  ∀ (s : State) (st : BitVec 3) (a : BitVec 6) (d : BitVec 5), s.ready [.s a] = true → s.kind ≠ .sysm → sLegal s.kind a = true →
    (s.op a).ok = true →
    let h := (s.op a).v.toNat % 256
    ((s.core s.cur).began = none →
      (s.handleIn (tileOf s.cur) h = none → exec (.hfree st a) s = .next (s.takeTrap s.cur HNDL 0)) ∧
      (∀ x, s.handleIn (tileOf s.cur) h = some x → ∃ t, exec (.hfree st a) s = .next t ∧
        mfind t.home.handles h = some { x with st := .freeing } ∧ (t.core s.cur).blk = (s.core s.cur).blk ∧
        (t.core s.cur).began = some h)) ∧
    (∀ k, (s.core s.cur).began = some k →
      (256 ≤ k → exec (.hfree st a) s = .next (s.kept 1 st)) ∧ (k < 256 → exec (.hfree st a) s = .next s.waits)) ∧
    (dLegal s.kind d = true →
      (∀ x, s.handleIn (tileOf s.cur) h = some x → exec (.hinfo st a d) s = .next ((s.gives d 2
        ⟨BitVec.ofNat 64 (x.level % 4 * 2 ^ 62 + x.fmt % 16 * 2 ^ 58 + x.kind % 4 * 2 ^ 56 + x.rows % 2 ^ 16 * 2 ^ 32 +
          x.cols % 2 ^ 16 * 2 ^ 16 + (if x.st = .stale then 2 ^ 15 else 0)), true⟩).moved 1 st)) ∧
      (s.handleIn (tileOf s.cur) h = none → exec (.hinfo st a d) s = .next ((s.gives d 2 ⟨0, false⟩).moved 1 st)))

/-- 12 R199, R201, R203-R205: BINIT of an idle barrier of the core's half sets it to phase 0; BARV counts an arrival and delivers
the phase, and the phase completes once all arrivals and bytes are in; BWAIT delivers the phase once the token's has completed,
else waits on the barrier's list; BTEST delivers its token where the parities differ; BEXP adds expected bytes; a posting adds
bytes up to the expectation. 11 R192-R195; 12 R208: GJOIN, GAUGE, GADV and a group's BARV, BWAIT and BTEST send their request to
the group's home tile, in tile issue order; all but GAUGE await its answer, GADV holding the core; GLEAVE sends its own, after
what a release waits for; of a group the issuer is no member of and does not join, or above 4,095, they only deliver invalid zero
or nothing; GINFO delivers the record's fields; the home tile counts a join and a leaving, which ends the membership, and answers.
-/
def Obligations.BarrierAndGroupResults : Prop :=
  ((∀ (s : State) (st : BitVec 3) (a b : BitVec 6) (d : BitVec 5),
    s.ready [.s a, .s b] = true → s.kind ≠ .sysm → s.codes [a, b] d = true → s.given [a, b] = true →
    (s.op a).v.toNat / 2 ^ 9 % 2 ^ 7 = 0 →
    let n := (s.op a).v.toNat % 512
    let e := (s.op b).v.toNat
    let x := s.home.bar n
    let tok := e % 2 ^ 32
    let since := (x.phase.toNat + 2 ^ 32 - tok) % 2 ^ 32
    (isFeeder s.cur = decide (256 ≤ n) → e / 2 ^ 43 = 0 → e / 2 ^ 32 ≤ 1024 → x.cnta = 0 → x.cntb = 0 → x.wait = [] →
      ∃ t, exec (.binit st a b d) s = .next t ∧ s.inFlight t (fun f => f.dst = d.toNat ∧ f.res = some (.s ⟨0, true⟩)) ∧
        t.home.bar n = ⟨e != 0, 0, e / 2 ^ 32, e % 2 ^ 32, e % 2 ^ 32, 0, 0, []⟩) ∧
    (isFeeder s.cur ≠ decide (256 ≤ n) ∨ e / 2 ^ 43 ≠ 0 ∨ 1024 < e / 2 ^ 32 ∨ x.cnta ≠ 0 ∨ x.cntb ≠ 0 ∨ x.wait ≠ [] →
      exec (.binit st a b d) s = .next ((s.later .s d (.s ⟨0, false⟩)).kept 1 st)) ∧
    (x.init = true → 1 ≤ since → since < 2 ^ 31 → ∃ t, exec (.bwait st a b d) s = .next t ∧ t.home.bar n = x ∧
      s.inFlight t (fun f => f.dst = d.toNat ∧ f.acq = some 1 ∧ f.res = some (.s ⟨BitVec.ofNat 64 x.phase.toNat, true⟩))) ∧
    (x.init = true → (since = 0 ∨ 2 ^ 31 ≤ since) → ∃ t, exec (.bwait st a b d) s = .next t ∧
      s.inFlight t (fun f => f.id = (s.core s.cur).nextId ∧ f.dst = d.toNat ∧ f.res = none ∧ f.kind = .bwait ∧
        f.acq = some 1) ∧
      t.home.bar n = { x with wait := x.wait ++ [⟨s.cur, (s.core s.cur).nextId, BitVec.ofNat 32 tok⟩] }) ∧
    (x.init = false → exec (.bwait st a b d) s = .next ((s.later .s d (.s ⟨0, false⟩)).kept 1 st)) ∧
    (x.init = true → x.phase.toNat % 2 ≠ e % 2 → ∃ t, exec (.btest st a b d) s = .next t ∧
      s.inFlight t (fun f => f.dst = d.toNat ∧ f.acq = some 1 ∧ f.res = some (.s (s.op b)))) ∧
    (x.init = false ∨ x.phase.toNat % 2 = e % 2 → exec (.btest st a b d) s = .next ((s.later .s d (.s ⟨0, false⟩)).kept 1 st)) ∧
    (x.init = true → x.expb + tok ≤ 2 ^ 32 - 1 → (x.cnta ≠ x.basea ∨ x.cntb < x.expb + tok) → ∃ t,
      exec (.bexp st a b) s = .next t ∧ t.home.bar n = { x with expb := x.expb + tok })) ∧
  (∀ (s : State) (st : BitVec 3) (a : BitVec 6) (d : BitVec 5),
    s.ready [.s a] = true → s.kind ≠ .sysm → s.codes [a] d = true → (s.op a).ok = true → (s.op a).v.toNat / 2 ^ 9 % 2 ^ 7 = 0 →
    (s.core s.cur).acqPending = false → s.relReady s.cur 1 = true →
    let n := (s.op a).v.toNat % 512
    let x := s.home.bar n
    (x.init = false → exec (.barv st a d) s = .next ((s.later .s d (.s ⟨0, false⟩)).kept 1 st)) ∧
    (x.init = true → x.cnta ≠ x.basea → ∃ t, exec (.barv st a d) s = .next t ∧
      s.inFlight t (fun f => f.dst = d.toNat ∧ f.res = some (.s ⟨BitVec.ofNat 64 x.phase.toNat, true⟩)) ∧
      (x.cnta + 1 ≠ x.basea ∨ x.cntb < x.expb → t.home.bar n = { x with cnta := x.cnta + 1 }) ∧
      (x.cnta + 1 = x.basea → x.expb ≤ x.cntb → t.home.bar n = { x with
        phase := x.phase + 1, cnta := 0, cntb := 0, expb := x.baseb, wait := x.wait.filter (fun w => tokOpen (x.phase + 1) w.tok) })) ∧
    (x.init = true → x.cnta = x.basea → ∃ t, exec (.barv st a d) s = .next t ∧ t.home.bar n = x ∧
      s.inFlight t (fun f => f.res = some (.s ⟨0, false⟩)))) ∧
  ∀ (s : State) (t b n : Nat), ((s.tile t).bar b).init = true → ((s.tile t).bar b).cnta ≠ ((s.tile t).bar b).basea →
    ((s.tile t).bar b).cntb ≤ ((s.tile t).bar b).expb →
    ((s.barPost t b n).tile t).bar b = { (s.tile t).bar b with cntb := min (((s.tile t).bar b).cntb + n) ((s.tile t).bar b).expb }) ∧
  ((∀ (s : State) (st : BitVec 3) (a b : BitVec 6) (d : BitVec 5),
    s.ready [.s a, .s b] = true → s.kind ≠ .sysm → s.codes [a, b] d = true → s.given [a, b] = true →
    let g := (s.op a).v.toNat
    let v := (s.op b).v
    let x := s.core s.cur
    let ask (t : State) (kind id : Nat) (arg : W64) : Prop :=
      ∃ k, t.net = s.net ++ [k] ∧ k.src = tileOf s.cur ∧ k.dst = s.homeOf s.cur g ∧ k.cls = 0 ∧ k.c = s.cur ∧ k.id = id ∧
        k.body = .grp ⟨kind, g, x.gen, arg⟩
    let awaits (t : State) : Prop := s.inFlight t (fun f => f.id = x.nextId ∧ f.dst = d.toNat ∧ f.res = none ∧ f.kind = .await)
    (g ≤ 4095 → v.toNat ≤ 1023 → s.chanHeld s.cur (s.homeOf s.cur g) 0 = false →
      ∃ t, exec (.gjoin st a b d) s = .next t ∧ awaits t ∧ ask t 0 x.nextId v) ∧
    (4095 < g ∨ 1023 < v.toNat → exec (.gjoin st a b d) s = .next ((s.later .s d (.s ⟨0, false⟩)).kept 1 st)) ∧
    (s.mayBeMember s.cur g = true → s.chanHeld s.cur (s.homeOf s.cur g) 0 = false →
      (∃ t, exec (.gauge st a b) s = .next t ∧ ask t 3 0 v) ∧
      (∃ t, exec (.gadv st a d) s = .next t ∧ awaits t ∧ (t.core s.cur).held = true ∧ ask t 4 x.nextId 0) ∧
      (s.relReady s.cur 2 = true → ∃ t, exec (.gleave st a) s = .next t ∧ ask t 1 0 0)) ∧
    (s.mayBeMember s.cur g = false → exec (.gauge st a b) s = .next (s.moved 1 st) ∧ exec (.gleave st a) s = .next (s.moved 1 st) ∧
      exec (.gadv st a d) s = .next ((s.later .s d (.s ⟨0, false⟩)).kept 1 st)) ∧
    (4095 < g → exec (.ginfo st a d) s = .next ((s.gives d 2 ⟨0, false⟩).kept 1 st)) ∧
    (g ≤ 4095 → exec (.ginfo st a d) s = .next ((s.gives d 2 ⟨BitVec.ofNat 64
      ((s.vtileBits (s.homeOf s.cur g)).toNat * 2 ^ 48 + ((s.tile (s.homeOf s.cur g)).grp g).count % 2 ^ 11 * 2 ^ 37 +
        (x.memberOf g).getD 0 % 2 ^ 10 * 2 ^ 27 + (if (x.memberOf g).isSome then 2 ^ 26 else 0)), true⟩).kept 1 st))) ∧
  (∀ (s : State) (st : BitVec 3) (a b : BitVec 6) (d : BitVec 5) (g : Nat),
    s.ready [.s a, .s b] = true → s.kind ≠ .sysm → s.codes [a, b] d = true → s.given [a, b] = true →
    g ≤ 4095 → (s.op a).v.toNat = 2 ^ 15 + g →
    let x := s.core s.cur
    let v := (s.op b).v
    let asks (i : Instr) (kind : Nat) (arg : W64) (w : FKind) (acq : Option Nat) : Prop := ∃ t k, exec i s = .next t ∧
      s.inFlight t (fun f => f.id = x.nextId ∧ f.dst = d.toNat ∧ f.res = none ∧ f.kind = w ∧ f.acq = acq) ∧
      t.net = s.net ++ [k] ∧ k.dst = s.homeOf s.cur g ∧ k.cls = 0 ∧ k.c = s.cur ∧ k.id = x.nextId ∧
      k.body = .grp ⟨kind, g, x.gen, arg⟩
    (s.mayBeMember s.cur g = true → s.chanHeld s.cur (s.homeOf s.cur g) 0 = false →
      (x.acqPending = false → s.relReady s.cur 2 = true → asks (.barv st a d) 5 0 .await none) ∧
      asks (.bwait st a b d) 6 (BitVec.ofNat 64 (v.toNat % 2 ^ 32)) .bwait (some 2) ∧
      asks (.btest st a b d) 7 v .await (some 2)) ∧
    (s.mayBeMember s.cur g = false → ∀ i ∈ [Instr.barv st a d, .bwait st a b d, .btest st a b d],
      exec i s = .next ((s.later .s d (.s ⟨0, false⟩)).kept 1 st))) ∧
  (∀ (x : Ctx) (g : Nat), 0 < x.width → 0 < x.height → groupHome x g = absTile x (g % x.width) (g / x.width % x.height)) ∧
  ∀ (s : State) (t : Nat) (c : CoreRef) (id g m n : Nat), m < 1024 → kindOf c ≠ .sysm →
    let x := (s.tile t).grp g
    (x.map.getLsbD m = true ∨ ((s.core c).memberAt n g).isSome = true ∨ 4 ≤ (s.core c).groups.countP (fun e => e.gen == n) →
      s.groupReq t c id ⟨0, g, n, BitVec.ofNat 64 m⟩ = s.answer c id ⟨0, false⟩) ∧
    (x.map.getLsbD m = false → (s.core c).memberAt n g = none → (s.core c).groups.countP (fun e => e.gen == n) < 4 → x.count ≠ 0 →
      let u := s.groupReq t c id ⟨0, g, n, BitVec.ofNat 64 m⟩
      ((u.tile t).grp g).count = x.count + 1 ∧ ((u.tile t).grp g).map = x.map ||| (1 : BitVec 1024) <<< m ∧
        (u.core c).memberAt n g = some m) ∧
    ((s.core c).memberAt n g = some m →
      let u := s.groupReq t c id ⟨1, g, n, 0⟩
      ((u.tile t).grp g).count = x.count - 1 ∧ ((u.tile t).grp g).map = x.map &&& ~~~((1 : BitVec 1024) <<< m) ∧
        (u.core c).memberAt n g = none))

/-! ### Engines, messages and launches -/

/-- 22 R369-R373: CPY, CPYM, TLD and TST whose checks pass, with nothing that holds them, take the channel's next identifier and
join the tile's transfers, QUEUED, with their operands; the first check that fails traps; XWAIT delivers DONE once its transfer is
complete, else awaits it, and an identifier not yet given out is invalid zero; XSTAT delivers NEXT and DONE. -/
def Obligations.TransferResults : Prop :=
  (∀ (s t : State) (st : BitVec 3) (a b n o : BitVec 6) (ch dir : BitVec 2) (post : BitVec 1) (bar : BitVec 8) (w : BitVec 512),
    s.ready [.s a, .s b, .s n, .s o] = true → s.kind ≠ .sysm → s.codes [a, b, n, o] 0 = true → s.given [a, b, n, o] = true →
    dir ≠ 3 → (post = 1 ∨ bar = 0) →
    let p := (s.op a).v
    let g := (s.op b).v
    let k := (s.op n).v.toNat % 2 ^ 32
    let ptr (q : W64) : Option Nat := s.engPtr (tileOf s.cur) q (fun _ => true) (fun _ => k) (fun _ => 8)
    let free (u : State) : Prop := u.home.boardFull = false ∧ u.home.chanFull ch.toNat = false
    let joins (i : Instr) (u : State) (f : Xfer → Prop) : Prop := ∃ v x, exec i s = .next v ∧ v.mem = u.mem ∧
      v.home.xfers = u.home.xfers ++ [x] ∧ x.xid = vget 0 u.home.chNext ch.toNat ∧ x.order = u.home.order ∧ x.st = .queued ∧
      x.ch = ch.toNat ∧ x.hnd = pH p ∧ x.off = pOFF p ∧ x.post = (post == 1) ∧
      x.bar = bar.toNat + (if isFeeder s.cur then 256 else 0) ∧ x.doneb = 0 ∧ f x ∧
      vget 0 v.home.chNext ch.toNat = vget 0 u.home.chNext ch.toNat + 1 ∧ v.home.chDone = u.home.chDone
    (∀ code, ptr p = some code → exec (.cpy st a b n ch dir post bar) s = .next (s.takeTrap s.cur code 0) ∧
      exec (.cpym st a b n ch post bar) s = .next (s.takeTrap s.cur code 0)) ∧
    (ptr p = none → k % 8 ≠ 0 → (dir = 2 → ptr g = none ∧ pH p ≠ pH g) →
      exec (.cpy st a b n ch dir post bar) s = .next (s.takeTrap s.cur ALIGN 0) ∧
      exec (.cpym st a b n ch post bar) s = .next (s.takeTrap s.cur ALIGN 0)) ∧
    (ptr p = none → k % 8 = 0 → k ≠ 0 →
      (dir = 2 → ptr g = none → (pH p = pH g → pOFF p + k ≤ pOFF g ∨ pOFF g + k ≤ pOFF p) → free s →
        joins (.cpy st a b n ch dir post bar) s (fun x => x.kind = 0 ∧ x.dir = 2 ∧ x.total = k ∧ x.hnd2 = pH g ∧ x.off2 = pOFF g)) ∧
      (dir ≠ 2 → g.toNat < 2 ^ 53 → g.toNat % 8 = 0 →
        (∀ code va, s.gcheck (s.agentOf s.cur) (s.needOf s.cur (dir == 0) (dir == 1)) 8 8 g = (t, .bad code va) →
          exec (.cpy st a b n ch dir post bar) s = .next (t.takeTrap s.cur code va)) ∧
        (∀ pas z, s.gcheck (s.agentOf s.cur) (s.needOf s.cur (dir == 0) (dir == 1)) 8 8 g = (t, .ok pas z) → free t →
          joins (.cpy st a b n ch dir post bar) t (fun x => x.kind = 0 ∧ x.dir = dir.toNat ∧ x.total = k ∧ x.gaddr = g))) ∧
      (boxTiles (s.ctxOfTile (tileOf s.cur)) g = none → exec (.cpym st a b n ch post bar) s = .next (s.takeTrap s.cur PROT 0)) ∧
      (boxTiles (s.ctxOfTile (tileOf s.cur)) g ≠ none → free s →
        joins (.cpym st a b n ch post bar) s (fun x => x.kind = 1 ∧ x.total = k ∧ x.rbox.toNat = g.toNat % 2 ^ 32))) ∧
    (∀ (pas : List Nat), s.engPtr (tileOf s.cur) p (fun _ => true) (fun _ => 0) (fun _ => 1) = none → g.toNat < 2 ^ 53 →
      g.toNat % 64 = 0 → s.engHold s.cur = false →
      s.gcheck (s.agentOf s.cur) (s.needOf s.cur true false) 64 64 g = (t, .ok pas false) → t.memShut (t.coreRouter s.cur) pas = false →
      w = lineBits (pas.map (memRead t.mem)) →
      let h := t.engH (tileOf s.cur) p
      let row := rowBytes h.fmt h.cols
      (descGood w (BitVec.ofNat 32 (s.op n).v.toNat).toInt = false → ∀ i ∈ [Instr.tld st a b n ch post bar o, .tst st a b n ch post bar o],
        exec i s = .next (t.takeTrap s.cur ILLOP 0)) ∧
      (descGood w (BitVec.ofNat 32 (s.op n).v.toNat).toInt = true →
        (h.fmt ≠ dFmt w → ∀ i ∈ [Instr.tld st a b n ch post bar o, .tst st a b n ch post bar o],
          exec i s = .next (t.takeTrap s.cur HNDL 0)) ∧
        (h.fmt = dFmt w → dRow w ≤ row → pOFF p + (dTile1 w - 1) * row + dRow w ≤ h.extent → pOFF p % dUnit w = 0 → free t →
          let org := [(BitVec.ofNat 32 (s.op n).v.toNat).toInt, (BitVec.ofNat 32 ((s.op n).v.toNat / 2 ^ 32)).toInt,
            (BitVec.ofNat 32 (s.op o).v.toNat).toInt, (BitVec.ofNat 32 ((s.op o).v.toNat / 2 ^ 32)).toInt]
          joins (.tld st a b n ch post bar o) t (fun x => x.kind = 2 ∧ x.total = dTile1 w * dRow w ∧ x.desc = w ∧ x.origin = org) ∧
          joins (.tst st a b n ch post bar o) t (fun x => x.kind = 3 ∧ x.total = dTile1 w * dRow w ∧ x.desc = w ∧ x.origin = org))))) ∧
  ∀ (s : State) (st : BitVec 3) (a b : BitVec 6) (d : BitVec 5),
    s.ready [.s a, .s b] = true → s.kind ≠ .sysm → s.codes [a, b] d = true → s.given [a, b] = true →
    let ch := (s.op a).v.toNat % 4
    let tok := (s.op b).v.toNat % 2 ^ 32
    let next := (vget 0 s.home.chNext ch).toNat
    let fin := (vget 0 s.home.chDone ch).toNat
    ((tok + 2 ^ 32 - next) % 2 ^ 32 < 2 ^ 31 → exec (.xwait st a b d) s = .next ((s.later .s d (.s ⟨0, false⟩)).kept 1 st)) ∧
    (2 ^ 31 ≤ (tok + 2 ^ 32 - next) % 2 ^ 32 →
      let k := (fin + 2 ^ 32 - tok) % 2 ^ 32
      (1 ≤ k → k < 2 ^ 31 → ∃ t, exec (.xwait st a b d) s = .next t ∧
        s.inFlight t (fun f => f.dst = d.toNat ∧ f.acq = some 1 ∧ f.res = some (.s ⟨BitVec.ofNat 64 fin, true⟩))) ∧
      (k = 0 ∨ 2 ^ 31 ≤ k → ∃ t, exec (.xwait st a b d) s = .next t ∧
        s.inFlight t (fun f => f.dst = d.toNat ∧ f.acq = some 1 ∧ f.res = none ∧ f.kind = .xwait ch tok))) ∧
    ∃ t, exec (.xstat st a d) s = .next t ∧ (t.core s.cur).watches = [] ∧
      (d ≠ 31 → (t.core s.cur).bank.q.age ic 0 =
        ⟨⟨BitVec.ofNat 64 (next * 2 ^ 32 + fin), true⟩, (s.core s.cur).blk.slot + 2, none⟩)

/-- 13 R218; 22 R374, R376-R378: MFMT sets the format context from its fields and lanes 0-4; MMA, MMAG, MDRAIN and QNT whose
checks pass, with nothing that holds them, join the lists of their units with the format context as it stands; a count out of
range traps. -/
def Obligations.MatrixResults : Prop :=
  (∀ (s : State) (st : BitVec 3) (a : BitVec 6) (af bf : BitVec 2), s.ready [.v a] = true → s.kind = .worker → vLegal a = true →
    ((af = 0 ∧ bf = 0) ∨ (af = 3 ∧ bf = 3) ∨ ((af = 1 ∨ af = 2) ∧ (bf = 1 ∨ bf = 2))) →
    let band (i : Nat) : Option (BitVec 16) :=
      if ((s.opV a).lane i).ok then some (BitVec.ofNat 16 ((s.opV a).lane i).v.toNat) else none
    exec (.mfmt st a af bf) s = .next ((s.modCore s.cur (fun x => { x with r := { x.r with
      fmt := ⟨true, af, bf, [band 0, band 1, band 2, band 3], band 4⟩ } })).moved 2 st)) ∧
  ∀ (s : State) (st : BitVec 3) (a b n r o : BitVec 6) (z post : BitVec 1) (bar : BitVec 8) (rm : BitVec 2),
    s.ready [.s a, .s b, .s n, .s r, .s o] = true → s.kind = .worker → s.codes [a, b, n, r, o] 0 = true →
    s.given [a, b, n, r, o] = true → (post = 1 ∨ bar = 0) →
    let x := s.core s.cur
    let m := (s.op n).v.toNat % 2 ^ 32
    let f := x.r.fmt
    let af := if f.valid then f.af else 0
    let bf := if f.valid then f.bf else 0
    let p := (s.op a).v
    let q := (s.op b).v
    let c := (s.op r).v
    let y := (s.op o).v
    let here := tileOf s.cur
    let rowB := (s.engH here q).rowB
    let okA (gather : Bool) : Prop := s.engPtr here p (fun h => h.level == 0 && h.fmt == ctxFmt af && decide (ctxDepth af ≤ h.rowB))
      (fun h => if gather then 0 else m * h.rowB) (fun h => h.rowB) = none
    let okB : Prop := s.engPtr here q (fun h => h.level == 2 && h.fmt == ctxFmt bf) (fun h => 128 * h.rowB) (fun h => h.rowB) = none ∧
      (bf = 0 → pOFF q / rowB % 8 = 0)
    let okC : Prop := s.engPtr here c Handle.isAcc (fun _ => 256 * m) (fun _ => 256) = none
    let free : Prop := s.home.boardFull = false ∧ s.home.matFull = false
    let filed (k : MCmd) : Prop := k.fmt = f ∧ k.gen = x.gen ∧ k.kern = x.task.map (·.kern) ∧ k.order = s.home.order ∧ k.m = m ∧ k.post = (post == 1) ∧
      k.bar = bar.toNat + (if isFeeder s.cur then 256 else 0) ∧ k.running = false
    (m = 0 ∨ ctxRows af < m → exec (.mma st a b n z post bar r) s = .next (s.takeTrap s.cur ILLOP 0) ∧
      exec (.mmag st a b n z post bar r o) s = .next (s.takeTrap s.cur ILLOP 0)) ∧
    (m = 0 ∨ 256 < m → exec (.mdrain st a b n rm post bar) s = .next (s.takeTrap s.cur ILLOP 0)) ∧
    (m = 0 ∨ m % 8 ≠ 0 ∨ 65536 < m → exec (.qnt st a b n rm post bar) s = .next (s.takeTrap s.cur ALIGN 0)) ∧
    (free → 1 ≤ m → m ≤ ctxRows af →
      (okA false → okB → okC → ∃ t k, exec (.mma st a b n z post bar r) s = .next t ∧ t.home.mq = s.home.mq ++ [k] ∧ filed k ∧
        k.kind = 0 ∧ k.ah = pH p ∧ k.aoff = pOFF p ∧ k.bh = pH q ∧ k.boff = pOFF q ∧ k.ch = pH c ∧ k.coff = pOFF c ∧
        k.zero = (z == 1) ∧ t.home.handles = s.home.handles) ∧
      (okA true → okB → okC → pH y = pH p → s.engPtr here y (fun _ => true) (fun _ => 4 * m) (fun _ => 4) = none →
        ∃ t k, exec (.mmag st a b n z post bar r o) s = .next t ∧ t.home.mq = s.home.mq ++ [k] ∧ filed k ∧ k.kind = 1 ∧
          k.ah = pH p ∧ k.aoff = pOFF p ∧ k.bh = pH q ∧ k.boff = pOFF q ∧ k.ch = pH c ∧ k.coff = pOFF c ∧ k.ih = pH y ∧
          k.ioff = pOFF y ∧ k.zero = (z == 1))) ∧
    (free → 1 ≤ m → m ≤ 256 → s.engPtr here p Handle.isAcc (fun _ => 256 * m) (fun _ => 256) = none →
      s.engPtr here q (fun h => h.level == 0 && drainFmt h.fmt && decide (64 ≤ h.cols))
        (fun h => (m - 1) * h.rowB + rowBytes h.fmt 64) (fun h => elemBytes h.fmt) = none →
      ∃ t k, exec (.mdrain st a b n rm post bar) s = .next t ∧ t.home.dq = s.home.dq ++ [k] ∧ filed k ∧ k.kind = 2 ∧ k.rm = rm ∧
        k.ah = pH p ∧ k.aoff = pOFF p ∧ k.ch = pH q ∧ k.coff = pOFF q) ∧
    (free → m % 8 = 0 → 1 ≤ m → m ≤ 65536 →
      s.engPtr here p (fun h => h.level == 0 && h.fmt == 5) (fun _ => 4 * m) (fun _ => 4) = none →
      s.engPtr here q (fun h => h.level == 0 && h.fmt == 10) (fun _ => 5 * m / 8) (fun _ => 1) = none → pH p ≠ pH q →
      ∃ t k, exec (.qnt st a b n rm post bar) s = .next t ∧ t.home.dq = s.home.dq ++ [k] ∧ filed k ∧ k.kind = 3 ∧ k.rm = rm ∧
        k.ah = pH p ∧ k.aoff = pOFF p ∧ k.ch = pH q ∧ k.coff = pOFF q)

/-- 21 R363-R365: MSEND to a tile of the partition, with its template fetched, credit left and no earlier access open, sends one
message of its class with the template and the newest five scalars, oldest first; outside the partition it traps PROT. LAUNCH on
an enabled queue enters the store path with the 64 bytes of its image, on one that is off it only logs, on one that does not
exist, or of another context in user mode, it traps PROT. DONE stores its 8 bytes in this panel's memory at once, or hands them to
the gate; an address that fails its check traps. -/
def Obligations.MessageLaunchDone : Prop :=
  (∀ (s t : State) (st : BitVec 3) (a : BitVec 6) (cls : BitVec 3) (imm : BitVec 32) (l : List Byte),
    s.ready [.s a, .s 4, .s 3, .s 2, .s 1, .s 0] = true → s.kind ≠ .sysm → sLegal s.kind a = true → (s.op a).ok = true →
    let p := (s.op a).v
    let x := s.ctxOfTile (tileOf s.cur)
    let hdr := (s.core s.cur).blk.hdr
    (x.width ≤ pVX p ∨ x.height ≤ p.toNat / 2 ^ 56 → exec (.msend st a cls imm) s = .next (s.takeTrap s.cur PROT 0)) ∧
    (pVX p < x.width → p.toNat / 2 ^ 56 < x.height →
      s.fetchN s.cur (hdr + BitVec.ofInt 64 (8 * imm.toInt)) 2 = (t, .ok l) → (t.core s.cur).acqPending = false →
      (t.core s.cur).openAcc = false → t.chanHeld s.cur (t.ptrTile s.cur p) cls.toNat = false →
      t.msgLoad (t.ptrTile s.cur p) < 16 → ∃ u k m, exec (.msend st a cls imm) s = .next u ∧
        u.net = t.net ++ [k] ∧ k.src = tileOf s.cur ∧ k.dst = t.ptrTile s.cur p ∧ k.cls = cls.toNat ∧ k.seq = m.seq ∧ k.body = .msg m ∧
        m.src = tileOf s.cur ∧ m.cls = cls.toNat ∧ m.tpl = wordsOf l ∧ m.pay = [t.op 4, t.op 3, t.op 2, t.op 1, t.op 0])) ∧
  (∀ (s t : State) (st : BitVec 3) (a b : BitVec 6),
    s.ready [.s a, .s b] = true → s.kind ≠ .sysm → s.codes [a, b] 0 = true → s.given [a, b] = true → (s.core s.cur).phase = .running →
    let va := (s.op a).v
    let q := (s.op b).v.toNat % 2 ^ 16
    (va.toNat % 64 ≠ 0 → exec (.launch st a b) s = .next (s.takeTrap s.cur ALIGN va)) ∧
    (va.toNat % 64 = 0 →
      (mfind s.queues q = none → exec (.launch st a b) s = .next (s.takeTrap s.cur PROT 0)) ∧
      (∀ u, mfind s.queues q = some u → s.ctxOfCore s.cur ≠ some u.ctxn → exec (.launch st a b) s = .next (s.takeTrap s.cur PROT 0)) ∧
      (∀ u, mfind s.queues q = some u → s.ctxOfCore s.cur = some u.ctxn →
        (u.en = false → exec (.launch st a b) s = .next ((s.logCtx u.ctxn 0x0009 (s.vtileBits (tileOf s.cur))
          (if isFeeder s.cur then 1 else 0) (detail [(336, q)]) 0).kept 1 st)) ∧
        (u.en = true → (s.core s.cur).acqPending = false → (s.core s.cur).flights.any Flight.isOpenLoad = false →
          ∀ pas, s.gcheck (s.agentOf s.cur) (s.needOf s.cur true false) 64 64 va = (t, .ok pas false) → t.tagged s.cur < 32 →
            t.memShut (t.coreRouter s.cur) pas = false → ∃ v, exec (.launch st a b) s = .next v ∧
              (v.core s.cur).seq = (s.core s.cur).seq + (if (s.op b).v.getLsbD 16 then 2 else 1) ∧
              s.inFlight v (fun f => f.res = none ∧ f.acq = some 5 ∧ ∃ r, f.kind = .launch r ∧ r.q = q ∧
                r.kick = (s.op b).v.getLsbD 16 ∧ r.pk = (t.home.snap true pas).map (fun k => k.v.getD (memRead t.mem k.pa))))))) ∧
  ∀ (s t : State) (st : BitVec 3) (a b : BitVec 6),
    s.ready [.s a, .s b] = true → s.kind ≠ .sysm → s.codes [a, b] 0 = true → s.given [a, b] = true →
    let va := (s.op a).v
    let n := (s.ctxOfCore s.cur).getD 256
    let k := (s.core s.cur).task.map (·.kern)
    (∀ code v, s.gcheck (s.agentOf s.cur) (s.needOf s.cur false true) 8 8 va = (t, .bad code v) →
      exec (.doneI st a b) s = .next (t.takeTrap s.cur code v)) ∧
    (∀ pa pas, s.gcheck (s.agentOf s.cur) (s.needOf s.cur false true) 8 8 va = (t, .ok (pa :: pas) false) →
      (t.core s.cur).acqPending = false → t.relReady s.cur 5 = true → (t.notifyOf (pa :: pas) = [] ∨ t.tagged s.cur < 32) →
      (t.inHbm pa = true → t.undoFull n (linesOf (pa :: pas)) = false → t.memShut (t.coreRouter s.cur) (pa :: pas) = false → ∃ u, exec (.doneI st a b) s = .next u ∧
        u.mem = memWriteN t.mem pa ((List.range 8).map (fun i => BitVec.ofNat 8 ((s.op b).v.toNat / 256 ^ i))) ∧
        ∀ c, c < pa ∨ pa + 8 ≤ c → memRead u.mem c = memRead t.mem c) ∧
      (t.inHbm pa = false → t.immediateK k = true → t.writable n pa = true → ∃ u, exec (.doneI st a b) s = .next u ∧
        u.mem = memWriteN t.mem pa ((List.range 8).map (fun i => BitVec.ofNat 8 ((s.op b).v.toNat / 256 ^ i))) ∧
        ∀ c, c < pa ∨ pa + 8 ≤ c → memRead u.mem c = memRead t.mem c) ∧
      (t.inHbm pa = false → t.immediateK k = false →
        let h := t.gateChip k (tileOf s.cur)
        ((t.chip h).gate.length < 1024 → ∃ u, exec (.doneI st a b) s = .next u ∧ u.mem = t.mem ∧
          (u.chip h).gate = (t.chip h).gate ++ [⟨n, (t.ctx n).epoch, pa, (s.op b).v, none⟩]) ∧
        (1024 ≤ (t.chip h).gate.length → ∃ u, exec (.doneI st a b) s = .next u ∧ u.mem = t.mem ∧
          s.inFlight u (fun f => f.res = none ∧ f.kind = .gate pa (s.op b).v))))

/-- 03 R69; 13 R222: an instruction outside the restricted set discards the stitch message it stands in: MSGCNT counts up to 255,
the feeder's own bank and block are in use again, no task ends. 16 R256: in the replay of a block, an instruction whose effect was
released is not performed again and leaves the registers as recorded, and the watch it set (21 R366); a stitch message that is
replayed takes its own registers from the message's own record. -/
def Obligations.MessagesAndReplay : Prop :=
  (∀ (s : State) (st : BitVec 3) (a b : BitVec 6) (d : BitVec 5) (o : BitVec 16) (n : BitVec 11) (m : Msg) (own : Blk),
    coreExists s.cur = true → s.kind = .feeder → (s.core s.cur).sel = .msg → (s.core s.cur).msgRun = some (m, own) →
    s.stopped s.cur = false → (s.core s.cur).held = false →
    ∀ i ∈ [Instr.br st o, .brx st a, .exit st, .waitAll st, .trap st n, .ld st a 0 0 d 3, .st st a b 0 0 3, .crd st d o, .cwr st a o,
        .fadd st a b d 0, .gjoin st a b d, .gleave st a, .binit st a b d, .bwait st a b d, .hfree st a, .launch st a b,
        .doneI st a b, .fence st 0 3, .vadd st a b d, .eret st],
      ∃ t, exec i s = .next t ∧ (t.core s.cur).sel = .norm ∧ (t.core s.cur).msgRun = none ∧ (t.core s.cur).blk = own ∧
        (t.core s.cur).task = (s.core s.cur).task ∧ (t.core s.cur).phase = (s.core s.cur).phase ∧ t.mem = s.mem ∧
        (t.core s.cur).trap.toNat / 2 ^ 120 = min 255 ((s.core s.cur).trap.toNat / 2 ^ 120 + 1) ∧
        (t.core s.cur).trap.toNat % 2 ^ 120 = (s.core s.cur).trap.toNat % 2 ^ 120) ∧
  (∀ (s : State) (st : BitVec 3) (a b : BitVec 6) (d : BitVec 5) (e : RepEntry),
    coreExists s.cur = true → (s.core s.cur).phase = .running → s.stopped s.cur = false → (s.core s.cur).held = false →
    (s.core s.cur).sel ≠ .msg → (s.core s.cur).blk.widx < (s.core s.cur).replayTo →
    (s.core s.cur).replay.find? (fun k => k.word == (s.core s.cur).blk.widx) = some e → a.toNat ≤ 31 → s.codes [a, b] d = true →
    let y := { s.core s.cur with r := e.after.getD (s.core s.cur).r }
    ∀ i ∈ [Instr.ld st a 0 0 d 3, .st st a b 0 0 3, .div st a b d, .crd st d 2],
      (e.watch = none → exec i s = .next ((s.setCore s.cur y).moved 1 st)) ∧
      (∀ w, e.watch = some w → exec i s = .next ((s.setCore s.cur (y.setWatch w)).moved 1 st))) ∧
  ∀ (s : State) (st : BitVec 3) (a b : BitVec 6) (w : BitVec 3) (e : RepEntry),
    coreExists s.cur = true → s.kind = .feeder → (s.core s.cur).sel = .msg → s.stopped s.cur = false → (s.core s.cur).held = false →
    (s.core s.cur).blk.widx < (s.core s.cur).msgTo →
    (s.core s.cur).msgRec.find? (fun k => k.word == (s.core s.cur).blk.widx) = some e → a.toNat ≤ 15 → b.toNat ≤ 15 → w.toNat < 4 →
    let x := s.core s.cur
    exec (.stl st a b 0 0 0 w 0) s =
      .next ((s.setCore s.cur { x with r := { x.r with msg := (e.after.getD x.r).msg } }).moved 1 st)

/-! ### Events of the cores -/

/-- 19 R301; 03 R45-R48; 02 R41; 22 R386: an entry of a block. The innermost loop whose exit header is entered counts down and
repeats its body, or is left, whatever the fetch and the header check then find; a fetch that fails traps; a header with a bad tag
traps BADTGT at the branch that led to it or BADHDR; with LEN 0 or 255, RSVD not 0, or no entry tag where a task or a handler
begins, BADHDR; else its words are what issues next, the queues are empty, the registers that LIVE names keep their values and the
others of s0-s15 and v0-v7 are invalid zeros, p, y and k are kept, and a tile core that is to pause pauses, a system core with an
interrupt pending, under the enables as they were last set (R388), enters its handler, any other core runs. -/
def Obligations.BlockEntry : Prop :=
  (∀ (b : Bank) (t : W64) (e : LoopEntry) (r : List LoopEntry),
    let k := (vget ic b.k e.k).val
    b.resolve t [] = (b, t) ∧ (t ≠ e.exit → b.resolve t (e :: r) = b.resolve t r) ∧
    (t = e.exit → k.ok = false → b.resolve t (e :: r) = ({ b with loops := r }, t)) ∧
    (t = e.exit → k.ok = true → k.v.toNat ≤ 1 →
      b.resolve t (e :: r) = ({ b with loops := r, k := vset b.k e.k (Cell.mk0 ⟨0, true⟩) }, t)) ∧
    (t = e.exit → k.ok = true → 1 < k.v.toNat →
      b.resolve t (e :: r) = ({ b with loops := e :: r, k := vset b.k e.k (Cell.mk0 ⟨k.v - 1, true⟩) }, e.body))) ∧
  ∀ (s s1 s2 : State) (c : CoreRef) (t0 t : W64) (b : Bank) (how : Entry) (hb l : List Byte),
    coreExists c = true → (s.core c).phase = .entering t0 how → (s.core c).held = false → (s.core c).sel ≠ .msg →
    (how = .direct ∨ (s.core c).bank.loopWaits t0 = false) →
    (b, t) = (if how = .direct then ((s.core c).bank, t0) else (s.core c).bank.resolve t0 (s.core c).bank.loops) →
    (∀ code va, s.fetch8 c t = (s1, .fault code va) →
      exec (.blockEntry c) s = .next ((s1.modCore c (·.setBank b)).headerTrap c code t va)) ∧
    (s.fetch8 c t = (s1, .ok hb) →
    let head : W64 := BitVec.ofNat 64 (leNat hb)
    let tag := head.toNat / 2 ^ 56
    let len := head.toNat / 2 ^ 48 % 2 ^ 8
    let tagged : Prop := tag = 0xb5 ∨ tag = 0xb6
    (∀ h w, how = .branch h w → ¬ tagged → exec (.blockEntry c) s =
      .next ((s1.modCore c (·.setBank b)).lateTrap c BADTGT w h 0)) ∧
    ((tagged ∨ ∀ h w, how ≠ .branch h w) →
      ¬ tagged ∨ len = 0 ∨ len = 255 ∨ head.toNat % 8 ≠ 0 ∨ ((how = .start ∨ how = .interrupt) ∧ tag ≠ 0xb6) →
      exec (.blockEntry c) s = .next ((s1.modCore c (·.setBank b)).headerTrap c BADHDR t 0)) ∧
    (tagged → 1 ≤ len → len ≤ 254 → head.toNat % 8 = 0 → (how = .start ∨ how = .interrupt → tag = 0xb6) →
      s1.fetchN c (t + 8) ((len + 1) / 2) = (s2, .ok l) → ∃ u, exec (.blockEntry c) s = .next u ∧
        let x := s2.core c
        let y := u.core c
        let z := Cell.mk0 vz
        let irq := (s2.modCore c (fun x => { x with ien := x.ienNext })).irq c
        y.ien = x.ienNext ∧ y.blk = ⟨t, head, (wordsOf l).take len, 0, 0⟩ ∧ y.r.vq = Ring.empty vz ∧
        (∀ k, k < 8 → vget z y.r.v k = if head.getLsbD (40 + k) then { vget z x.r.v k with ready := 0 } else z) ∧
        (∀ k, k < 8 → vget ic y.r.p k = { vget ic x.r.p k with ready := 0 } ∧
          vget (Cell.mk0 yz) y.r.y k = { vget (Cell.mk0 yz) x.r.y k with ready := 0 }) ∧
        (kindOf c ≠ .sysm ∨ irq = none → y.bank.q = Ring.empty iz ∧ y.bank.loops = b.loops ∧
          (∀ k, k < 16 → vget ic y.bank.s k = if head.getLsbD (24 + k) then { vget ic b.s k with ready := 0 } else ic) ∧
          (∀ k, k < 4 → vget ic y.bank.k k = { vget ic b.k k with ready := 0 })) ∧
        (kindOf c ≠ .sysm → x.stepOnce = false → y.phase = if s2.pauseWanted (tileOf c) then .paused t else .running) ∧
        (kindOf c = .sysm → irq = none → y.phase = .running) ∧
        (∀ v, kindOf c = .sysm → irq = some v → y.phase = .entering (vget 0 x.vec v) .interrupt ∧ y.retBlk = t ∧
          y.inh = true ∧ y.last = BitVec.ofNat 2 v ∧ y.sel = .hand ∧ y.r.hand = Bank.clear)))

/-- 03 R57; 04 R96; 16 R256, R257; 22 R389: a result that is known arrives: it fills the entry and the register that wait for it
and raises its flags, at the core while its task is there and else at its kernel. A first check failure runs the block again from
the registers it began with, and takes up an HFREE that it had begun, or the stitch message again from its own; a second is a
reported fault of the context. A sleeping core wakes when MC or an enabled interrupt bit is set, at the block that follows. -/
def Obligations.DeliveryReplayWaking : Prop :=
  (∀ (s : State) (c : CoreRef) (id : Nat) (f : Flight) (v : RVal), coreExists c = true →
    (s.core c).flight? id = some f → f.res = some v → f.kind = .plain → f.acq = none → s.movingC c = false →
    ∃ t, exec (.variableLatencyCompletion c id) s = .next t ∧
      let x := s.core c
      let y := t.core c
      y.flights = x.flights.filter (fun g => g.id != id) ∧
      (∀ a, v = .s a → ∀ k, k < 16 → vget ic y.r.norm.s k = (vget ic x.r.norm.s k).fill id a ∧
        vget ic y.r.norm.q.e k = (vget ic x.r.norm.q.e k).fill id a ∧
        (k < 8 → vget ic y.r.p k = (vget ic x.r.p k).fill id a)) ∧
      (∀ a, v = .v a → ∀ k, k < 16 → vget (Cell.mk0 vz) y.r.vq.e k = (vget (Cell.mk0 vz) x.r.vq.e k).fill id a ∧
        (k < 8 → vget (Cell.mk0 vz) y.r.v k = (vget (Cell.mk0 vz) x.r.v k).fill id a)) ∧
      (∀ a, v = .y a → ∀ k, k < 8 → vget (Cell.mk0 yz) y.r.y k = (vget (Cell.mk0 yz) x.r.y k).fill id a) ∧
      (x.task.map (·.kern) = f.kern → y.r.fflags = x.r.fflags ||| f.flags ∧ t.kernels = s.kernels) ∧
      (∀ n k, f.kern = some n → x.task.map (·.kern) ≠ some n → mfind s.kernels n = some k → y.r.fflags = x.r.fflags ∧
        ∃ k', mfind t.kernels n = some k' ∧ k'.fflags = k.fflags ||| f.flags)) ∧
  (∀ (s : State) (c : CoreRef) (r : Regs), coreExists c = true → (s.core c).phase = .running → (s.core c).shadow = some r →
    let x := s.core c
    (x.replayTo = 0 → x.sel ≠ .msg → exec (.blockReplay c) s = .next (s.setCore c { x with
      r := r, blk := { x.blk with widx := 0, slot := 0 }, replayTo := max 1 x.blk.widx, blocked := false, awaits := false,
      busyAt := none, began := if x.blk.widx = 0 then x.began else none,
      resume := if x.blk.widx = 0 then none else x.began.map (fun k => (x.blk.widx, k)) })) ∧
    (∀ n, x.replayTo ≠ 0 → x.sel ≠ .msg → kindOf c ≠ .sysm → (s.tile (tileOf c)).ctx = some n → (s.ctx n).st = .running →
      ∃ t, exec (.blockReplay c) s = .next t ∧ (t.ctx n).fault = true ∧ t.core c = x ∧ t.mem = s.mem)) ∧
  (∀ (s : State) (c : CoreRef) (m : Msg) (own : Blk), coreExists c = true → (s.core c).sel = .msg → (s.core c).msgRun = some (m, own) →
    let x := s.core c
    (x.msgTo = 0 → exec (.blockReplay c) s = .next (s.setCore c { x with
      r := { x.r with msg := msgBank m }, blk := { x.blk with widx := 0, slot := 0 }, msgTo := max 1 x.blk.widx, blocked := false, awaits := false, busyAt := none })) ∧
    (∀ n, x.msgTo ≠ 0 → kindOf c ≠ .sysm → (s.tile (tileOf c)).ctx = some n → (s.ctx n).st = .running →
      ∃ t, exec (.blockReplay c) s = .next t ∧ (t.ctx n).fault = true ∧ t.core c = x ∧ t.mem = s.mem)) ∧
  ∀ (s : State) (c : CoreRef) (a : W64), coreExists c = true → (s.core c).phase = .sleeping a →
    (s.core c).mc = true ∨ ((s.core c).ien.getLsbD 2 = true ∧ (s.core c).qe = true) ∨
      ((s.core c).ien.getLsbD 0 = true ∧ (s.core c).timecmp.toNat ≤ s.clock c) →
    exec (.sleepWake c) s = .next (s.setCore c { s.core c with phase := .entering a .fall })

/-- 09 R174, R175; 10 R183; 02 R40; 11 R196: an idle core takes the oldest record of the highest priority from its deque: its
registers are cleared, its tile drops its L1 lines, it is a member of no group, cr.taskarg, cr.taskid and cr.kernel are set, its
entry block comes next, and a primary task of a kernel with a group asks to join it, after what its tile still holds for that
channel. A core whose deque has been empty for 1 µs asks a victim, takes the oldest floating record of the highest priority it is
given, and waits 1 µs after the eighth refusal; in a reproducible context none is asked. -/
def Obligations.TaskEntryAndStealing : Prop :=
  let begun (s t : State) (c : CoreRef) (r : TaskRec) (k : Kernel) : Prop :=
    let y := t.core c
    y.phase = .entering (if isFeeder c then k.fentry else k.wentry) .start ∧ y.task = some r ∧ y.taskarg = k.arg ∧
    y.taskid = BitVec.ofNat 32 r.taskid ∧ y.kreg.toNat = k.seq.toNat + k.q % 2 ^ 32 * 2 ^ 32 ∧
    y.trap.toNat = (s.core c).trap.toNat / 2 ^ 120 * 2 ^ 120 ∧ y.sel = .norm ∧ y.watches = [] ∧
    (t.tile (tileOf c)).l1 = [] ∧ y.gen = (s.core c).gen + 1 ∧
    ((∀ e ∈ (s.core c).groups, e.gen ≤ (s.core c).gen) → ∀ g, y.memberOf g = none) ∧
    (r.prim = false ∨ k.group = 0xffff → y.r = Regs.clear ∧ t.net = s.net) ∧
    (r.prim = true → k.group ≠ 0xffff → s.chanHeld c (groupHome (s.ctxOfTile (tileOf c)) k.group) 0 = false → ∃ i, t.net = s.net ++ [i] ∧ i.src = tileOf c ∧
      i.dst = groupHome (s.ctxOfTile (tileOf c)) k.group ∧
      i.body = .grp ⟨0, k.group, y.gen, BitVec.ofInt 64 (memberIndex s k (tileOf c) r.taskid)⟩)
  (∀ (s : State) (c : CoreRef) (r : TaskRec) (k : Kernel) (l1 l2 : List TaskRec), coreExists c = true → s.canStart c = true →
    (s.tile (tileOf c)).deque (isFeeder c) = l1 ++ r :: l2 → (∀ x ∈ l1, x.prio < r.prio) → (∀ x ∈ l2, x.prio ≤ r.prio) →
    mfind s.kernels r.kern = some k → ∃ t, exec (.taskTake c) s = .next t ∧ begun s t c r k ∧
      (t.tile (tileOf c)).deque (isFeeder c) = l1 ++ l2) ∧
  (∀ (s : State) (c : CoreRef), coreExists c = true → s.canStart c = true →
    let x := s.core c
    let p := s.ctxOfTile (tileOf c)
    (p.repro = true → exec (.stealRequest c) s = .next s) ∧
    (∀ v, p.repro = false → x.steal.victim = none → x.steal.backoff = false → x.steal.since + 1000 ≤ s.time →
      (s.tile (tileOf c)).deque (isFeeder c) = [] → victim (ctxTiles p) (tileOf c) x.steal.tries 256 1 x.steal.refusals = some v →
      exec (.stealRequest c) s = .next (s.setCore c { x with steal := { x.steal with victim := some v } }))) ∧
  (∀ (s : State) (c : CoreRef) (v : Nat), coreExists c = true → s.canStart c = true → (s.core c).steal.victim = some v →
    s.moving v = false →
    let x := s.core c
    ((∀ r ∈ (s.tile v).deque (isFeeder c), r.float = false) →
      let n := x.steal.refusals + 1
      exec (.stealAnswer c) s = .next (s.setCore c { x with steal := { x.steal with
        victim := none, refusals := n, backoff := decide (8 ≤ n), waitAt := if 8 ≤ n then s.time else x.steal.waitAt } })) ∧
    (∀ r k l1 l2, (s.tile v).deque (isFeeder c) = l1 ++ r :: l2 → r.float = true → (∀ y ∈ l1, y.float = true → y.prio < r.prio) →
      (∀ y ∈ l2, y.float = true → y.prio ≤ r.prio) → mfind s.kernels r.kern = some k →
      ∃ t, exec (.stealAnswer c) s = .next t ∧ begun s t c r k ∧ (t.tile v).deque (isFeeder c) = l1 ++ l2 ∧
        (t.core c).steal.victim = none ∧ (t.core c).steal.refusals = 0)) ∧
  ∀ (s : State) (c : CoreRef), coreExists c = true → (s.core c).steal.backoff = true → (s.core c).steal.waitAt + 1000 ≤ s.time →
    exec (.stealBackoffExpiry c) s = .next (s.setCore c { s.core c with
      steal := { (s.core c).steal with refusals := 0, backoff := false, tries := (s.core c).steal.tries + 1 } })

/-! ### Events of channels, memory and engines -/

/-- 07 R144, R146; 01 R24; 13 R222: the oldest item of a channel is applied once at its tile: an item that was applied before is
dropped, one whose tile no row serves is returned as undeliverable and logged. A message joins the queue of its tile; the oldest
queued message becomes what the feeder issues, with a queue of its own in which the payload stands, while the feeder is at a block
entry, idle, or held at issue for a result of its own, and the tile is not stopped. 05 R109-R113; 07 R136; 21 R345, R349, R358: a
remote access at a handle that takes it is performed there: a load answers with the bytes, a store writes them, an atomic answers
with the old value and writes the new one; a consuming load whose granules are not all full, or that follows one that waits for
some of them, joins the wait list. Where the handle does not take it, the answer of a load or an atomic is an invalid zero,
nothing is written, and a record is made. A waiting load is served once its granules are full and none before it in issue order
shares them, and empties them where it asked to. -/
def Obligations.MessageAndRemoteEvents : Prop :=
  ((∀ (s : State) (i : Nat) (x : NetItem) (m : Msg), s.lands i x → x.body = .msg m →
    exec (.stitchMessageArrival i) s = .next ((s.landed i x).modTile x.dst (fun v => { v with msgs := v.msgs ++ [m] })) ∧
    ((s.landed i x).tile x.dst).chIn = mput (s.tile x.dst).chIn (x.src * 8 + x.cls) ((x.seq + 1) % 2 ^ 24)) ∧
  (∀ (s : State) (i : Nat) (x : NetItem) (m : Msg), s.itemReady i = some x → x.body = .msg m →
    ((s.physOf x.dst).isSome = true → s.driftAt x.dst = none → (s.tile x.dst).power = .busy → (s.tile x.dst).seen x = true →
      exec (.stitchMessageArrival i) s = .next { s with net := delAt s.net i }) ∧
    (s.physOf x.dst = none → exec (.stitchMessageArrival i) s = .next (({ s with net := delAt s.net i } : State).logTile x.src
      0x000b (if isFeeder x.c then 1 else 0) (detail [(336, (s.vtileBits x.dst).toNat), (328, 3)])))) ∧
  ∀ (s : State) (t : Nat) (m : Msg) (r : List Msg), t < 16384 → (s.tile t).msgs = m :: r → (s.tile t).feeder.msgRun = none →
    let x := (s.tile t).feeder
    x.phase = .idle ∨ (∃ a how, x.phase = .entering a how) ∨ (x.phase = .running ∧ x.blocked = true ∧ x.awaits = true) →
    s.queuesOnly t = false → ∃ u, exec (.stitchMessageRun t) s = .next u ∧
      let y := (u.tile t).feeder
      (u.tile t).msgs = r ∧ y.msgRun = some (m, x.blk) ∧ y.sel = .msg ∧ y.blk.words = m.tpl ∧ y.blk.widx = 0 ∧
      y.phase = x.phase ∧ y.r.norm = x.r.norm ∧ y.r.p = x.r.p ∧ y.task = x.task ∧ y.bank.s = Bank.clear.s ∧
      (∀ p : Nat → SVal, m.pay = [p 0, p 1, p 2, p 3, p 4] → ∀ a, a < 5 → (y.bank.q.age ic a).val = p (4 - a)) ∧ u.mem = s.mem) ∧
  ((∀ (s : State) (i h off : Nat) (x : NetItem) (op : RemOp), s.lands i x → x.body = .acc h off op → s.netHeld i = false →
    let v := s.tile x.dst
    let n := op.size
    (∀ hd, mfind v.handles h = some hd → hd.st = .allocated → hd.kind = 0 → hd.level = 0 ∨ (hd.level = 1 ∧ op.scrOnly = false) →
      off + n ≤ hd.extent →
      (∀ f fe, op = .load n fe → (s.core x.c).flight? x.id = some f → fe = 0 ∨ (hd.allFull off n = true ∧ v.consumeAhead v.order h off n = false) →
        ∃ t, exec (.remoteAccessArrival i) s = .next t ∧ t.gets x.c x.id (f.shape.make (hd.read off n)) ∧
          (∃ e, mfind (t.tile x.dst).handles h = some e ∧ e.data = hd.data ∧
            e.full = if fe = 2 then hd.full.filter (fun g => !(granules off n).contains g) else hd.full)) ∧
      (∀ fe, op = .load n fe → fe ≠ 0 → ¬ (hd.allFull off n = true ∧ v.consumeAhead v.order h off n = false) →
        exec (.remoteAccessArrival i) s = .next ((s.landed i x).modTile x.dst (fun w =>
          { w with waits := w.waits ++ [⟨x.c, x.id, h, off, n, fe == 2, v.order⟩], order := max w.order (v.order + 1) }))) ∧
      (∀ bytes fe, op = .store bytes n fe → ∃ t e, exec (.remoteAccessArrival i) s = .next t ∧
        mfind (t.tile x.dst).handles h = some e ∧ e.data = memWriteL hd.data bytes ∧
        (∀ g, fe = true → (∃ b ∈ bytes, b.1 / 16 = g) → g ∈ e.full) ∧ (fe = false → e.full = hd.full)) ∧
      (∀ a f, op = .atomic a → (s.core x.c).flight? x.id = some f →
        let r := atomNew a.op a.n (memReadLE hd.data off a.n) a.x.toNat a.c.toNat
        ∃ t e, exec (.remoteAccessArrival i) s = .next t ∧
          t.gets x.c x.id (.s ⟨BitVec.ofNat 64 (memReadLE hd.data off a.n), true⟩) ∧ mfind (t.tile x.dst).handles h = some e ∧
          e.data = memWriteL hd.data (atAddr off (natBytes a.n r.1)) ∧ e.full = hd.full)) ∧
    ((∀ hd, mfind v.handles h = some hd → hd.st ≠ .allocated ∨ hd.kind ≠ 0 ∨ hd.level = 2 ∨ hd.extent < off + n ∨
        (op.scrOnly = true ∧ hd.level ≠ 0)) →
      ∃ t, exec (.remoteAccessArrival i) s = .next t ∧ (t.tile x.dst).handles = v.handles ∧ t.mem = s.mem ∧
        (∀ f, op.reads = true → (s.core x.c).flight? x.id = some f → f.kind = .await → f.res = none → t.gets x.c x.id (zeroOf f.cls)) ∧
        (op.reads = false → (t.core x.c).flights = (s.core x.c).flights))) ∧
  ∀ (s : State) (t : Nat) (w : WaitE) (l r : List WaitE) (hd : Handle) (f : Flight), coreExists w.c = true →
    (s.tile t).waits = l ++ w :: r → (∀ o ∈ l ++ r, ¬ (o.c = w.c ∧ o.id = w.id)) → s.waitTile w.c w.id = some t → s.frozen t = false →
    mfind (s.tile t).handles w.h = some hd → (s.core w.c).flight? w.id = some f → hd.allFull w.off w.n = true →
    (s.tile t).consumeAhead w.ord w.h w.off w.n = false → s.sleeps t w.h w.off w.n = false →
    ∃ u e, exec (.consumingLoadServed w.c w.id) s = .next u ∧ (u.tile t).waits = l ++ r ∧
      u.gets w.c w.id (f.shape.make (hd.read w.off w.n)) ∧ mfind (u.tile t).handles w.h = some e ∧ e.data = hd.data ∧
      e.full = if w.fec then hd.full.filter (fun g => !(granules w.off w.n).contains g) else hd.full)

/-- 12 R201, R203, R206; 13 R217; 11 R194, R195; 12 R208: a multicast writes its bytes at a receiver whose handle is ALLOCATED and
long enough, posts them to its barrier where asked, and is acknowledged; where the handle is missing only the acknowledgement is
sent. An acknowledgement is one arrival on the sender's barrier, counted once, and the last one ends the transfer; the arrival
that completes a phase moves the barrier on. A request of a group is applied at its home tile: a task joins with its index, or
gets an invalid zero where the index is taken, it is a member already, or it has four memberships; an arrival gets the phase, and
the last one completes it; a wait for a phase that is over, and a test whose parity differs, are answered; the request of a task
that is no member gets an invalid zero. -/
def Obligations.ArrivalEvents : Prop :=
  (∀ (s : State) (i h off bar ch : Nat) (x : NetItem) (bytes : List Byte) (post : Bool) (xid : W32), s.lands i x →
    x.body = .mcast h off bytes bar post ch xid → s.netHeld i = false →
    let ack : NetBody := .mack bar ch xid false
    let u := s.landed i x
    let acked (t : State) : Prop := ∃ k, t.net = u.net ++ [k] ∧ k.src = x.dst ∧ k.dst = x.src ∧ k.body = ack
    (∀ hd, mfind (s.tile x.dst).handles h = some hd → hd.takes off (.load bytes.length 0) = true →
      ∃ t e, exec (.multicastReceive i) s = .next t ∧ acked t ∧ mfind (t.tile x.dst).handles h = some e ∧
        e.data = memWriteL hd.data (atAddr off bytes) ∧ t.mem = s.mem ∧
        ((t.tile x.dst).bars = if post then ((u.barPost x.dst bar bytes.length).tile x.dst).bars else (s.tile x.dst).bars)) ∧
    (mfind (s.tile x.dst).handles h = none → ∃ t, exec (.multicastReceive i) s = .next t ∧ acked t ∧
      (t.tile x.dst).handles = (s.tile x.dst).handles ∧ (t.tile x.dst).bars = (s.tile x.dst).bars)) ∧
  (∀ (s : State) (i bar ch : Nat) (x : NetItem) (xid : W32) (k : Xfer), s.lands i x →
    (x.body = .mack bar ch xid false →
      exec (.barrierArrival i) s = .next { (s.barArrive x.dst (barCore bar) bar).1 with
        net := setAt (s.barArrive x.dst (barCore bar) bar).1.net i { x with body := .mack bar ch xid true } }) ∧
    (x.body = .mack bar ch xid true →
      (s.tile x.dst).xfers.find? (fun y => y.kind == 1 && y.ch == ch && y.xid == xid) = some k →
      exec (.multicastAck i) s = .next (if k.acks ≤ 1 then (s.landed i x).xferDone x.dst { k with acks := 0 }
        else (s.landed i x).setXfer x.dst { k with acks := k.acks - 1 }))) ∧
  (∀ (s : State) (t k b : Nat), let x := (s.tile t).bar b
    x.init = true → x.cnta < x.basea → ¬ (x.cnta + 1 = x.basea ∧ x.expb ≤ x.cntb) →
      s.barArrive t k b = (s.modTile t (fun v => { v with bars := mput v.bars b { x with cnta := x.cnta + 1 } }), some x.phase)) ∧
  (∀ (s : State) (t k b : Nat), let x := (s.tile t).bar b
    x.init = true → x.cnta + 1 = x.basea → x.expb ≤ x.cntb → (s.barArrive t k b).2 = some x.phase ∧
      ∃ y, ((s.barArrive t k b).1.tile t).bar b = y ∧ y.phase = x.phase + 1 ∧ y.cnta = 0 ∧ y.cntb = 0 ∧ y.expb = x.baseb ∧
        y.init = true ∧ y.basea = x.basea ∧ y.wait = x.wait.filter (fun w => tokOpen (x.phase + 1) w.tok)) ∧
  ∀ (s : State) (i : Nat) (x : NetItem) (r : GReq) (f : Flight), s.lands i x → x.body = .grp r →
    let g := (s.tile x.dst).grp r.g
    let c := s.core x.c
    coreExists x.c = true → c.flight? x.id = some f →
    (∀ w ∈ g.wait ++ g.gwait.map (·.1), coreExists w.c = true ∧ ¬ (w.c = x.c ∧ w.id = x.id)) →
    let own := c.groups.countP (fun e => e.gen == r.gen)
    let tok : W32 := r.arg.setWidth 32
    (r.kind = 0 → r.arg.toNat < 1024 → g.map.getLsbD r.arg.toNat = false → c.memberAt r.gen r.g = none → own < 4 →
      ∃ t, exec (.groupRequestArrival i) s = .next t ∧ t.gets x.c x.id (.s ⟨r.arg, true⟩) ∧
        (t.core x.c).groups = c.groups ++ [⟨r.g, r.arg.toNat, r.gen⟩] ∧
        ((t.tile x.dst).grp r.g).map.getLsbD r.arg.toNat = true ∧
        ((t.tile x.dst).grp r.g).count = (if g.count = 0 then 1 else g.count + 1)) ∧
    (r.kind = 0 → 1023 < r.arg.toNat ∨ g.map.getLsbD r.arg.toNat = true ∨ (c.memberAt r.gen r.g).isSome = true ∨ 4 ≤ own →
      ∃ t, exec (.groupRequestArrival i) s = .next t ∧ t.gets x.c x.id (.s ⟨0, false⟩) ∧
        (t.tile x.dst).groups = (s.tile x.dst).groups) ∧
    (∀ m, r.kind = 5 → c.memberAt r.gen r.g = some m → m ∉ g.arr → g.count ≠ 0 → ¬ (∀ e ∈ g.gph, e.1 = m ∨ e.1 ∈ g.arr) →
      ∃ t, exec (.groupRequestArrival i) s = .next t ∧ t.gets x.c x.id (.s ⟨g.phase.setWidth 64, true⟩) ∧
        ((t.tile x.dst).grp r.g).arr = setIns g.arr m ∧ ((t.tile x.dst).grp r.g).phase = g.phase) ∧
    (∀ m, r.kind = 5 → c.memberAt r.gen r.g = some m → m ∉ g.arr → g.count ≠ 0 → (∀ e ∈ g.gph, e.1 = m ∨ e.1 ∈ g.arr) →
      ∃ t, exec (.groupRequestArrival i) s = .next t ∧ t.gets x.c x.id (.s ⟨g.phase.setWidth 64, true⟩) ∧
        ((t.tile x.dst).grp r.g).arr = [] ∧ ((t.tile x.dst).grp r.g).phase = g.phase + 1) ∧
    (r.kind = 6 → (c.memberAt r.gen r.g).isSome = true → tokOpen g.phase tok = false →
      ∃ t, exec (.groupRequestArrival i) s = .next t ∧ t.gets x.c x.id (.s ⟨g.phase.setWidth 64, true⟩)) ∧
    (r.kind = 6 → (c.memberAt r.gen r.g).isSome = true → tokOpen g.phase tok = true →
      ∃ t, exec (.groupRequestArrival i) s = .next t ∧ ((t.tile x.dst).grp r.g).wait = g.wait ++ [⟨x.c, x.id, tok⟩]) ∧
    (r.kind = 7 → (c.memberAt r.gen r.g).isSome = true → g.phase.getLsbD 0 ≠ r.arg.getLsbD 0 →
      ∃ t, exec (.groupRequestArrival i) s = .next t ∧ t.gets x.c x.id (.s ⟨r.arg, true⟩)) ∧
    (r.kind = 4 ∨ r.kind = 5 ∨ r.kind = 6 ∨ r.kind = 7 → c.memberAt r.gen r.g = none →
      ∃ t, exec (.groupRequestArrival i) s = .next t ∧ t.gets x.c x.id (.s ⟨0, false⟩) ∧
        (t.tile x.dst).groups = (s.tile x.dst).groups)

/-- 07 R137, R142, R143; 16 R258, R269: a buffered store leaves for its home slice once no older buffered store shares a byte with
it (every earlier read of its core had its value when it entered the buffer: HeldAccesses), and is performed there one unit after
the other, unless a link on the way is closed or the undo log it needs is full: then it waits; its kick is forwarded with the last
unit to every queue whose NOTIFY word it writes, unless its tag is among the agent's last 64. A home slice answers a read with the
bytes that the tile's L1 lines did not have, under the tile's earlier buffered stores, and performs an atomic once every earlier
read of its core has its value: the old value is the result and the new one is written; a repeated tag is answered with the
recorded result and performed only once, which is also what a sender that repeats its request after a time-out gets. -/
def Obligations.HomeSliceEvents : Prop :=
  (∀ (s : State) (t i : Nat) (e : SBEntry), t < 16384 → (s.tile t).sbuf[i]? = some e →
    let n := ((s.tile t).ctx).getD 256
    let rest := fun (v : VTile) => { v with sbuf := delAt v.sbuf i }
    ((∀ o ∈ (s.tile t).sbuf.take i, ∀ a ∈ o.bytes, ∀ b ∈ e.bytes, a.1 ≠ b.1) →
      exec (.storeBufferDrain t i) s = .next (s.modTile t (fun v => { v with sbuf := setAt v.sbuf i { e with sent := true } }))) ∧
    let first (b : Nat × Byte) : Bool := b.1 / max e.u 1 == (e.bytes.headD (0, 0)).1 / max e.u 1
    let now := e.bytes.filter first
    let rest := e.bytes.filter (fun b => !first b)
    let pa := (now.headD (0, 0)).1
    let shut := s.memShut (s.routerOf t) (now.map (·.1))
    (e.sent = true → shut = true → exec (.homeSliceWrite t i) s = .next s) ∧
    (e.sent = true → shut = false → s.undoFull n (linesOf (now.map (·.1))) = true →
      exec (.homeSliceWrite t i) s = .next (s.modTile t (fun v => { v with sbuf := setAt v.sbuf i { e with stuck := true } }))) ∧
    (e.sent = true → shut = false → s.undoFull n (linesOf (now.map (·.1))) = false → e.zp = false → s.writable n pa = true →
      ∃ u, exec (.homeSliceWrite t i) s = .next u ∧ (e.stuck = true → exec (.undoLogSpaceFreed t i) s = .next u) ∧
        u.mem = memWriteL s.mem now ∧ (u.tile t).worker = (s.tile t).worker ∧ (u.tile t).handles = (s.tile t).handles ∧
        (rest ≠ [] → (u.tile t).sbuf = setAt (s.tile t).sbuf i { e with bytes := rest, stuck := false } ∧ u.kicks = s.kicks) ∧
        (rest = [] → let g := agentNo (e.core t)
          (u.tile t).sbuf = delAt (s.tile t).sbuf i ∧
          u.kicks = if e.kick = [] ∨ (s.tagOf ((s.homeChip pa).getD 0) g e.seq).isSome then s.kicks
            else s.kicks ++ e.kick.map (fun q => ⟨q, g, e.seq⟩)))) ∧
  (∀ (s : State) (c : CoreRef) (id : Nat) (f : Flight) (l : List LByte), coreExists c = true →
    (s.core c).flight? id = some f → f.kind = .load l false → f.res = none → s.earlier c id (l.map (·.pa)) = false →
    s.movingC c = false → s.memShut (s.coreRouter c) (l.map (·.pa)) = false → (∀ u, s.unitAt ((l.map (·.pa)).headD 0) = some u → (s.hbmCh u.1 u.2).retired = false) →
    let buf := (s.tile (tileOf c)).sbuf.filter (fun e => !(e.feeder == isFeeder c && decide (id < e.after)))
    ∃ t, exec (.homeSliceRead c id 0) s = .next t ∧ t.mem = s.mem ∧
      t.gets c id (f.shape.make (l.map (fun b => (b.v.getD ((sbufByte buf b.pa).getD (memRead s.mem b.pa)), true))))) ∧
  ∀ (s : State) (c : CoreRef) (id : Nat) (f : Flight) (a : AtomReq), coreExists c = true →
    (s.core c).flight? id = some f → f.kind = .atomic a → f.res = none → s.movingC c = false →
    let pas := rangeFrom a.pa a.n
    let n := (s.ctxOfCore c).getD 256
    let h := (s.homeChip a.pa).getD 0
    let tags := mget [] (s.chip h).tags (agentNo c)
    let m := memReadLE s.mem a.pa a.n
    (∀ v, tags.find? (fun t => t.1 == a.seq) = some (a.seq, v) →
      exec (.homeSliceAtomic c id) s = .next (s.modCore c (·.resolve id (.s ⟨v, true⟩))) ∧
      exec (.senderTimeOut c id) s = exec (.homeSliceAtomic c id) s) ∧
    (tags.find? (fun t => t.1 == a.seq) = none → (s.core c).readBefore id = false → s.sbufAhead c id pas = false →
      s.undoFull n (linesOf pas) = false → a.zp = false → s.memShut (s.coreRouter c) pas = false →
      s.writable n (pas.headD 0) = true → 0 < a.n →
      ∃ t, exec (.homeSliceAtomic c id) s = .next t ∧ exec (.senderTimeOut c id) s = .next t ∧
        t.mem = memWriteN s.mem a.pa (natBytes a.n (atomNew a.op a.n m a.x.toNat a.c.toNat).1) ∧
        t.gets c id (.s ⟨BitVec.ofNat 64 m, true⟩) ∧
        (kindOf c ≠ .sysm → mget [] (t.chip h).tags (agentNo c) = lastN 64 (tags ++ [(a.seq, BitVec.ofNat 64 m)])) ∧
        (∀ g, (t.core c).flight? id = some g → g.flags = f.flags ||| (atomNew a.op a.n m a.x.toNat a.c.toNat).2))

/-- 06 R127: the background zeroes the lowest line of a pending frame that is not zero yet; with every line zero, ZP is cleared in
each leaf that still gives the frame and the frame leaves its chiplet's table (one line an event: log 18). A request that a full
table held is tried again once there is room. 16 R261: the retirement of a channel is recorded, once. 06 R128-R131: a forced page
makes every window that holds it STALE, gives up its pins and suppresses the stores made through it that are still buffered; the
status of a frame is its pin count. 06 R122-R126: a walk that finds a leaf fills the tile's TLB and its chiplet's and sets A; an
access that met a BUSY entry goes on, or joins the held accesses, when the entry has become a leaf with its rights, and traps PAGE
once it has waited 1 ms; TLBINV ends once no access that may use a removed translation is left, with the entries gone. 05 R107,
R108, R114: a HALLOC whose units are scrubbed, with no earlier allocation of its level waiting, makes the handle, empty and zero,
and answers with its number; an HFREE that nothing holds back frees the number, answers blocked consuming loads with invalid
zeros, and gives its units to the scrubber; a window's line that is absent is filled with the frame's bytes under the buffered
stores, after the earlier reads of its bytes. -/
def Obligations.PageAndHandleEvents : Prop :=
  ((∀ (s : State) (h f : Nat) (z : ZpE), h < 64 → mfind (s.chip h).zp f = some z →
    z.zeroed.Pairwise (· < ·) → (∀ l ∈ z.zeroed, f / 256 ≤ l) →
    ((∀ k, k < z.len / 256 → f / 256 + k ∈ z.zeroed) →
      exec (.zeroPendingBackground h f) s = .next ((({ s with
        mem := (z.leaves.filter (s.zpLeaf f)).foldl (fun m a => memWrite m (a + 7) (memRead m (a + 7) &&& 0x7f)) s.mem } : State)).modChip h (fun x =>
          { x with zp := mdel x.zp f }))) ∧
    (∀ k, k < z.len / 256 → (∀ j, j < k → f / 256 + j ∈ z.zeroed) → f / 256 + k ∉ z.zeroed →
      s.zpAt (256 * (f / 256 + k)) = some (h, f, z) →
      exec (.zeroPendingBackground h f) s = .next ((({ s with
        mem := memWriteN s.mem (256 * (f / 256 + k)) (List.replicate 256 0) } : State)).modChip h (fun x =>
          { x with zp := mput x.zp f { z with zeroed := setIns z.zeroed (f / 256 + k) } })))) ∧
  (∀ (s : State) (t i : Nat), t < 16384 → (∀ e ∈ s.chips, e.2.zp.length < 4096) →
    let c : CoreRef := if i = 0 then .worker t else .feeder t
    ((s.core c).flights = [] → exec (.zeroPendingTableFreed t i) s = .next (s.modCore c (fun x => { x with blocked := false }))) ∧
    (∀ f vas atom, (s.core c).flights = [f] → f.kind = .busy vas atom →
      exec (.zeroPendingTableFreed t i) s = exec (.busyReread c f.id) s)) ∧
  (∀ (s : State) (k ch : Nat), k < 128 → ch < 32 →
    ((s.hbmCh k ch).retired = true → exec (.channelRetireRequest k ch) s = .next s) ∧
    ((s.hbmCh k ch).retired = false → exec (.channelRetireRequest k ch) s = .next (((({ s with
      hbm := mput s.hbm (32 * k + ch) { s.hbmCh k ch with retired := true } } : State)).logSys 0x002a 2 0
        (detail [(345, k), (340, ch)])).logSys 0x002b 2 0 (detail [(346, k / 4), (330, ch)])))) ∧
  (∀ (s : State) (f : Nat), ∃ t, exec (.forcePage f) s = .next t ∧ t.mem = s.mem ∧
    ∀ k h x, mfind (s.tile k).handles h = some x → ∃ y, mfind (t.tile k).handles h = some y ∧ y.data = x.data ∧
      (x.kind = 1 ∧ f ∈ x.pins → (x.st = .allocated → y.st = .stale) ∧ y.pins = x.pins.filter (· != f)) ∧
      (¬ (x.kind = 1 ∧ f ∈ x.pins) → y = x) ∧
      (x.kind = 1 → f ∈ x.pins → ∀ e ∈ (t.tile k).sbuf, e.win ≠ some h)) ∧
  ∀ (s : State) (f : Nat), exec (.frameStatusRead f) s = .next { s with reply := [BitVec.ofNat 64 (mget 0 s.pins f)] }) ∧
  ((∀ (s : State) (t n lv at' e : Nat) (va : W64), t < 16384 → (s.tile t).ctx = some n → va.toNat < 2 ^ 53 →
    s.tlbFind { ctx := n, tile := some t, chip := chipOf t } va.toNat = none →
    s.walk va.toNat 3 (s.ctx n).root = .leaf lv at' e → pbit e 63 = false →
    (s.writable n at' = true ∧ s.undoFull n (linesOf [at']) = false ∨ pbit e 6 = true) →
    let low := if pbit e 6 then e % 256 else e % 256 + 64
    ∃ u r, exec (.pageWalk t va) s = .next u ∧
      u.mem = (if pbit e 6 then s.mem else memWrite s.mem at' (BitVec.ofNat 8 low)) ∧ r.ctx = n ∧ r.level = lv ∧
      r.vpn = va.toNat / 2 ^ (13 + 10 * lv) ∧ r.frame = pframe e ∧ r.bits = BitVec.ofNat 9 low ∧ r.zp = false ∧
      (u.tile t).tlb.head? = some r ∧ (u.chip (chipOf t)).tlb.head? = some r) ∧
  (∀ (s s' : State) (c : CoreRef) (id : Nat) (f : Flight) (vas : List W64) (atom : Option AtomReq), coreExists c = true →
    (s.core c).flight? id = some f → f.kind = .busy vas atom → f.res = none → s.movingC c = false →
    let u := s.modCore c (fun x => { x with blocked := false })
    let n := match atom with
      | some a => a.n
      | none => f.shape.per vas.length
    (∀ pas z, u.gchecks (u.agentOf c) (u.needOf c true atom.isSome) n n vas = (s', .ok pas z) → f.lda = false →
      (∀ a, atom = some a → a.op = 10 → (s'.ctxOfTile (tileOf c)).repro = false) → let v := s'.setTrs c f.id vas
      ∃ t g, exec (.busyReread c id) s = .next t ∧ (t.core c).flight? id = some g ∧ g.res = none ∧
        (∀ a, atom = some a → let b := { a with pa := pas.headD 0, zp := z }
          g.kind = if v.heldReady c f.id ⟨.atom b, a.rel, 0⟩ then .atomic b else .held ⟨.atom b, a.rel, 0⟩) ∧
        (atom = none → if v.heldReady c f.id ⟨.ld pas z, none, 0⟩ then ∃ l, g.kind = .load l z ∧ l.map (·.pa) = pas
          else g.kind = .held ⟨.ld pas z, none, 0⟩)) ∧
    ((∀ t, f.since = some t → s.time < t + 1000000) → exec (.busyTimeout c id) s = .next s) ∧
    (∀ va t, vas.find? (s.isBusy c) = some va → f.since = some t → t + 1000000 ≤ s.time → f.lda = false → (s.core c).task.map (·.kern) = f.kern → (s.core c).task.isSome = true →
      kindOf c ≠ .sysm → exec (.busyTimeout c id) s = .next
        ((s.modCore c (fun x => { x with flights := x.flights.filter (fun g => g.id != id) })).userTrap c PAGE f.word f.hdr va))) ∧
  (∀ (s : State) (c : CoreRef) (f : Flight) (form ctx va : Nat), coreExists c = true →
    (s.core c).flights.find? (fun f => match f.kind with
      | .tlbinv _ _ _ => true
      | _ => false) = some f → f.kind = .tlbinv form ctx va → s.usesOld form ctx va = false →
    ∃ t, exec (.tlbinvComplete c) s = .next t ∧ (t.core c).flights = (s.core c).flights.filter (fun g => g.id != f.id) ∧
      (∀ k, (t.tile k).tlb = (s.tile k).tlb.filter (fun e => !e.killed form ctx va)) ∧
      (∀ h, (t.chip h).tlb = (s.chip h).tlb.filter (fun e => !e.killed form ctx va))) ∧
  (∀ (s : State) (c : CoreRef) (id h o : Nat) (f : Flight) (w : W64), coreExists c = true → kindOf c ≠ .sysm →
    (s.core c).flight? id = some f → f.kind = .halloc h w o → f.res = none → s.movingC c = false →
    let d := descOf w
    let v := s.tile (tileOf c)
    v.held d.level + v.scrubbing d.level + unitsFor d.level d.extent ≤ unitTotal d.level →
    (∀ b ∈ v.allocs, b.level = d.level → o ≤ b.ord) →
    ∃ t y, exec (.hallocComplete c id) s = .next t ∧ t.gets c id (.s ⟨BitVec.ofNat 64 h, true⟩) ∧
      mfind (t.tile (tileOf c)).handles h = some y ∧ y.st = .allocated ∧ y.level = d.level ∧ y.fmt = d.fmt ∧ y.kind = d.kind ∧
      y.rows = d.rows ∧ y.cols = d.cols ∧ y.data = [] ∧ y.full = []) ∧
  (∀ (s : State) (t h : Nat) (x : Handle), t < 16384 → mfind (s.tile t).handles h = some x → x.st = .freeing →
    s.handleBusy t h = false → x.level < (s.tile t).scrub.length →
    ∃ u, exec (.hfreeComplete t h) s = .next u ∧ mfind (u.tile t).handles h = none ∧
      (∀ k, k ≠ h → mfind (u.tile t).handles k = mfind (s.tile t).handles k) ∧
      (u.tile t).scrubbing x.level = (s.tile t).scrubbing x.level + x.units ∧ u.mem = s.mem ∧
      (u.tile t).waits = (s.tile t).waits.filter (fun w => w.h != h) ∧
      (∀ w ∈ (s.tile t).waits, w.h = h → ∀ f, (s.core w.c).flight? w.id = some f → f.kind = .await → f.res = none →
        u.gets w.c w.id (zeroOf f.cls)) ∧
      (x.kind = 0 → u.pins = s.pins) ∧ (x.kind = 1 → u.pins = (s.unpin x.pins).pins)) ∧
  (∀ (s : State) (t k : Nat), t < 16384 →
    exec (.unitScrubDone t k) s = .next (s.modTile t (fun v => { v with scrub := setAt v.scrub k (v.scrubbing k - 1) }))) ∧
  ∀ (s : State) (c : CoreRef) (id h off : Nat) (f : Flight) (x : Handle), coreExists c = true → kindOf c ≠ .sysm →
    (s.core c).flight? id = some f → f.kind = .window h off → f.res = none → mfind (s.tile (tileOf c)).handles h = some x →
    s.moving (tileOf c) = false → s.earlier c id ((s.tile (tileOf c)).winPas h off (f.shape.per 1)) = false →
    (x.lineAbsent off = false → exec (.windowLineFill c id) s = .next (s.modCore c (·.resolve id (f.shape.make (x.read off (f.shape.per 1)))))) ∧
    (x.lineAbsent off = true →
      let o := off / 64 * 64
      let pa := x.pins.getD (o / 8192) 0 + o % 8192
      s.memShut (s.coreRouter c) [pa] = false → s.zpAt (256 * (pa / 256)) = none →
      ∃ t y, exec (.windowLineFill c id) s = .next t ∧ mfind (t.tile (tileOf c)).handles h = some y ∧ off / 64 ∈ y.lines ∧
        y.data = memWriteL x.data ((rangeFrom 0 64).map (fun i =>
          (o + i, (sbufByte (s.tile (tileOf c)).sbuf (pa + i)).getD (memRead s.mem (pa + i))))) ∧
        t.mem = s.mem ∧ t.gets c id (f.shape.make (y.read off (f.shape.per 1)))))

/-- 13 R211-R214, R217; 06 R128: a queued transfer that no older overlapping command holds back starts, once no bank of its tile
is in retention; a running one moves on, granule by granule (log 18) and never in parts of a granule or of an aligned unit of
global memory, from and to the places its command gave; when all of it has moved it is DONE: it leaves the tile, gives up its
pins, and DONE of its channel advances. A multicast leaves as one item to each tile of its box. A page that is absent or
forbidden, or an uncorrectable error, sends the rest to the slow path, where firmware tries again, skips a page that it could not
use for 1 ms and records it, and moves the finished transfer to DONE; a BUSY entry counts as absent after 1 ms. 13 R219, R220; 04
R96; 16 R262, R263; 18 R291; 22 R376-R378: a matrix command starts once no older overlapping command holds it back and the supply
is READY; where it is not, a notice is given. Its completion writes the accumulator and raises its flags at the task that issued
it; with one mismatch of its fringes a corrected error is counted as well, with more the pass is discarded and the fault reported.
A drain or quantise command writes its destination. 14 R235: a fill request with every field in range is taken while no fill runs;
one with a field out of range is refused. The fill writes block after block of Zephyr-256 with domain byte 0x5a, and then its
completion word: 1, or 2 after a page that was absent or forbidden, at which the fill has ended; a completion word that must wait
is written later, alone. -/
def Obligations.EngineEvents : Prop :=
  (∀ (s : State) (t x : Nat) (k : Xfer), t < 16384 → (s.tile t).xfer? x = some k →
    let v := s.tile t
    (k.st = .queued → s.frozen t = false → (s.ctxOfTile t).fault = false → s.asleep t = false →
      (∀ f ∈ v.feet, f.1 < k.order → f.2.clash k.foot = false) → s.xferHeld t k = false →
      exec (.transferStart t x) s = .next (s.setXfer t { k with st := .running })) ∧
    (∀ hd src, k.st = .running → s.frozen t = false → (s.ctxOfTile t).fault = false → k.kind = 0 → k.dir = 2 → k.doneb < k.total → mfind v.handles k.hnd = some hd →
      mfind v.handles k.hnd2 = some src →
      let o := k.off + k.doneb
      let n := min (16 - o % 16) (k.total - k.doneb)
      ∃ u e, exec (.pinRetry t x) s = .next u ∧ (u.tile t).xfer? x = some { k with doneb := k.doneb + n } ∧
        mfind (u.tile t).handles k.hnd = some e ∧ e.data = memWriteL hd.data (atAddr o (memReadN src.data (k.off2 + k.doneb) n))) ∧
    (∀ w, k.doneb < k.total → let n := k.hopLen w
      1 ≤ n ∧ k.doneb + n ≤ k.total ∧ (k.doneb + n = k.total ∨ k.splits w (k.doneb + n) = true)) ∧
    (∀ hd s' k' l, k.st = .running → s.frozen t = false → (s.ctxOfTile t).fault = false → k.kind = 0 → k.dir = 0 → k.doneb < k.total → mfind v.handles k.hnd = some hd →
      let o := k.off + k.doneb
      let n := k.hopLen (rowBytes hd.fmt hd.cols)
      s.xferXls t k false ((rangeFrom k.doneb n).map (fun i => some (k.gaddr + BitVec.ofNat 64 i))) = (s', k', (l, false, .moved)) →
      s'.memShut (s'.routerOf t) (l.filterMap id) = false → ∃ u e, exec (.pinRetry t x) s = .next u ∧ (u.tile t).xfer? x = some { k' with doneb := k.doneb + n } ∧
        mfind (u.tile t).handles k.hnd = some e ∧ e.data = memWriteL hd.data (atAddr o ((rangeFrom 0 n).map (fun i =>
          (l.getD i none).elim (k'.fillByte (k.doneb + i)) (memRead s'.mem))))) ∧
    (∀ k', k.st = .running → k.kind ≠ 1 → s.frozen t = false → (s.ctxOfTile t).fault = false → (s.xferMove t k (k.total + 1)).2 = k' → k'.st = .running →
      k'.total ≤ k'.doneb → exec (.transferFinish t x) s = .next ((s.xferMove t k (k.total + 1)).1.xferDone t k')) ∧
    (∀ hd l, k.st = .running → k.kind = 1 → k.sent = false → s.frozen t = false → (s.ctxOfTile t).fault = false → mfind v.handles k.hnd = some hd →
      boxTiles (s.ctxOfTile t) (k.rbox.setWidth 64) = some l → ∃ u r, exec (.transferFinish t x) s = .next u ∧
        u.net = s.net ++ r ∧ r.map (·.dst) = l ∧ (∀ i ∈ r, i.src = t ∧ i.cls = 0 ∧
          i.body = .mcast k.hnd k.off (memReadN hd.data k.off k.total) k.bar k.post k.ch k.xid) ∧
        (u.tile t).xfer? x = some { k with sent := true, doneb := k.total, acks := l.length }) ∧
    (k.st = .running → k.kind ≠ 1 →
      exec (.transferFault t x 3) s = .next (s.setXfer t { k with st := .slow, cause := 3 })) ∧
    (∀ c va, k.st = .running → s.xferBad t k = some (c, va) → c = 1 ∨ c = 2 →
      exec (.transferFault t x c) s = .next ((s.setXfer t { k with st := .slow, cause := c }).xferWaits t k va)) ∧
    (∀ va, k.st = .running → s.xferBad t k = some (0, va) → exec (.transferFault t x 1) s =
      .next (if s.xferOver t k va then s.setXfer t { k with st := .slow, cause := 1 } else s)) ∧
    (k.st = .slow → s.frozen t = false → (s.ctxOfTile t).fault = false → exec (.slowPathRetry t x) s = .next (s.xferMove t k 4).1) ∧
    (∀ c va, k.st = .slow → s.frozen t = false → (s.ctxOfTile t).fault = false → s.xferBad t k = some (c, va) →
      (s.xferOver t k va = false → exec (.slowPageSkip t x) s = .next (s.xferWaits t k va)) ∧
      (∀ s' k' bad, s.xferOver t k va = true → s.skipMoves t (va.toNat / 8192) (k.total + 1) k [] = (s', k', bad) →
        exec (.slowPageSkip t x) s = .next (bad.foldl (fun s va => s.logTile t 0x0004 2
          (detail [(320, k'.xid.toNat), (318, k'.ch), (265, va.toNat % 2 ^ 53)])) (s'.setXfer t k')))) ∧
    (k.st = .slow → k.total ≤ k.doneb → k.post = false → k.ch < 4 → ∃ u, exec (.slowPathFinish t x) s = .next u ∧
      (u.tile t).xfers = v.xfers.filter (fun y => y.order != k.order) ∧ u.pins = (s.unpin k.frames).pins ∧ u.mem = s.mem ∧
      (u.tile t).bars = v.bars ∧ ((∀ y ∈ v.xfers, y.order ≠ k.order → y.ch ≠ k.ch) →
        vget 0 (u.tile t).chDone k.ch = vget 0 v.chNext k.ch))) ∧
  (∀ (s : State) (t : Nat) (m : MCmd) (r : List MCmd), t < 16384 →
    let v := s.tile t
    let p := m.passes (v.hd m.ah) (v.hd m.bh) (v.hd m.ih) (v.hd m.ch)
    let flags (u : State) (f : BitVec 5) : Prop := v.worker.task.isSome = true → v.worker.gen = m.gen →
      (u.tile t).worker.r.fflags = v.worker.r.fflags ||| f
    (v.mq = m :: r →
      (m.running = false → s.frozen t = false → (s.ctxOfTile t).fault = false → s.asleep t = false → v.heldBack m.order m.foot = false →
        s.mcmdHeld t m = false → exec (.matrixStart t) s = .next (if (s.chip (chipOf t)).pw.gust = .ready
          then (s.gustNotice (chipOf t)).modTile t (fun w => { w with mq := { m with running := true } :: r })
          else s.gustNotice (chipOf t))) ∧
      (∀ f, m.running = true → (s.ctxOfTile t).fault = false → f ≤ 1 → ∃ u, exec (.matrixCompletion t f) s = .next u ∧ (u.tile t).mq = r ∧
        mfind (u.tile t).handles m.ch = some p.1 ∧ flags u p.2 ∧ u.mem = s.mem ∧ (m.post = false → (u.tile t).bars = v.bars) ∧
        (∀ q, f = 1 → s.physOf t = some q → (u.ptile q).errs = ((s.ptile q).errs + 1) % 2 ^ 32)) ∧
      (∀ f n, m.running = true → (s.ctxOfTile t).fault = false → 1 < f → v.ctx = some n → (s.ctx n).st = .running → ∃ u, exec (.matrixCompletion t f) s = .next u ∧
        (u.ctx n).fault = true ∧ u.tile t = v ∧ u.mem = s.mem)) ∧
    (∀ hd, v.dq = m :: r → s.frozen t = false → (s.ctxOfTile t).fault = false → s.asleep t = false → v.heldBack m.order m.foot = false →
      s.mcmdHeld t m = false → mfind v.handles m.ch = some hd → let d := m.drained (v.hd m.ah) hd
      ∃ u e, exec (.drainCompletion t) s = .next u ∧ (u.tile t).dq = r ∧ mfind (u.tile t).handles m.ch = some e ∧
        e.data = memWriteL hd.data d.1 ∧ flags u (m.flags ||| d.2) ∧ u.mem = s.mem)) ∧
  ((∀ (s : State) (h n : Nat) (q : BitVec 256), h < 64 → n < 256 →
    let f (lo k : Nat) : Nat := q.toNat / 2 ^ lo % 2 ^ k
    (f 0 62 = 0 → f 155 16 ≠ 0xffff → f 171 32 ≠ 0 → f 203 53 % 16 = 0 → f 62 53 % 8 = 0 → f 115 40 + f 171 32 ≤ 2 ^ 40 →
      (s.chip h).zeph = none → exec (.zephyrFillRequest h n q) s = .next (s.modChip h (fun x => { x with
        zeph := some ⟨n, f 203 53, f 171 32, BitVec.ofNat 16 (f 155 16), f 115 40, f 62 53, none⟩ }))) ∧
    (f 0 62 ≠ 0 ∨ f 155 16 = 0xffff ∨ f 171 32 = 0 ∨ f 203 53 % 16 ≠ 0 ∨ f 62 53 % 8 ≠ 0 ∨ 2 ^ 40 < f 115 40 + f 171 32 →
      exec (.zephyrFillRequest h n q) s = .next s)) ∧
  (∀ (s s' : State) (h n : Nat) (z : Zephyr),
    (z.count = 0 → s.zephyrFill h z n = (s, z, .ok)) ∧
    (0 < z.count → s.sysWrite z.ctx h (42000 + h) ⟨false, true, false, true⟩ z.dest
        (natBytes 16 (zf128 (s.ctx z.ctx).key 0x5a z.sel.toNat z.pos0 0).toNat) = (s', .ok) →
      s.zephyrFill h z (n + 1) = s'.zephyrFill h { z with dest := z.dest + 16, count := z.count - 1, pos0 := z.pos0 + 1 } n)) ∧
  ∀ (s s1 s2 : State) (h : Nat) (z z1 : Zephyr) (r a : SysAcc), h < 64 → (s.chip h).zeph = some z →
    (z.status = none → s.zephyrFill h z (z.count + 1) = (s1, z1, r) → r ≠ .wait →
      let st := if r = .ok then 1 else 2
      s1.sysWrite z1.ctx h (42000 + h) ⟨false, true, false, true⟩ z1.cword (natBytes 8 st) = (s2, a) →
      exec (.zephyrFillComplete h) s = .next (s2.modChip h (fun x => { x with
        zeph := if a = .wait then some { z1 with status := some st } else none }))) ∧
    (∀ st, z.status = some st → s.sysWrite z.ctx h (42000 + h) ⟨false, true, false, true⟩ z.cword (natBytes 8 st) = (s2, a) →
      exec (.zephyrFillComplete h) s = .next (s2.modChip h (fun x => { x with
        zeph := if a = .wait then some { z with status := some st } else none }))))

/-! ### Events of queues, kernels and contexts -/

/-- 09 R168-R172, R174: a kick sets the pending bit of an enabled queue that no slot holds, with its time, and raises QE at the
home chiplet's active core, also while its slot is unmapped; it wakes an IDLE slot. A loaded slot is ACTIVE and the bit is clear.
An ACTIVE slot takes the complete packet at RIDX, which is logged and becomes a kernel, or a rejected one's error completion, RIDX
moving on; with none the slot is IDLE, and a serial queue's complete packet waits for the kernel before it. Records enter the
deques of the tiles in turn, each with its companion's. A slot whose unmapping is complete is FREE, work left behind sets the bit,
and a destroy that waited is done. 09 R164, R173, R179; 28 R418-R420; 16 R270: a descriptor with its fields in range is written,
one that is not changes nothing; a disabled queue is destroyed at once where no slot holds it, and else once none does; an entry
of the access-control table keeps its zero bits zero. MAP of an enabled queue of this chiplet, in no slot, to a FREE slot starts
the load, and of a disabled one clears its pending bit; UNMAP of the slot's queue starts the unmapping, once a load under way is
done; PRIO changes its priority; CMDSTAT is 0 for a command carried out, 1 for one that was so already, 2 for a refused one; only
a refused one is logged. GREL lets the stores of a context leave the gate up to a sealed point, in the order they came, and none
up to one that is not. -/
def Obligations.SlotAndQueueEvents : Prop :=
  ((∀ (s : State) (i : Nat) (k : Kick) (qu : Queue), s.kicks[i]? = some k → mfind s.queues k.q = some qu →
    (qu.en = false → exec (.kick i) s = .next { s with kicks := delAt s.kicks i }) ∧
    (qu.en = true → (s.ctx qu.ctxn).live = true →
      (s.slotFor k.q = none ∨ (∃ h n x, s.slotFor k.q = some (h, n, x) ∧ x.st = .unmapping) → ∃ t, exec (.kick i) s = .next t ∧ t.kicks = delAt s.kicks i ∧ t.mem = s.mem ∧
        let h := s.queueHome qu
        mfind (t.chip h).pkb k.q = some ((mfind (s.chip h).pkb k.q).getD s.time) ∧
        (t.core (.sys h (s.chip h).active)).qe = true) ∧
      (∀ h n x, s.slotFor k.q = some (h, n, x) → mfind (s.chip h).slots n = some x → x.st = .idle →
        exec (.kick i) s = .next (({ s with kicks := delAt s.kicks i } : State).modChip h (fun y =>
          { y with slots := mput y.slots n { x with st := .active } }))))) ∧
  (∀ (s : State) (h n : Nat) (x : Slot), h < 64 → mfind (s.chip h).slots n = some x →
    (x.st = .mapping → ∃ t y, exec (.slotLoaded h n) s = .next t ∧ mfind (t.chip h).slots n = some y ∧ y.q = x.q ∧
      y.st = (if x.unmapReq then .unmapping else .active) ∧ mfind (t.chip h).pkb x.q = none ∧
      ∀ q, q ≠ x.q → mfind (t.chip h).pkb q = mfind (s.chip h).pkb q) ∧
    (∀ qu, mfind s.queues x.q = some qu → s.againOf x.q qu = none →
      (∀ s1 w r, s.ringRead x.q qu = (s1, .ok, w, r) →
        (x.st = .idle → r < w → ∀ s2 l, s1.pktRead x.q qu r = (s2, .ok, l) → leNat ((l.drop 4).take 4) = r % 2 ^ 32 →
          exec (.slotPoll h n) s = .next (s2.modSlot h n (fun y => { y with st := .active }))) ∧
        (x.st = .active → s.placingOf x.q = none → (s.ctx qu.ctxn).live = true ∨ (s.ctx qu.ctxn).st = .failed →
          (s.ctx qu.ctxn).fault = false →
          (w ≤ r → exec (.packetFetch h n) s = .next (s1.modSlot h n (fun y => { y with st := .idle }))) ∧
          (∀ s2 l, r < w → s1.pktRead x.q qu r = (s2, .ok, l) → leNat ((l.drop 4).take 4) ≠ r % 2 ^ 32 →
            exec (.packetFetch h n) s = .next (s2.modSlot h n (fun y => { y with st := .idle }))) ∧
          (∀ s2 l, r < w → s1.pktRead x.q qu r = (s2, .ok, l) → leNat ((l.drop 4).take 4) = r % 2 ^ 32 →
            s2.serialBusy x.q qu = true → exec (.packetFetch h n) s = .next s2) ∧
          (∀ s2 s3 l, r < w → s1.pktRead x.q qu r = (s2, .ok, l) → leNat ((l.drop 4).take 4) = r % 2 ^ 32 →
            s2.serialBusy x.q qu = false → s2.logged h < 2 ^ 20 →
            s2.sysWrite qu.ctxn (s2.queueHome qu) (slotAgent x.q) ⟨false, true, false, false⟩ (qu.base + 8) (natBytes 8 (r + 1)) = (s3, .ok) →
            (s3.ctx qu.ctxn).st ≠ .failed →
            let k := pkKernel x.q qu (BitVec.ofNat 32 r) l
            let c := pkStatus qu (s3.ctx qu.ctxn) l
            ∃ t y, exec (.packetFetch h n) s = .next t ∧ t.mem = s3.mem ∧ t.nextKern = s3.nextKern + 1 ∧
              mfind t.kernels s3.nextKern = some y ∧
              (t.ctx qu.ctxn).pktLog = (s3.ctx qu.ctxn).pktLog ++ [⟨x.q, l, BitVec.ofNat 32 r, (s3.ctx qu.ctxn).epoch⟩] ∧
              (c = 0 → y = { k with left := k.bw * k.bh * k.tpt * (if (if k.cls then k.wentry else k.fentry) = 0 then 1 else 2) }) ∧
              (c ≠ 0 → y.st = .boundary ∧ y.boundaryDone = true ∧ y.skind = 1 ∧ y.scode = c ∧ y.left = 0))) ∧
        (x.st = .unmapping → s.placingOf x.q = none → x.noBit = false →
          (s.ctx qu.ctxn).live = true ∨ (s.ctx qu.ctxn).st = .failed →
          let u := (if r < w then s1.setPkb (s1.queueHome qu) x.q else s1).modChip h (fun y => { y with slots := mdel y.slots n })
          exec (.unmapComplete h n) s = .next (({ u with busy := mdel u.busy (slotAgent x.q) } : State).dequeue x.q)))) ∧
    (∀ kn k, s.placingOf x.q = some (kn, k) → x.st ≠ .mapping → (s.tile (s.placeTile k)).room k = true → s.outranked h n k = false →
      (s.ctx k.ctx).fault = false → (s.ctx k.ctx).live = true → s.driftOf (s.placeTile k) = none →
      let d := s.placeTile k
      let r : TaskRec := ⟨kn, k.placed % max k.tpt 1, true, k.float, k.prio⟩
      ∃ t, exec (.recordPlacement h n) s = .next t ∧ t.mem = s.mem ∧ mget 63 (t.chip h).lastSlot (2 * d + (if k.cls then 1 else 0)) = n ∧
        (t.tile d).deque k.cls = (s.tile d).deque k.cls ++ [r] ∧
        (t.tile d).deque (!k.cls) = (s.tile d).deque (!k.cls) ++ (if (if k.cls then k.wentry else k.fentry) = 0 then []
          else [{ r with prim := false, float := false }]) ∧
        mfind t.kernels kn = some { k with
          placed := k.placed + 1, st := if k.placed + 1 < k.bw * k.bh * k.tpt then .placing else .running }))) ∧
  ((∀ (s : State) (q : Nat) (d : BitVec 128),
    (65536 ≤ q ∨ s.queueOk d = false → exec (.queueDescriptorWrite q d) s = .next s) ∧
    (q < 65536 → s.queueOk d = true → (queueOf d).en = true →
      exec (.queueDescriptorWrite q d) s = .next { s with queues := mput s.queues q (queueOf d) }) ∧
    (q < 65536 → s.queueOk d = true → (queueOf d).en = false → ∃ t, exec (.queueDescriptorWrite q d) s = .next t ∧
      mfind t.queues q = some (queueOf d) ∧ mfind (t.chip (s.queueHome (queueOf d))).pkb q = none) ∧
    (∀ u, mfind s.queues q = some u → (u.en = true → exec (.queueDestroy q) s = .next s) ∧
      (u.en = false → s.mapped q = true → exec (.queueDestroy q) s = .next { s with dequeues := setIns s.dequeues q }) ∧
      (u.en = false → s.mapped q = false → ∃ t, exec (.queueDestroy q) s = .next t ∧ t.queues = mdel s.queues q ∧ t.mem = s.mem)) ∧
    (∀ e : BitVec 64, q < 4096 →
      exec (.queueAclWrite q e) s = .next { s with acl := mput s.acl q (e &&& 0xffffffff00000007) })) ∧
  (∀ (s : State) (h k : Nat) (w : W64), h < 64 → k < 2 → s.ownBusy (.sys h k) = false →
    let c : CoreRef := .sys h k
    let op := w.toNat / 2 ^ 60
    let n := w.toNat / 2 ^ 48 % 64
    let p := w.toNat / 2 ^ 40 % 8
    let q := w.toNat % 2 ^ 16
    let x := s.chip h
    let clean : Prop := w.toNat / 2 ^ 54 % 2 ^ 6 = 0 ∧ w.toNat / 2 ^ 43 % 2 ^ 5 = 0 ∧ w.toNat / 2 ^ 16 % 2 ^ 24 = 0
    let done (t : State) (st : BitVec 2) : Prop := (t.chip h).cmdst = st ∧ (st ≠ 2 → t.sysLog = s.sysLog) ∧ t.mem = s.mem
    (op = 1 → clean → mfind x.slots n = none → ∀ u, mfind s.queues q = some u → u.en = true → s.queueHome u = h →
      (s.ctx u.ctxn).resident = true → s.mapped q = false → ∃ t, exec (.cmdMap c w) s = .next t ∧ done t 0 ∧
        mfind (t.chip h).slots n = some ⟨.mapping, q, max p u.maxprio, s.time, false, false⟩) ∧
    (op = 1 → clean → (∀ y, mfind x.slots n = some y → y.q ≠ q) → ∀ u, mfind s.queues q = some u → u.en = false → ∃ t,
      exec (.cmdMap c w) s = .next t ∧ done t 2 ∧ (t.chip h).slots = x.slots ∧ (t.chip h).pkb = mdel x.pkb q) ∧
    (op = 2 → clean → ∀ y, mfind x.slots n = some y → y.q = q → y.st = .mapping → exec (.cmdUnmap c w) s = .next s) ∧
    (op = 2 → clean → ∀ y, mfind x.slots n = some y → y.q = q → y.st = .active ∨ y.st = .idle → ∃ t,
      exec (.cmdUnmap c w) s = .next t ∧ done t 0 ∧
      mfind (t.chip h).slots n = some { y with st := .unmapping, noBit := false, unmapReq := false }) ∧
    (op = 3 → clean → ∀ y, mfind x.slots n = some y → y.q = q → y.prio ≠ p → ∃ t, exec (.cmdPrio c w) s = .next t ∧ done t 0 ∧
      mfind (t.chip h).slots n = some { y with prio := p }) ∧
    (∀ y, clean → mfind x.slots n = some y →
      (op = 1 → y.q = q → ∃ t, exec (.cmdMap c w) s = .next t ∧ done t 1 ∧ (t.chip h).slots = x.slots) ∧
      (op = 1 → y.q ≠ q → ∃ t, exec (.cmdMap c w) s = .next t ∧ done t 2 ∧ (t.chip h).slots = x.slots) ∧
      (op = 2 → y.st = .unmapping → ∃ t, exec (.cmdUnmap c w) s = .next t ∧ done t 1 ∧ (t.chip h).slots = x.slots) ∧
      (op = 3 → y.q = q → y.prio = p → ∃ t, exec (.cmdPrio c w) s = .next t ∧ done t 1 ∧ (t.chip h).slots = x.slots)) ∧
    (¬ clean → ∃ t, done t 2 ∧ (t.chip h).slots = x.slots ∧ (op = 1 → exec (.cmdMap c w) s = .next t) ∧
      (op = 2 → exec (.cmdUnmap c w) s = .next t) ∧ (op = 3 → exec (.cmdPrio c w) s = .next t))) ∧
  ∀ (s : State) (h k : Nat) (w : W64), h < 64 → k < 2 → w.toNat / 2 ^ 40 = 0 →
    s.ownBusy (.sys h k) = false →
    let n := w.toNat / 2 ^ 32
    let p := w.toNat % 2 ^ 32
    let sealed : Prop := (∃ a ∈ (s.ctx n).points, a.num = p ∧ (a.st = .sealed ∨ a.st = .merged)) ∨
      ((s.ctx n).points ≠ [] ∧ ∀ a ∈ (s.ctx n).points, p < a.num)
    (¬ sealed → exec (.grel (.sys h k) w) s = .next s) ∧
    (sealed → ∃ t, exec (.grel (.sys h k) w) s = .next t ∧
      (t.chip h).gate = (s.chip h).gate.filter (fun g => !(g.ctx == n && decide (g.tag ≤ p))) ∧
      (∀ g, (s.chip h).gate = [g] → g.ctx = n → g.tag ≤ p → s.writable n g.pa = true →
        t.mem = memWriteN s.mem g.pa (natBytes 8 g.v.toNat) ∧
        ∀ a x, g.kern = some a → mfind s.kernels a = some x → mfind t.kernels a = some { x with st := .complete }) ∧
      (∀ g e, (s.chip h).gate = [g, e] → g.ctx = n → e.ctx = n → g.tag ≤ e.tag → e.tag ≤ p → s.writable n g.pa = true →
        s.writable n e.pa = true →
        t.mem = memWriteN (memWriteN s.mem g.pa (natBytes 8 g.v.toNat)) e.pa (natBytes 8 e.v.toNat))))

/-- 09 R176-R178; 28 R421, R422; 22 R385; 18 R285: a scan clears QE and gives the one pending queue the lowest FREE slot, at its
effective priority, one more for each millisecond it has waited. The core that takes over halts where no peer failed; else it
repeats a recorded MAP that is not done, maps a pending queue at its own MAXPRIO to the lowest FREE slot, and goes back, with QE
enabled, to what it was about. A record of the journal is written when its lower half is stored after its upper half, the halves
of other records being held still. Stores to registers write what the register's row says: QE clears on 1, CMP takes the word, a
vector its address bits, SET a clock within its range rounded down. -/
def Obligations.SchedulerEvents : Prop :=
  (∀ (s : State) (h q since n : Nat) (u : Queue), h < 64 → q < 65536 →
    let c : CoreRef := .sys h (s.chip h).active
    (s.core c).alive = true → s.oldestSealed h = none → (s.chip h).pkb = [(q, since)] →
    n < 64 → mfind (s.chip h).slots n = none → (∀ m, m < n → mfind (s.chip h).slots m ≠ none) → mfind s.queues q = some u →
    u.en = true → s.queueHome u = h → (s.ctx u.ctxn).resident = true → s.mapped q = false →
    ∃ t, exec (.schedulerScan h) s = .next t ∧
      mfind (t.chip h).slots n = some ⟨.mapping, q, max (min 7 (u.maxprio + (s.time - since) / 1000000)) u.maxprio, s.time, false, false⟩ ∧
      (t.chip h).cmdst = 0 ∧ ((s.core c).jbase.toNat + 65536 ≤ 2 ^ 31 → t.mem = s.mem) ∧ (t.core c).qe = false) ∧
  (∀ (s : State) (h : Nat), h < 64 →
    let c : CoreRef := .sys h (s.chip h).active
    let x := s.core c
    let s1 := ((s.setCore c { x with mc := false, half := [] }).tkPut c 0 0 8 x.mcause.toNat).modCore c (fun x => { x with mcause := 0 })
    x.alive = true → x.mc = true → x.inh = false →
    (x.mcause.getLsbD 55 = false → ∃ t, exec (.standbyTakeover h) s = .next t ∧ (t.core c).phase = .halted ∧ (t.core c).half = [] ∧
      (t.chip h).active = 1 - (s.chip h).active) ∧
    (x.mcause.getLsbD 55 = true → ∃ t, exec (.standbyTakeover h) s = .next t ∧
      (∃ b, (t.core c).phase = .entering b .direct ∧ ∀ e r, x.phase = .entering e r → b = e) ∧ (t.core c).mc = false ∧
      (t.core c).mcause = 0 ∧ (t.core c).qe = false ∧ (t.core c).half = [] ∧ (t.core c).last = 3 ∧ (t.core c).ien = x.ien ||| 4 ∧
      (∀ q since n u, s1.jhead c = none → (s.chip h).pkb = [(q, since)] → q < 65536 → n < 64 → mfind (s.chip h).slots n = none →
        (∀ m, m < n → mfind (s.chip h).slots m ≠ none) → mfind s.queues q = some u → u.en = true → s.queueHome u = h →
        (s.ctx u.ctxn).resident = true → s.mapped q = false →
        mfind (t.chip h).slots n = some ⟨.mapping, q, u.maxprio, s.time, false, false⟩) ∧
      (∀ i r u, s1.jhead c = some i → s1.jback c 4096 i [] = [r] → jKind r = 1 →
        let n := r.1 / 2 ^ 48 % 256
        let q := r.1 / 2 ^ 32 % 65536
        n < 64 → mfind (s.chip h).slots n = none → mfind s.queues q = some u → u.en = true → s.queueHome u = h →
        (s.ctx u.ctxn).resident = true → s.mapped q = false →
        mfind (t.chip h).slots n = some ⟨.mapping, q, max (r.1 / 2 ^ 29 % 8) u.maxprio, s.time, false, false⟩))) ∧
  (∀ (s : State) (h k a : Nat) (w v : W64), h < 64 → k < 2 → s.ownBusy (.sys h k) = false →
    let c : CoreRef := .sys h k
    let x := s.core c
    x.jbase.toNat ≤ a → a < x.jbase.toNat + 65536 → a % 8 = 0 →
    ((a - x.jbase.toNat) % 16 = 8 → exec (.journalHalfStore c a w) s = .next (s.setCore c { x with half := mput x.half a w })) ∧
    ((a - x.jbase.toNat) % 16 ≠ 8 → mfind x.half (a + 8) = some v → a < 2 ^ 31 → ∃ t, exec (.journalHalfStore c a w) s = .next t ∧
      (t.chip h).aon = memWriteN (s.chip h).aon a (natBytes 8 w.toNat ++ natBytes 8 v.toNat) ∧
      (t.core c).half = mdel x.half (a + 8))) ∧
  (∀ (s : State) (c : CoreRef), coreExists c = true →
    exec (.qeClear c) s = .next (s.setCore c { s.core c with qe := false })) ∧
  ∀ (s : State) (c : CoreRef) (w : W64), coreExists c = true → kindOf c = .sysm →
    exec (.registerWrite c 0x1ffe0000000020 w) s = .next (s.setCore c { s.core c with timecmp := w }) ∧
    (w.getLsbD 2 = true → exec (.registerWrite c 0x1ffe0000000028 w) s = .next (s.setCore c { s.core c with qe := false })) ∧
    (∀ n, n < 4 → ∃ t, exec (.registerWrite c (0x1ffe0000000000 + 8 * n) w) s = .next t ∧
      (vget 0 (t.core c).vec n).toNat = w.toNat % 2 ^ 53 / 8 * 8) ∧
    (∀ h f, h < 64 → f = w.toNat % 2 ^ 12 →
      exec (.registerWrite c (0x1fff0000000018 + 0x10000 * h) w) s = .next (if 900 ≤ f ∧ f ≤ 2200
        then s.modChip h (fun y => { y with pw := { y.pw with set := f / 100 * 100 } })
        else s.modChip h (fun y => y)))

/-- 07 R147; 10 R186-R190; 16 R270; 21 R364: at its boundary a kernel of a context at work translates the two addresses of its
completion, and with every access of its tasks performed the boundary drops L1 and window lines. The completion then stores the
status word and, after it, the value: at once in this panel's memory, through the gate outside it, at once from an immediate queue
or for KIND 3 and 4, and nothing where the packet asked for none or an address faults, or once faulted; a full gate makes it wait,
and a DONE that waited enters first. A LAUNCH claims an index by moving WIDX on, and with room in the ring writes its packet with
the index as SEQ. -/
def Obligations.KernelEvents : Prop :=
  (∀ (s : State) (n : Nat) (k : Kernel), mfind s.kernels n = some k → k.st = .boundary → k.boundaryDone = false →
    (s.ctx k.ctx).st = .running ∨ (s.ctx k.ctx).st = .stopping → (s.ctx k.ctx).fault = false →
    let u := (s.kernXl n k).1
    (u.kernelOpen n (ctxTiles (s.ctx k.ctx)) = true → exec (.kernelBoundary n) s = .next u) ∧
    (u.kernelOpen n (ctxTiles (s.ctx k.ctx)) = false → (s.kernXl n k).2 = none → ∃ t, exec (.kernelBoundary n) s = .next t ∧
      t.mem = u.mem ∧ (∀ k', mfind u.kernels n = some k' → mfind t.kernels n = some { k' with boundaryDone := true }) ∧
      ∀ d ∈ ctxTiles (s.ctx k.ctx), (t.tile d).l1 = [] ∧ ∀ h x, mfind (u.tile d).handles h = some x →
        ∃ y, mfind (t.tile d).handles h = some y ∧ (x.kind ≠ 1 → y = x) ∧ (x.kind = 1 → y.lines = [] ∧ y.pins = x.pins)) ∧
    (∀ va code, u.kernelOpen n (ctxTiles (s.ctx k.ctx)) = false → (s.kernXl n k).2 = some (va, code) →
      ∃ t, exec (.kernelBoundary n) s = .next t ∧ t.mem = u.mem ∧ mfind t.kernels n = some { k with st := .complete }) ∧
    (∀ va code, k.xlBad = some (va, code) → u = s ∧ (s.kernXl n k).2 = some (va, code))) ∧
  (∀ k : Kernel, let w := k.status.toNat
    (k.trapAt = none → w / 2 ^ 60 = k.skind % 16 ∧ w / 2 ^ 56 % 16 = k.scode % 16 ∧ w / 2 ^ 51 % 32 = k.fflags.toNat ∧
      w / 2 ^ 50 % 2 = (if k.yund then 1 else 0) ∧ w / 2 ^ 32 % 2 ^ 16 = 0 ∧ w / 2 ^ 24 % 256 = k.trapWord % 256 ∧
      w % 2 ^ 24 = k.ntrap % 2 ^ 24)) ∧
  (∀ (s : State) (n : Nat) (k : Kernel), mfind s.kernels n = some k → k.st = .boundary → k.boundaryDone = true →
    (s.ctx k.ctx).fault = false →
    let h := s.gateChip (some n) 0
    (k.cword = 0 → exec (.completionStore n) s = .next (s.setKern n { k with st := .complete })) ∧
    (∀ s1, k.cword ≠ 0 → k.xl = none → s.complXl n k.ctx h (k.cword + 8) = (s1, .page) → k.xlBad = none → ∃ t, exec (.completionStore n) s = .next t ∧
      t.mem = s1.mem ∧ mfind t.kernels n = some { k with st := .complete }) ∧
    (∀ s1 s2 pst pv z z', k.cword ≠ 0 → k.xl = none → k.xlBad = none → s.complXl n k.ctx h (k.cword + 8) = (s1, .ok pst z) →
      s1.complXl n k.ctx h k.cword = (s2, .ok pv z') →
      let tr (va : W64) := s2.trOf (sysAgent k.ctx h) va
      let k' := { k with xl := some (pst, pv, z || z'), trs := [tr (k.cword + 8), tr k.cword] }
      exec (.completionStore n) s = .next ((s2.setKern n k').complStore n k' pst pv (z || z'))) ∧
    (∀ pst pv, k.cword ≠ 0 → k.xl = some (pst, pv, false) → k.xlBad = none →
      let both := memWriteN (memWriteN s.mem pst (natBytes 8 k.status.toNat)) pv (natBytes 8 k.cvalue.toNat)
      (s.inHbm pv = true → s.undoFull k.ctx (linesOf (rangeFrom pst 8 ++ rangeFrom pv 8)) = false →
        s.memShut (272 * h) (rangeFrom pst 8 ++ rangeFrom pv 8) = false → s.writable k.ctx pst = true →
        ∃ t, exec (.completionStore n) s = .next t ∧ t.mem = both ∧ mfind t.kernels n = some { k with st := .complete }) ∧
      (s.inHbm pv = false → k.skind < 3 → k.immed = false → (s.chip h).gate.length + 2 ≤ 1024 →
        ∃ t, exec (.completionStore n) s = .next t ∧ t.mem = s.mem ∧ mfind t.kernels n = some { k with st := .gated } ∧
          (t.chip h).gate = (s.chip h).gate ++ [⟨k.ctx, (s.ctx k.ctx).epoch, pst, k.status, some n⟩,
            ⟨k.ctx, (s.ctx k.ctx).epoch, pv, k.cvalue, some n⟩]) ∧
      (s.inHbm pv = false → k.skind < 3 → k.immed = false → 1024 < (s.chip h).gate.length + 2 →
        exec (.completionStore n) s = .next s) ∧
      (s.inHbm pv = false → (3 ≤ k.skind ∨ k.immed = true) → s.writable k.ctx pst = true → s.writable k.ctx pv = true →
        ∃ t, exec (.completionStore n) s = .next t ∧ t.mem = both ∧ mfind t.kernels n = some { k with st := .complete } ∧
          (k.skind < 3 → (t.ctx k.ctx).immEpoch = some (s.ctx k.ctx).epoch)))) ∧
  (∀ (s : State) (n : Nat), s.doneWaits n = none → exec (.gateAdmit n) s = exec (.completionStore n) s) ∧
  (∀ (s : State) (n pa : Nat) (c : CoreRef) (f : Flight) (v : W64), s.doneWaits n = some (c, f, pa, v) →
    let h := s.gateChip (some n) (tileOf c)
    let x := (s.ctxOfCore c).getD 256
    (s.chip h).gate.length < 1024 → s.frozen (tileOf c) = false → exec (.gateAdmit n) s = .next ((s.modChip h (fun y =>
      { y with gate := y.gate ++ [⟨x, (s.ctx x).epoch, pa, v, none⟩] })).modCore c (·.resolve f.id (.s ⟨0, false⟩)))) ∧
  ∀ (s s1 : State) (c : CoreRef) (id : Nat) (f : Flight) (l : LaunchReq) (u : Queue), coreExists c = true →
    (s.core c).flight? id = some f → f.id = id → f.kind = .launch l → f.res = none → mfind s.queues l.q = some u →
    (∀ g ∈ (s.core c).flights, g.id < id → g.isAccess = false) → kindOf c = .sysm ∨ s.frozen (tileOf c) = false →
    (∀ pa, l.idx = 0 → s.launchXls c u [(true, true, u.base)] = (s1, none, [(pa, false)]) →
      let seen := s1.tagOf ((s1.homeChip pa).getD 0) (agentNo c) l.seq
      ((∃ w, seen = some w) → (s.launchClaim c f l u).mem = s1.mem) ∧
      (seen = none → s1.undoFull u.ctxn (linesOf (rangeFrom pa 8)) = false → s1.memShut (s1.coreRouter c) (rangeFrom pa 8) = false →
        kindOf c = .sysm ∨ s1.sbufAhead c id (rangeFrom pa 8) = false → s1.writable u.ctxn pa = true →
        (s.launchClaim c f l u).mem = memWriteN s1.mem pa (natBytes 8 (memReadLE s1.mem pa 8 + 1)))) ∧
    (∀ pr ps, l.idx ≠ 0 → l.kick = false →
      s.launchXls c u [(true, false, u.base + 8), (false, true, u.slotVa (l.idx - 1))] = (s1, none, [(pr, false), (ps, false)]) →
      (memReadLE s1.mem pr 8 + 2 ^ u.log2n ≤ l.idx - 1 → exec (.ringSpaceFreed c id) s = .next s1) ∧
      (l.idx - 1 < memReadLE s1.mem pr 8 + 2 ^ u.log2n → s1.relAt c id 5 = true → l.pk.length = 64 →
        s1.undoFull u.ctxn (linesOf (rangeFrom ps 64)) = false → s1.memShut (s1.coreRouter c) (pr :: rangeFrom ps 64) = false →
        s1.writable u.ctxn ps = true →
        ∃ t, exec (.ringSpaceFreed c id) s = .next t ∧ t.gets c id (.s ⟨0, false⟩) ∧
          t.mem = memWriteN s1.mem ps (l.pk.take 4 ++ natBytes 4 ((l.idx - 1) % 2 ^ 32) ++ l.pk.drop 8)))

/-- 08 R150-R155, R160, R161, R163: the reply of a creation is 1 where the number is in use, else the status that the checks of
R150 give; with 0 the context exists in CREATING with the fields of its record, a zeroed tile at each place of its partition,
point 0 sealed and point 1 open, and runs once its tiles are scrubbed. A table request waits at every tile for the next task
entry. A saved context is restored to a free partition of its shape, and runs there when every slot is readable and matches its
digest, else it fails. A destroyed one keeps no key, no queue and no tile; until its kernels have completed it is not destroyed
yet. What codes the requests but creation return is free (log 55). -/
def Obligations.ContextLife : Prop :=
  (∀ (s : State) (r : BitVec 512), s.bootDone = true →
    let f (lo n : Nat) : Nat := r.toNat / 2 ^ lo % 2 ^ n
    let n := f 110 8
    ((s.ctx n).st ≠ .destroyed → exec (.contextCreate r) s = .next { s with reply := [1] }) ∧
    (s.createStatus r ≠ 0 → exec (.contextCreate r) s = .next { s with reply := [BitVec.ofNat 64 (s.createStatus r)] }) ∧
    (s.createStatus r = 0 → ∃ t, exec (.contextCreate r) s = .next t ∧ t.reply = [0] ∧ t.mem = s.mem ∧
      let x := t.ctx n
      x.st = .creating ∧ x.key.toNat = f 256 256 ∧ x.save = f 219 37 * 8192 ∧ x.root = f 182 37 * 8192 ∧ x.quantum = f 150 32 ∧
      x.vy0 = f 142 8 ∧ x.vx0 = f 134 8 ∧ x.height = f 126 8 ∧ x.width = f 118 8 ∧ x.repro = (f 109 1 == 1) ∧ x.rpint = f 99 10 ∧
      x.ytab.toNat = f 52 47 * 64 ∧ x.elog = f 15 37 * 8192 ∧ x.points.map (fun p => (p.num, p.st)) = [(1, .pending), (0, .sealed)] ∧
      ∀ d ∈ ctxTiles x, t.tile d = { VTile.init0 with ctx := some n, ytab := x.ytab })) ∧
  (∀ (s : State) (n : Nat), n < 256 → (s.ctx n).st = .creating → (s.ctx n).destroyReq = false → (s.ctx n).waitSave = false →
    (s.ctx n).waitDebug = false →
    (∃ t, exec (.creationScrubDone n) s = .next t ∧ (t.ctx n).st = .running ∧ (t.ctx n).resumed = s.time) ∧
    ((∀ e ∈ s.queues, e.2.ctxn ≠ n) →
      exec (.creationScrubDone n) s = .next (s.setCtx n { s.ctx n with st := .running, resumed := s.time, slice := s.time }))) ∧
  (∀ (s : State) (n : Nat) (a : BitVec 53), n < 256 → (s.ctx n).resident = true → ∃ t, exec (.tableStreamRequest n a) s = .next t ∧
    t.mem = s.mem ∧ t.ctxs = s.ctxs ∧ ∀ d ∈ ctxTiles (s.ctx n), (t.tile d).ytabNext = some (BitVec.ofNat 64 (a.toNat / 64 * 64)) ∧
      (t.tile d).ytab = (s.tile d).ytab) ∧
  (∀ (s : State) (n vx vy : Nat), n < 256 → (s.ctx n).st = .saved →
    let y := { s.ctx n with vx0 := vx, vy0 := vy }
    (partOk y = false ∨ s.chipsTaken y = true ∨ s.degraded y = true →
      exec (.restoreRequest n vx vy) s = .next { s with reply := [Config.reqStatus 2 false] }) ∧
    (partOk y = true → s.chipsTaken y = false → s.degraded y = false → ∃ t, exec (.restoreRequest n vx vy) s = .next t ∧
      (t.ctx n).st = .restoring ∧ (t.ctx n).vx0 = vx ∧ (t.ctx n).vy0 = vy ∧ (t.ctx n).width = (s.ctx n).width ∧
      (t.ctx n).height = (s.ctx n).height ∧ (∀ d ∈ ctxTiles y, (t.tile d).ctx = some n) ∧ t.mem = s.mem)) ∧
  (∀ (s : State) (n : Nat), n < 256 → (s.ctx n).st = .restoring → (s.ctx n).destroyReq = false →
    (∀ img, (s.ctx n).waitSave = false → (s.ctx n).waitDebug = false →
      s.slotsLoad (s.ctx n).save 0 (s.ctx n).slots (s.ctx n).image = some img →
      ∃ t, exec (.restoreVerified n true) s = .next t ∧ (t.ctx n).st = .running ∧ (t.ctx n).image = [] ∧
        ∀ d v, img = [(d, v)] →
          let f := movedTile (s.ctx n).imgAt ((s.ctx n).vy0, (s.ctx n).vx0)
          let w := v.move f
          t.tile (f d) = { w.resume with
            xfers := w.xfers.map (fun x => if x.st = .suspended then { x with st := .running } else x), power := .busy,
            ytabNext := ((s.tile (f d)).ytabNext).or w.ytabNext }) ∧
    (s.slotsLoad (s.ctx n).save 0 (s.ctx n).slots (s.ctx n).image = none →
      exec (.restoreVerified n true) s = exec (.restoreVerified n false) s) ∧
    (∀ k m (l : Nat × BitVec 512) v, BitVec.ofNat 512 (memReadLE s.mem (slotAt m k + l.1) 64) ≠ Config.sha3 (memReadN s.mem (slotAt m k) l.1) →
      s.slotLoad m k l v = none) ∧
    (∃ t, exec (.restoreVerified n false) s = .next t ∧ (t.ctx n).st = .failed ∧ t.mem = s.mem ∧
      ∀ k x, mfind s.kernels k = some x → x.ctx = n → x.st ≠ .complete → ∃ y, mfind t.kernels k = some y ∧ y.st = .boundary ∧
        y.skind = 3 ∧ y.left = 0)) ∧
  ∀ (s : State) (n : Nat), n < 256 →
    let x := s.ctx n
    let yes : State := { s.setCtx n { x with destroyReq := true } with reply := [Config.reqStatus 1 true] }
    (x.st = .destroyed → exec (.destroyRequest n) s = .next { s with reply := [Config.reqStatus 1 false] }) ∧
    (x.st = .creating ∨ x.st = .stopping ∨ x.st = .saving ∨ x.st = .restoring → exec (.destroyRequest n) s = .next yes) ∧
    (x.st = .running ∨ x.st = .saved ∨ x.st = .failed ∨ x.st = .debugging →
      let u := yes.destroyStart n
      let left := u.kernels.any (fun e => e.2.ctx == n && e.2.st != .complete)
      (left = true → ∃ t, exec (.destroyRequest n) s = .next t ∧ (t.ctx n).st = .failed ∧ (t.ctx n).destroyReq = true ∧
        t.mem = u.mem) ∧
      (left = false → ∃ t, exec (.destroyRequest n) s = .next t ∧ (t.ctx n).st = .destroyed ∧ (t.ctx n).key = 0 ∧
        (∀ e ∈ t.queues, e.2.ctxn ≠ n) ∧
        (x.out = false → ∀ d ∈ ctxTiles x, (t.tile d).ctx = none ∧ (t.tile d).handles = [] ∧ (t.tile d).tlb = [])))

/-- 08 R156-R159; 16 R267; 09 R173: the end of a quantum, once its time has passed, and a request stop a RUNNING context, whose
queues unmap and lose their pending bits; in DEBUGGING, during a marker wave or another stop the request waits. With every core
paused the context goes to SAVING and its cores enter the save handler, those without a task as well; where some core has not
paused in its window the paused ones go on and the stop is tried again, until it is given up and recorded. A tile acknowledges
once its handlers, its matrix commands, scrubs, HALLOCs and HFREEs are done, and the copy-out of its slot begins; with every tile
acknowledged, nothing on its way and no fault reported each tile's slot is written and sealed with its digest, the context is
SAVED, what routers hold for it is carried, and its tiles and slots belong to none. 08 R162: a debug stop of a RUNNING context
pauses its cores, once no marker wave passes; in DEBUGGING each core can be released for one block, its scalars and the memory of
its handles read and written, the waiters of a barrier read, and all are released together; a stop for a save that was asked for
meanwhile then begins. The numbers by which the service names what it reads and writes are the model's (log 13). -/
def Obligations.StopSaveDebug : Prop :=
  (∀ (s : State) (n : Nat), n < 256 →
    let x := s.ctx n
    let ts := ctxTiles x
    let due := x.slice + 1000 * x.quantum
    let stop : State := (s.setCtx n { x with st := .stopping, stopFor := some true, stopRetry := false, waitSave := false }).parkQueues n
    let yes (u : State) : State := { u with reply := [Config.reqStatus 3 true] }
    (x.st = .running → x.cutting = false → x.stopFor = none → exec (.preEmptRequest n) s = .next (yes stop) ∧
      (x.quantum ≠ 0 → due ≤ s.time → exec (.quantumExpiry n) s = .next stop) ∧ (stop.ctx n).st = .stopping ∧
      ∀ q u, mfind s.queues q = some u → u.ctxn = n → (stop.chip (s.queueHome u)).pkb.find? (fun e => e.1 == q) = none) ∧
    (x.st = .debugging ∨ (x.st = .running ∧ (x.cutting = true ∨ x.stopFor = some false)) → x.stopFor ≠ some true →
      exec (.preEmptRequest n) s = .next (yes (s.setCtx n { x with waitSave := true }))) ∧
    (x.quantum = 0 ∨ s.time < due → exec (.quantumExpiry n) s = .next s) ∧
    (x.stopOpen = true → x.destroyReq = false → s.allQuiet x = false → ∃ t, exec (.stopWindowExpiry n) s = .next t ∧
      (t.ctx n).st = .running ∧ (t.ctx n).stopRetry = true ∧
      ((∀ e ∈ s.queues, e.2.ctxn ≠ n) → t.ctx n = { x with st := .running, stopRetry := true } ∧ t.mem = s.mem) ∧
      ∀ d ∈ ts, ∀ a, s.driftOf d = none → ((s.tile d).worker.phase = .paused a → (t.tile d).worker.phase = .entering a .direct) ∧
        ((s.tile d).feeder.phase = .paused a → (t.tile d).feeder.phase = .entering a .direct)) ∧
    (x.stopRetry = true → x.st = .running → x.cutting = false →
      exec (.stopRetry n) s = .next (if x.stopFor = some true then stop else s.setCtx n { x with stopRetry := false })) ∧
    (x.stopRetry = true → x.st = .running → x.destroyReq = false → x.waitSave = false → x.waitDebug = false →
      exec (.stoplate n) s = .next ((s.setCtx n { x with stopFor := none, stopRetry := false, slice := s.time }).logSys 0x0020 2 n 0)) ∧
    (x.stopOpen = true → s.allQuiet x = true → (∀ d ∈ ts, s.driftOf d = none) →
      (x.stopFor = some false → exec (.contextPaused n) s = .next (s.setCtx n { x with st := .debugging, stopFor := none })) ∧
      (x.stopFor = some true → ∃ t, exec (.contextPaused n) s = .next t ∧ (t.ctx n).st = .saving ∧ (t.ctx n).stopFor = none ∧
        t.mem = s.mem ∧ (∀ d ∈ ts, ∀ a, ((s.tile d).worker.phase = .paused a → (t.tile d).worker.phase = .saving (some a)) ∧
          ((s.tile d).feeder.phase = .paused a → (t.tile d).feeder.phase = .saving (some a))) ∧
        (∀ d ∈ ts, ((s.tile d).worker.phase = .idle → (t.tile d).worker.phase = .saving none) ∧
          ((s.tile d).feeder.phase = .idle → (t.tile d).feeder.phase = .saving none)))) ∧
    (∀ d, d < 16384 → (s.tile d).ctx = some n → x.st = .saving →
      let v := s.tile d
      v.quiet = true → v.mq = [] → v.dq = [] → (∀ k ∈ v.scrub, k = 0) → v.allocs = [] →
      (∀ h ∈ v.handles, h.2.st ≠ .freeing) → exec (.saveAcknowledge d) s = .next
        (({ s with mem := memWriteN s.mem (s.slotOf d) (s.slotBody d v.toImage) } : State).setTile d { v with acked := true })) ∧
    (x.st = .saving → x.fault = true → exec (.finalCopy n) s = .next s) ∧
    (x.st = .saving → x.destroyReq = false → x.fault = false → (∀ d ∈ ts, (s.tile d).acked = true ∧ (s.tile d).quiet = true ∧ s.settled d = true) →
      s.placingLeft n = false → (∀ d ∈ ts, ∀ p, s.physOf d = some p → (s.ptile p).castDue = 0) →
      ∃ t, exec (.finalCopy n) s = .next t ∧
        (t.ctx n).st = .saved ∧ (t.ctx n).image = ts.map (fun d => (d, (s.tile d).toImage)) ∧
        (∀ d ∈ ts, t.tile d = VTile.init0) ∧ (t.ctx n).parcel = s.net.filter (fun i => ts.contains i.src) ∧
        (∀ h m y u, mfind (t.chip h).slots m = some y → mfind s.queues y.q = some u → u.ctxn ≠ n) ∧
        (memWf s.mem = true → ∀ i d, ts[i]? = some d → let b := s.slotBody d (s.tile d).toImage
          memReadN t.mem (x.save + 6815744 * i) (b.length + 64) = b ++ natBytes 64 (Config.sha3 b).toNat ∧
          (t.ctx n).slots[i]? = some (b.length, Config.sha3 b)) ∧
        (∀ a, a < x.save ∨ x.save + 6815744 * ts.length ≤ a → memRead t.mem a = memRead s.mem a))) ∧
  ((∀ (s : State) (n : Nat), n < 256 →
    let x := s.ctx n
    (x.st = .running → x.cutting = false → x.stopFor = none → exec (.debugStop n) s =
      .next { s.setCtx n { x with stopFor := some false, stopRetry := false } with reply := [Config.reqStatus 4 true] }) ∧
    (x.st = .running → x.stopFor ≠ some false → x.cutting = true → exec (.debugStop n) s =
      .next { s.setCtx n { x with waitDebug := true } with reply := [Config.reqStatus 4 true] }) ∧
    (x.st = .debugging → x.destroyReq = false → x.waitSave = true → x.cutting = false → x.stopFor = none →
      ∃ t, exec (.debugResume n) s = .next t ∧ (t.ctx n).st = .stopping) ∧
    (x.st = .debugging → x.destroyReq = false → x.waitSave = false → x.waitDebug = false →
      ∃ t, exec (.debugResume n) s = .next t ∧ t.ctx n = { x with st := .running } ∧ t.mem = s.mem ∧
      ∀ d ∈ ctxTiles x, ∀ a, s.driftOf d = none → ((s.tile d).worker.phase = .paused a → (t.tile d).worker.phase = .entering a .direct) ∧
        ((s.tile d).feeder.phase = .paused a → (t.tile d).feeder.phase = .entering a .direct))) ∧
  ∀ (s : State) (d n : Nat), d < 16384 → (s.tile d).ctx = some n → (s.ctx n).st = .debugging →
    let v := s.tile d
    let x := v.worker
    (∀ a, x.phase = .paused a → v.feeder.phase = .idle → exec (.debugStep d) s = .next (s.setTile d { v with
      worker := { x with phase := .entering a .direct, stepOnce := true } })) ∧
    (∀ k, k < 16 →
      exec (.debugAccess d 0 k none) s = .next { s with reply := [(vget ic x.r.norm.s k).val.v] } ∧
      exec (.debugAccess d 0 (k + 256) none) s = .next { s with reply := [if (vget ic x.r.norm.s k).val.ok then 1 else 0] }) ∧
    (∀ k w, k < 16 → ∃ t, exec (.debugAccess d 0 k (some w)) s = .next t ∧ (t.tile d).feeder = v.feeder ∧ t.mem = s.mem ∧
      (vget ic (t.tile d).worker.r.norm.s k).val = ⟨w, (vget ic x.r.norm.s k).val.ok⟩ ∧
      ∀ j, j < 16 → j ≠ k → vget ic (t.tile d).worker.r.norm.s j = vget ic x.r.norm.s j) ∧
    (∀ h o y w, mfind v.handles h = some y → o + 8 ≤ y.extent → o < 2 ^ 32 →
      exec (.debugAccess d 2 (h * 2 ^ 32 + o) none) s = .next { s with reply := [BitVec.ofNat 64 (memReadLE y.data o 8)] } ∧
      ∃ t z, exec (.debugAccess d 2 (h * 2 ^ 32 + o) (some w)) s = .next t ∧ mfind (t.tile d).handles h = some z ∧
        z.data = memWriteN y.data o (natBytes 8 w.toNat) ∧ z.full = y.full) ∧
    (∀ b i w, b < 512 → i < 64 → (v.bar b).wait[i]? = some w → exec (.debugAccess d 9 (64 * b + i) none) s =
      .next { s with reply := [BitVec.ofNat 64 (w.tok.toNat + (if isFeeder w.c then 2 ^ 32 else 0))] }))

/-! ### Events of tiles, recovery, links, power and start-up -/

/-- 15 R236-R242, R244: a drift begins where its column has an unreserved spare and no cast-off tile, its chiplet no drift, and
its tile's context, if it has one, runs without a reported fault; during a marker wave, or while tables are being rewritten, it
waits. An interval that has passed goes on to the next column, where a thermal drift runs or waits once that is over. The tile
drains, freezes once both cores pause, and is given up if they do not in the window; with nothing of it on its way its image is
copied; then its column's entry names the landing row, each router applies it, and once all have the landing tile, if it is awake,
serves, its cores entering their saved blocks; held traffic follows, in its channel's order; at its end the old tile cools after a
thermal drift, else it is tested; a drift of at most 16,000 cycles makes no record. The numbers of the routers are the model's
(log 14). 15 R246-R250; 16 R251-R254, R262, R264: a cast-off of a spare, testing or cooling tile enters the defect record at once,
a serving one is drifted first, or where its column has a cast-off tile already its context is stopped, once it runs; a hard
failure reports the fault, and its column's spare takes its row, or where there is none no row serves its virtual tile. A tile
under test is a spare again after the right response in time, else it is cast off. A router takes a table that R249 allows once
what passes it is acknowledged, and no other; what routers hold then goes on. A test package is installed when the controllers
accept it. No bank goes into retention under a footprint; retention and scrubbing count corrections. -/
def Obligations.TileEvents : Prop :=
  ((∀ (s : State) (h us : Nat), h < 64 →
    (us = 0 ∨ (50 ≤ us ∧ us ≤ 10000) →
      exec (.driftIntervalSet h us) s = .next (s.modChip h (fun x => { x with interval := us * 1000 }))) ∧
    (0 < us → us < 50 ∨ 10000 < us → exec (.driftIntervalSet h us) s = .next s) ∧
    ((s.chip h).interval = 0 → exec (.driftIntervalExpiry h) s = .next s) ∧
    ((s.chip h).driftDue = false → s.time < (s.chip h).driftAt + (s.chip h).interval → exec (.driftIntervalExpiry h) s = .next s) ∧
    ((s.chip h).interval ≠ 0 → (s.chip h).driftDue = true ∨ (s.chip h).driftAt + (s.chip h).interval ≤ s.time →
      (∀ d, (s.chip h).drift = some d → d.kind = 1 →
        exec (.driftIntervalExpiry h) s = .next (s.modChip h (fun x => { x with driftDue := true }))) ∧
      ((∃ o ∈ (s.chip h).driftWait, o.2.1 = 1) →
        exec (.driftIntervalExpiry h) s = .next (s.modChip h (fun x => { x with driftDue := true }))) ∧
      ((∀ d, (s.chip h).drift = some d → d.kind ≠ 1) → (∀ o ∈ (s.chip h).driftWait, o.2.1 ≠ 1) → ∃ t, exec (.driftIntervalExpiry h) s = .next t ∧
        (t.chip h).nextCol = ((s.chip h).nextCol + 1) % 16 ∧ (t.chip h).driftAt = s.time ∧ t.mem = s.mem))) ∧
  (∀ (s : State) (p q vr : Nat), p < 17408 →
    let h := p / 272
    let c := p % 16
    let t := virtTile h vr c
    s.spareOf h c = some q → s.servesRow p = some vr → (s.chip h).drift = none → (colTiles h c).any s.isCast = false →
    (s.ptile q).st = .spare → (s.ptile p).st = .serving → (s.ctxOfTile t).st = .running → (s.chip h).driftWait = [] →
    (s.ctxOfTile t).fault = false → (s.tile t).ctx.isSome = true →
    ((s.ctxOfTile t).cutting = true ∨ s.fenceDue ≠ [] → ∃ u, exec (.driftRequest p) s = .next u ∧ (u.chip h).drift = none ∧
      (u.chip h).driftWait = [(p, 2, 0)]) ∧
    ((s.ctxOfTile t).cutting = false → s.fenceDue = [] → s.rewrites = [] → ∃ u d, exec (.driftRequest p) s = .next u ∧
      (u.chip h).drift = some d ∧ d.old = p ∧ d.new = q ∧ d.tile = t ∧ d.phase = .drain ∧ d.kind = 2 ∧ d.col = c ∧ d.vr = vr ∧
      (p ≠ q → (u.ptile p).st = .draining ∧ (u.ptile q).reserved = true) ∧ u.cols = s.cols ∧ u.mem = s.mem)) ∧
  ∀ (s : State) (h : Nat) (d : Drift), h < 64 → (s.chip h).drift = some d →
    let v := s.tile d.tile
    let put (e : Option Drift) (u : State) : State := u.modChip h (fun x => { x with drift := e })
    (d.phase = .drain → v.quiet = false → ∃ u, exec (.drainWindowExpiry h) s = .next u ∧ (u.chip h).drift = none ∧
      (d.old ≠ d.new → (u.ptile d.old).st = .serving ∧ (u.ptile d.new).reserved = false ∧
        (d.kind = 3 → (u.ptile d.old).retire = d.reason)) ∧ u.cols = s.cols ∧
      (∀ a, v.worker.phase = .paused a → (u.tile d.tile).worker.phase = .entering a .direct)) ∧
    (d.phase = .drain → v.quiet = true →
      exec (.driftFreeze h) s = .next (put (some { d with phase := .quiesce, since := s.time }) s)) ∧
    (d.phase = .quiesce → s.quiesced d.tile = true → ∃ u, exec (.quiesceComplete h) s = .next u ∧
      (u.chip h).drift = some { d with phase := .copy } ∧ (u.ptile d.old).st = .copying ∧ (u.tile d.tile).worker = v.worker ∧
      (∀ x ∈ v.xfers, x.st = .running → { x with st := .suspended } ∈ (u.tile d.tile).xfers) ∧ u.mem = s.mem) ∧
    (d.phase = .copy → ∃ u, exec (.imageComplete h) s = .next u ∧ (u.chip h).drift = some { d with phase := .remap } ∧
      (u.ptile d.old).st = .remapping ∧ (d.vr < 16 → d.col < 16 →
        (vget 31 (u.colE (16 * h + d.col)) d.vr).toNat = d.new % 272 / 16 ∧
        ∀ k, k < 16 → k ≠ d.vr → vget 31 (u.colE (16 * h + d.col)) k = vget 31 (s.colE (16 * h + d.col)) k) ∧
      (u.tile d.tile).l1 = [] ∧ (u.tile d.tile).icache = [] ∧ (u.tile d.tile).tlb = [] ∧ (u.tile d.tile).worker.watches = [] ∧
      (u.tile d.tile).scrub = [0, 0, 0] ∧ (u.tile d.tile).handles = v.handles ∧ (u.tile d.tile).worker.r = v.worker.r) ∧
    let all : Prop := nRouters ∈ d.applied ∨ nRouters ≤ d.applied.length
    (∀ r, d.phase = .remap → r ≤ nRouters → d.knows r = false → exec (.routerApplyEntry h r) s = .next (put (some { d with
      applied := setIns d.applied r, direct := (d.direct ++ d.held.filter (fun i => !d.knows (s.routerOf i.src) &&
        (r == nRouters || s.routerOf i.src == r))).take 64 }) s)) ∧
    (d.phase = .remap → all → d.held = [] → d.endSent = false → ∃ u, exec (.forwardingEnd h) s = .next u ∧
      (u.chip h).drift = (if d.resumed = true ∧ d.direct = [] then none else some { d with endSent := true }) ∧
      (d.kind ≠ 3 → (u.ptile d.old).st = (if d.kind = 1 then .cooling else .testing)) ∧ u.mem = s.mem) ∧
    (∀ x r, d.phase = .remap → d.held = x :: r → s.landReady x = true → v.seen x = false → x.dst = d.tile →
      exec (.forwardedArrival h) s = .next ((put (some { d with held := r }) s).applyItem x)) ∧
    (∀ x r, d.phase = .remap → d.held = [] → d.endSent = true → d.direct = x :: r → s.landReady x = true → v.seen x = false →
      x.dst = d.tile → exec (.forwardedArrival h) s = .next (((put (some { d with direct := r }) s).applyItem x).driftOver h)) ∧
    (∀ cyc, d.phase = .remap → (s.ptile d.new).power ≠ .busy → exec (.driftResume h cyc) s = .next s) ∧
    (∀ cyc, d.phase = .remap → all → d.resumed = false → (s.ptile d.new).power = .busy → ∃ u, exec (.driftResume h cyc) s = .next u ∧
      (u.chip h).drift = (if d.endSent = true ∧ d.direct = [] then none else some { d with resumed := true }) ∧
        (u.ptile d.new).st = .serving ∧ (u.ptile d.new).reserved = false ∧
        (∀ a, v.worker.phase = .paused a → (u.tile d.tile).worker.phase = .entering a .direct) ∧
        (∀ a, v.feeder.phase = .paused a → (u.tile d.tile).feeder.phase = .entering a .direct) ∧
        (u.tile d.tile).handles = v.handles ∧ u.mem = s.mem ∧ (cyc ≤ 16000 → u.sysLog = s.sysLog))) ∧
  ((∀ (s : State) (p reason : Nat), p < 17408 → 1 ≤ reason → reason ≤ 8 →
    let x := s.ptile p
    let h := p / 272
    let c := p % 16
    ((x.st = .spare ∧ x.reserved = false) ∨ x.st = .testing ∨ x.st = .cooling → ∃ t, exec (.castOff p reason) s = .next t ∧
      (t.ptile p).st = .castOff ∧ (t.chip h).defect.cast.getLsbD (p % 272) = true ∧
      mget 0 (t.chip h).defect.reason (p % 272) = reason ∧ t.mem = s.mem) ∧
    (∀ vr n, x.st = .serving → x.castDue = 0 → (colTiles h c).any s.isCast = true → s.servesRow p = some vr →
      (s.tile (virtTile h vr c)).ctx = some n → (s.ctx n).st = .running → (s.ctx n).cutting = false → (s.ctx n).stopFor = none →
      ∃ t, exec (.castOff p reason) s = .next t ∧ (t.ptile p).castDue = reason ∧ (t.ptile p).st = .serving ∧
        (t.ctx n).st = .stopping) ∧
    (∀ vr n, x.st = .serving → x.castDue = 0 → (colTiles h c).any s.isCast = true → s.servesRow p = some vr →
      (s.tile (virtTile h vr c)).ctx = some n → (s.ctx n).st = .creating ∨ (s.ctx n).st = .restoring →
      ∃ t, exec (.castOff p reason) s = .next t ∧ (t.ptile p).castDue = reason ∧ (t.ctx n).waitSave = true) ∧
    (∀ u, x.st = .serving → (colTiles h c).any s.isCast = false → s.driftOrder p 3 reason = some u →
      exec (.castOff p reason) s = .next u) ∧
    (x.st = .serving → (colTiles h c).any s.isCast = false → s.driftOrder p 3 reason = none →
      exec (.castOff p reason) s = .next (s.setPtile p { x with retire := reason }))) ∧
  (∀ (s : State) (p vr n : Nat), p < 17408 → s.servesRow p = some vr → (s.ptile p).st ≠ .castOff → (s.chip (p / 272)).drift = none →
    (s.tile (virtTile (p / 272) vr (p % 16))).ctx = some n → (s.ctx n).st = .running → ∃ t, exec (.tileHardFailure p) s = .next t ∧
      (t.ctx n).fault = true ∧ t.mem = s.mem ∧
      (t.ptile p).st = .castOff ∧ t.physOf (virtTile (p / 272) vr (p % 16)) = s.spareOf (p / 272) (p % 16) ∧
      (∀ q, s.spareOf (p / 272) (p % 16) = some q → (t.ptile q).st = .serving)) ∧
  (∀ (s : State) (p cyc : Nat) (k : TestPkg) (r : List Byte), p < 17408 → (s.ptile p).st = .testing → (s.ptile p).power = .busy → s.pkg = some k →
    (Config.sha3 r = k.respdig → cyc ≤ k.cycles →
      exec (.testComplete p r cyc) s = .next (s.setPtile p { s.ptile p with st := .spare, testDue := false })) ∧
    (Config.sha3 r ≠ k.respdig ∨ k.cycles < cyc → ∃ t, exec (.testComplete p r cyc) s = .next t ∧ (t.ptile p).st = .castOff ∧
      mget 0 (t.chip (p / 272)).defect.reason (p % 272) = 1)) ∧
  (∀ (s : State) (p : Nat) (tab : List Nat), p < 17408 → s.rewrites = [] →
    let s' := s.setPtile p { s.ptile p with table := some tab }
    (tab.length = 1024 → (∀ e ∈ tab, e ≤ 4) → (∀ d, d < 1024 → s'.routeOk d nHops p false = true ∧ s'.badTurn p d = false) →
      exec (.routingRewrite p tab) s = .next (if s.routerBusy p tab = true then { s with rewrites := [(p, tab)] } else s'.unpark)) ∧
    (tab.length ≠ 1024 ∨ (∃ e ∈ tab, 4 < e) ∨ (∃ d, d < 1024 ∧ (s'.routeOk d nHops p false = false ∨ s'.badTurn p d = true)) →
      exec (.routingRewrite p tab) s = .next s)) ∧
  (∀ (s : State) (l : List Byte), let f (lo n : Nat) : Nat := leNat (l.take 128) / 2 ^ lo % 2 ^ n
    if s.pkgOk l = true then ∃ t, exec (.testPackageInstall l) s = .next t ∧
      t.pkg = some ⟨f 960 32, f 896 32, BitVec.ofNat 512 (f 0 512)⟩ ∧ t.mem = s.mem ∧
      (∀ k, s.pkg = some k → f 960 32 ≤ k.version → t.phys = s.phys)
    else exec (.testPackageInstall l) s = .next s) ∧
  ∀ (s : State) (p b n : Nat), p < 17408 →
    let x := s.ptile p
    ((∀ t, s.virtOf p = some t → (s.tile t).feet = []) →
      exec (.retentionEntry p b) s = .next (s.setPtile p { x with retention := setIns x.retention b })) ∧
    (∀ t, s.virtOf p = some t → (s.tile t).feet ≠ [] → exec (.retentionEntry p b) s = .next s) ∧
    (b ∈ x.retention → exec (.retentionExit p b n) s = .next (s.setPtile p { x with
      retention := setDel x.retention b, errs := (x.errs + n) % 2 ^ 32 })) ∧
    exec (.patrolScrub p n) s = .next (s.setPtile p { x with errs := (x.errs + n) % 2 ^ 32 }))

/-- 16 R265-R272: after its interval, or early where an undo log asks for it, the wave of a RUNNING context begins; where a core
does not pause in the window the wave is retried, and late ones are recorded. At the cut images and kernels are kept, the next
point opens, and the context goes on, or stops where a stop waited; the point of a RUNNING context is sealed with its digest, and
merging frees what lies before it. A reported fault restores the last sealed point: memory gets back the lines written since,
newest first, its tile its image, gated stores of later points are gone; without a point, with an immediate completion released,
or with the selvedge unreadable, the context fails. 16 R273, R274: reading a log gives WIDX, LOST and RIDX, then up to n unread
records, oldest first, and moves RIDX past them. -/
def Obligations.RecoveryEvents : Prop :=
  (∀ (s : State) (n : Nat) (p : RPoint) (r : List RPoint), n < 256 → (s.ctx n).points = p :: r →
    let x := s.ctx n
    let ts := ctxTiles x
    let begun (t : State) : Prop := (t.ctx n).points = { p with st := .cutting } :: r ∧ (t.ctx n).waveRetry = false ∧ t.mem = s.mem
    (x.st = .running → x.fault = false → x.stopOpen = false → p.st = .pending → x.copying = false →
      (x.waveRetry = false → x.early = true ∨ x.resumed + (if x.rpint = 0 then 20 else x.rpint) * 1000000 ≤ s.time →
        ∃ t, exec (.recoveryIntervalExpiry n) s = .next t ∧ begun t) ∧
      (x.waveRetry = true → ∃ t, exec (.waveRetry n) s = .next t ∧ begun t)) ∧
    (p.st = .cutting → s.allQuiet x = false → x.destroyReq = false → x.waitSave = false → x.waitDebug = false →
      ∃ t, exec (.waveWindowExpiry n) s = .next t ∧ t.mem = s.mem ∧
      t.ctx n = { x with points := { p with st := .pending } :: r, waveRetry := true }) ∧
    (x.waveRetry = true → exec (.seallate n) s = .next (s.logSys 0x0021 2 n (detail [(320, p.num % 2 ^ 32)]))) ∧
    (p.st = .cutting → x.fault = false → x.destroyReq = false → (∀ d ∈ ts, s.quiesced d = true ∧ s.driftOf d = none) →
      (∀ i ∈ s.traffic, i.src ∉ ts) → ∃ t, exec (.cut n) s = .next t ∧
      t.mem = s.mem ∧ (t.ctx n).resumed = s.time ∧ (t.ctx n).early = false ∧
      (x.st = .running → x.stopFor = none → x.waitSave = true → (t.ctx n).st = .stopping) ∧
      (t.ctx n).points = ⟨p.num + 1, .pending, 0, [], [], none⟩ :: { p with
        st := .copying, cut := s.time, image := ts.map (fun d => (d, (s.tile d).cutImage)),
        kernels := s.kernels.filter (fun k => k.2.ctx == n) } :: r ∧
      ∀ d ∈ ts, ∀ a, ((s.tile d).worker.phase = .paused a → (t.tile d).worker.phase = .entering a .direct) ∧
        ((s.tile d).feeder.phase = .paused a → (t.tile d).feeder.phase = .entering a .direct)) ∧
    (x.copying = true → x.st ≠ .running → exec (.sealPoint n) s = .next s) ∧
    (x.copying = true → x.fault = false → x.st = .running → ∃ t, exec (.sealPoint n) s = .next t ∧ t.mem = s.mem ∧
      (t.ctx n).points = x.points.map (fun q =>
        if q.st = .copying then { q with st := .sealed, digest := some (Config.sha3 (Config.deltaBytes q.image)) } else q)) ∧
    (∀ m, x.points.reverse.find? (fun q => q.st == .sealed) = some m → ∃ t, exec (.deltaMerge n) s = .next t ∧ t.mem = s.mem ∧
      (t.ctx n).points = (x.points.filter (fun q => decide (m.num ≤ q.num))).map (fun q =>
        if q.num = m.num then { q with st := .merged } else q) ∧
      ∀ h, (t.chip h).undo = (s.chip h).undo.filter (fun u => u.ctx != n || decide (m.num < u.epoch))) ∧
    (x.fault = true → x.destroyReq = false → (∀ d ∈ ts, s.driftOf d = none) → (∀ h ∈ ctxChips x, (s.chip h).failWait = []) →
      (x.st = .running → (∀ q ∈ x.points, q.st ≠ .sealed ∧ q.st ≠ .merged) → ∃ t, exec (.rollback n) s = .next t ∧
        (t.ctx n).st = .failed ∧ (t.ctx n).fault = false) ∧
      (∀ m e, x.st = .running → x.points.find? (fun q => q.st == .sealed || q.st == .merged) = some m →
        x.immEpoch = some e → m.num < e → ∃ t, exec (.rollback n) s = .next t ∧ (t.ctx n).st = .failed) ∧
      (∀ m, x.st = .running → x.points.find? (fun q => q.st == .sealed || q.st == .merged) = some m →
        (∀ e, x.immEpoch = some e → e ≤ m.num) → x.lostPoints = true ∨ (∃ d ∈ ts, s.physOf d = none) →
        ∃ t, exec (.rollback n) s = .next t ∧ (t.ctx n).st = .failed) ∧
      (∀ m, x.st = .running → x.points.find? (fun q => q.st == .sealed || q.st == .merged) = some m →
        (∀ e, x.immEpoch = some e → e ≤ m.num) → (∀ d ∈ ts, (s.physOf d).isSome = true) → (∀ e ∈ s.queues, e.2.ctxn ≠ n) →
        x.lostPoints = false → x.waitSave = false → x.waitDebug = false → ∃ t, exec (.rollback n) s = .next t ∧ (t.ctx n).st = .running ∧ (t.ctx n).fault = false ∧ (t.ctx n).resumed = s.time ∧
          t.mem = (s.chips.flatMap (fun h => h.2.undo.filter (fun u => u.ctx == n && decide (m.num < u.epoch)))).foldl
            (fun k u => memWriteN k (256 * u.line) u.old) s.mem ∧
          (∀ h, (t.chip h).gate = (s.chip h).gate.filter (fun g => g.ctx != n || decide (g.tag ≤ m.num))) ∧
          (∀ d v, m.image = [(d, v)] → t.tile d = v.fromImage) ∧
          (∃ q, (t.ctx n).points = q :: x.points.filter (fun q => decide (q.num ≤ m.num)) ∧ q.num = m.num + 1 ∧ q.st = .pending)))) ∧
  (∀ (s : State) (k n : Nat), k < 257 →
    let l := if k = 256 then s.sysLog else (s.ctx k).log
    let rs := ((l.recs.take (l.widx - l.ridx)).reverse).take n
    let l' : Log := { l with ridx := l.ridx + rs.length, dirty := true }
    ∃ t, exec (.logRead k n) s = .next t ∧ t.mem = s.mem ∧
      t.reply = [BitVec.ofNat 64 l.widx, BitVec.ofNat 64 l.lost, BitVec.ofNat 64 l.ridx] ++ rs.flatMap LogRec.words ∧
      (if k = 256 then t.sysLog = l' ∧ t.ctxs = s.ctxs else t.sysLog = s.sysLog ∧ (t.ctx k).log = l'))

/-- 17 R277-R280: a link that has trained is UP at its full width, a host or scale-up link DEGRADED at the lesser widths that R278
lists, one below them FENCED; a lost lane and, a second later, a timer retrain it, a request trains a FENCED one again; both
directions of a die-to-die edge follow. The flit on the wire is delivered when it is whole and the next in sequence, and goes on
to the next link of its way; one delivered before is dropped; a broken one, or one out of sequence, asks for replay. Around a
FENCED edge the tables are rewritten, where some lead around it, once what was sent is acknowledged, and what it held goes on;
else the contexts of both its chiplets are stopped for a save, once they run. A store to a host port in TRAINING waits, one to a
FENCED port writes nothing. The numbers of the links are the model's (log 15). 17 R282-R284; 09 R168, R179: a good flit of a
connection acknowledges what was sent before; a data flit in sequence is performed, the old value of an add going back in a data
flit, or refused by a flit of our own, and one out of sequence is dropped; a refusal is kept; each is acknowledged. A connection
whose port is FENCED, or whose flits stay unacknowledged for 50 µs, moves to another port to its peer, and is recorded as lost
every 100 ms while there is none. 07 R148; 17 R281; 18 R296; 06 R426: a posted write through BAR2 is a write of the context of its
port's aperture; one that faults changes no byte there, and one that meets a BUSY entry is kept and made later, with those behind
it. A read gives the bytes as words, or nothing where the aperture is not set; the boot status word can be read at once. An atomic
of an aligned word answers with the old word: FetchAdd adds, CAS writes where the word equals. A request through BAR0 is the next
thing that happens; a context record and a queue descriptor are read through it. -/
def Obligations.LinkAndPortEvents : Prop :=
  ((∀ (s : State) (l n : Nat), l < 324 →
    let x := s.link l
    let now (t : State) (st : LinkSt) (k : Nat) : Prop := (∀ e ∈ linkEnds l, (t.link e).st = st ∧ (t.link e).lanes = k) ∧
      (∀ e, e ∉ linkEnds l → t.link e = s.link e) ∧ (s.outbox = [] → t.mem = s.mem)
    let items (t : State) := t.net.map (fun i => (i.src, i.dst, i.cls, i.seq, i.c, i.id, i.body))
    (l < 256 → ∀ b, acrossOf l = some b → linkEnds l = [l, 4 * b + (l % 4 + 2) % 4]) ∧
    (x.st = .training ∨ x.st = .retraining →
      (l < 256 → n = 16 → ∃ t, exec (.linkTrained l n) s = .next t ∧ now t .up 16) ∧
      (l < 256 → n ≠ 16 → 8 ≤ n % 32 + n / 32 → n % 32 + n / 32 ≤ 16 → ∃ t, exec (.linkTrained l n) s = .next t ∧ now t .degraded n) ∧
      (l < 256 → n ≠ 16 → n % 32 + n / 32 < 8 ∨ 16 < n % 32 + n / 32 → ∃ t, exec (.linkTrained l n) s = .next t ∧ t.mem = s.mem ∧
        (∀ e, (t.link e).st = if e ∈ linkEnds l then .fenced else (s.link e).st) ∧ items t = items s ∧
        ((s.linkSt l .fenced 0).tableExists = true → s.fenceDue = [] →
          (s.chips.any (fun h => h.2.drift.isSome) = false → s.traffic.any (s.underWay (linkEnds l)) = false →
            t.fenceDue = [] ∧ t.detour = some (t.closedEdges, t.deadRouters) ∧ ∀ p, (t.ptile p).table = none) ∧
          (s.traffic.any (s.underWay (linkEnds l)) = true → t.fenceDue = [l] ∧ t.net = s.net ∧ t.phys = s.phys)) ∧
        ((s.linkSt l .fenced 0).tableExists = false → t.net = s.net ∧ ∀ c, mfind s.ctxs c ≠ none → (s.ctx c).resident = true →
          l / 4 ∈ ctxChips (s.ctx c) →
          ((s.ctx c).st = .running → (s.ctx c).cutting = false → (s.ctx c).stopFor = none → (t.ctx c).st = .stopping) ∧
          ((s.ctx c).st = .creating ∨ (s.ctx c).st = .restoring → (t.ctx c).waitSave = true))) ∧
      (256 ≤ l → l < 260 → ∃ t, exec (.linkTrained l n) s = .next t ∧ (16 ≤ n → now t .up 16) ∧ (8 ≤ n → n < 16 → now t .degraded 8) ∧
        (4 ≤ n → n < 8 → now t .degraded 4) ∧ (n < 4 → now t .fenced 0)) ∧
      (260 ≤ l → ∃ t, exec (.linkTrained l n) s = .next t ∧ (8 ≤ n → now t .up 8) ∧ (4 ≤ n → n < 8 → now t .degraded 4) ∧
        (n < 4 → now t .fenced 0))) ∧
    (x.st = .up ∨ x.st = .degraded → ∃ t, exec (.laneLost l) s = .next t ∧ now t .retraining x.lanes) ∧
    (x.st = .degraded → ∃ t, exec (.linkTrainRequest l) s = .next t ∧ now t .retraining x.lanes ∧
      exec (.retrainTimer l) s = .next (if x.since + 1000000000 ≤ s.time then t else s)) ∧
    (x.st = .fenced → ∃ t, exec (.linkTrainRequest l) s = .next t ∧ now t .training 0) ∧
    (x.carries = false ∨ x.wire = x.tx → ∀ good, exec (.flitReceive l good) s = .next s) ∧
    (x.carries = true → x.wire ≠ x.tx →
      (exec (.flitReceive l false) s = .next (s.setLink l { x with wire := x.rx })) ∧
      (x.rx < x.wire → exec (.flitReceive l true) s = .next (s.setLink l { x with wire := x.rx })) ∧
      (x.wire < x.rx → exec (.flitReceive l true) s = .next (s.setLink l { x with wire := x.wire + 1, acked := x.rx })) ∧
      (∀ a i r, x.wire = x.rx → s.net = a ++ i :: r → i.flit = some (l, x.rx) → (∀ j ∈ a, j.flit ≠ some (l, x.rx)) →
        ∃ t j, exec (.flitReceive l true) s = .next t ∧ t.net = a ++ j :: r ∧ items t = items s ∧ t.mem = s.mem ∧
          (t.link l).rx = x.rx + 1 ∧ (t.link l).wire = x.rx + 1 ∧ (t.link l).acked = x.rx ∧
          (s.wayHeld (destCol i.dst) i.hop = false → s.crossings (destCol i.dst) i.hop = [] → j.flit = none ∧ j.parked = false) ∧
          (s.wayHeld (destCol i.dst) i.hop = true → j.flit = none ∧ j.parked = true)))) ∧
  ∀ (s : State) (n pa : Nat) (b : Byte),
    (s.portIn .training n pa = none ∨ s.put n [(pa, b)] = { s with outbox := s.outbox ++ [(n, [(pa, b)])] }) ∧
    (s.portIn .fenced n pa = none ∨ (s.put n [(pa, b)]).mem = s.mem)) ∧
  ((∀ (s : State) (port ty k : Nat) (l : List Byte) (c : Conn), port < 64 → (s.link (260 + port)).carries = true → flitGood l = true →
    flitF l 120 8 = ty → flitF l 88 16 = Config.selfPeer % 2 ^ 16 → flitF l 80 8 = k → mfind s.conns k = some c →
    c.peer = flitF l 104 16 →
    let d := ({ c with port := port } : Conn).ackTo (flitF l 32 24) s.time
    let seq := flitF l 56 24
    (ty = 1 → exec (.peerAckFlit port l) s = .next (s.setConn k d)) ∧
    (ty = 3 → exec (.peerKeepAlive port l) s = .next (s.setConn k d)) ∧
    (ty = 2 → seq = c.rx → exec (.peerRefusalFlit port l) s = .next (s.setConn k (({ c with
      port := port, rx := (c.rx + 1) % 2 ^ 24, refusal := some (flitF l 32 24, flitF l 16 8) } : Conn).reply k))) ∧
    (ty = 0 → seq ≠ c.rx → exec (.peerDataFlit port l) s = .next (s.setConn k (d.reply k))) ∧
    (∀ s' a code old, ty = 0 → seq = c.rx →
      s.peerDo k c.peer (Config.peerWrite ((l.drop 16).take (16 * min (flitF l 24 8) 14))) = (s', a, code, old) → a ≠ .wait →
      ∃ t e, exec (.peerDataFlit port l) s = .next t ∧ mfind t.conns k = some e ∧ e.rx = (c.rx + 1) % 2 ^ 24 ∧ t.mem = s'.mem ∧
        e.ack = mkFlit 1 c.peer k e.tx e.rx 0 [] ∧
        (code = 0 → old = none → e.unacked = d.unacked ∧ e.tx = d.tx) ∧
        (∀ v, code = 0 → old = some v → e.tx = (d.tx + 1) % 2 ^ 24 ∧
          e.unacked = d.unacked ++ [(d.tx, mkFlit 0 c.peer k d.tx ((seq + 1) % 2 ^ 24) 0 (Config.peerOld seq v))]) ∧
        (code ≠ 0 → e.tx = (d.tx + 1) % 2 ^ 24 ∧ e.unacked = d.unacked ++ [(d.tx, mkFlit 2 c.peer k d.tx seq code [])]))) ∧
  (∀ (s : State) (k peer : Nat) (u : Queue) (q off : Nat) (add : Bool) (data : List Byte), mfind s.queues q = some u →
    let l := if add then data.take 8 else data
    (s.peerCode peer q off l.length add ≠ 0 → (s.peerDo k peer (q, off, add, data)).1.mem = s.mem ∧
      (s.peerDo k peer (q, off, add, data)).2.2.1 = s.peerCode peer q off l.length add) ∧
    (∀ s1 s2 o, s.peerCode peer q off l.length add = 0 → add = true →
      s.sysRead u.ctxn (s.queueHome u) (46000 + k) u.base 8 = (s1, .ok, o) →
      s1.sysWrite u.ctxn (s.queueHome u) (46000 + k) ⟨true, true, false, false⟩ u.base (natBytes 8 (leNat o + leNat l)) = (s2, .ok) →
      s.peerDo k peer (q, off, add, data) = (s2, .ok, 0, some (BitVec.ofNat 64 (leNat o)))) ∧
    (s.aclFor peer q = none → s.peerCode peer q off data.length add = 1)) ∧
  ∀ (s : State) (k : Nat) (c : Conn), k < 256 → mfind s.conns k = some c →
    let late := (s.link (260 + c.port)).st = .fenced ∨ (c.unacked ≠ [] ∧ c.since + 50000 ≤ s.time)
    (late → exec (.connectionTimeout k) s = .next (match s.otherPort c with
      | some p => s.setConn k { c with port := p, since := s.time, lost := none }
      | none => s)) ∧
    (¬ late → exec (.connectionTimeout k) s = .next s) ∧
    (late ∨ (s.link (260 + c.port)).carries = false → s.otherPort c = none → (∀ t, c.lost = some t → t + 100000000 ≤ s.time) →
      exec (.peerlost k) s = .next ((s.setConn k { c with lost := some s.time }).logSys 0x0025 5 0 (detail [(344, k)]))) ∧
    (∀ t, c.lost = some t → s.time < t + 100000000 → exec (.peerlost k) s = .next s)) ∧
  (∀ (s s' : State) (port addr n base : Nat) (data : List Byte), port < 4 →
    (exec (.hostRead port 0 0 8) s = .next { s with reply := [BitVec.ofNat 64 (s.boot.step % 16 + (if s.boot.fail then 16 else 0) +
      s.chips.countP (·.2.ready) % 256 * 256)] }) ∧
    ((s.link (256 + port)).carries = true →
      let ch := portChip port
      let va := (base + addr % 2 ^ 33) % 2 ^ 53
      (data ≠ [] → data.length ≤ 4096 → match Config.bar0 addr (some data) with
        | some (.request i) => if isService i = true then
            exec (.hostPostedWrite port 0 addr data) s = .next { s with agenda := .event i :: s.agenda } else True
        | _ => True) ∧
      (mfind s.bar2 (8 * port + addr / 2 ^ 33) = none ∨ 2 ^ 36 ≤ addr → s.postedWait port = false →
        exec (.hostRead port 2 addr 8) s = .next { s with reply := [] } ∧
        (data ≠ [] → data.length ≤ 4096 → exec (.hostPostedWrite port 2 addr data) s = .next s)) ∧
      (addr ≠ 0 → s.postedWait port = false → match Config.bar0 addr none with
        | some (.context m) => exec (.hostRead port 0 addr 64) s = .next { s with reply := wordsOfNat 8 ((s.ctx m).bits m) }
        | some (.queue m) => exec (.hostRead port 0 addr 16) s = .next { s with reply := wordsOfNat 2 (((mfind s.queues m).map Queue.bits).getD 0) }
        | _ => True) ∧
      (addr < 2 ^ 36 → mfind s.bar2 (8 * port + addr / 2 ^ 33) = some (n, base) → s.postedWait port = true → data ≠ [] → data.length ≤ 4096 →
        exec (.hostPostedWrite port 2 addr data) s = .next { s with posted := s.posted ++ [⟨port, 2, 0, n, va, data⟩] }) ∧
      (addr < 2 ^ 36 → mfind s.bar2 (8 * port + addr / 2 ^ 33) = some (n, base) → s.postedWait port = false →
        (∀ a, data ≠ [] → data.length ≤ 4096 → s.portWrite n ch (45000 + port) ⟨false, true, false, false⟩ va data = (s', a) →
          (a = .ok → exec (.hostPostedWrite port 2 addr data) s = .next s') ∧
          (a = .wait → exec (.hostPostedWrite port 2 addr data) s =
            .next { s' with posted := s'.posted ++ [⟨port, 2, 0, n, va, data⟩] })) ∧
        (∀ k l, 0 < k → k ≤ 4096 → s.portRead n ch (45000 + port) va k = (s', .ok, l) →
          exec (.hostRead port 2 addr k) s = .next { s' with reply := wordsOf8 512 l }) ∧
        (∀ s1 l op x y, addr % 8 = 0 → va % 8 = 0 → op ≤ 1 → s.sysRead n ch (45000 + port) va 8 = (s1, .ok, l) →
          let old : W64 := BitVec.ofNat 64 (leNat l)
          let new := if op = 0 then old + x else if old = y then x else old
          s1.sysWrite n ch (45000 + port) ⟨true, true, false, false⟩ va (natBytes 8 new.toNat) = (s', .ok) →
          exec (.hostAtomicop port 2 addr op x y) s = .next { s' with reply := [old] }))))

/-- 18 R286-R295: the integrators take a sample; at a tick the clock falls by 100 MHz while it is above SET, or while an
integrator is over its limit, CAPL rising once the clock is at 900; SET is written within 900-2,200, rounded down. The fourth
sense sample in a row that is more than 50 mV low is a droop, a reported fault, on a chiplet of no context logged only. The gust
state goes from NOTIFIED to READY after 2 µs and to QUIET after 100 µs without a cause. A sample of the sensors sets HOT and TMAX
and, at the threshold of an enabled alert, PEND. A tile that is idle holds, also a physical one that serves no row, is gated after
20 µs, is queued by a wake cause, admitted with at most eight a microsecond, and awake 1.4 µs later. 18 R296-R299; 22 R390; 16
R262, R264; 15 R247: power-on puts everything at reset but what is persistent. An image that the ROM accepts is measured and its
firmware released at its entry, any other sets BOOTFAIL, and ten seconds later it is fetched again. A controller of a chiplet
whose links are trained and that has no cast-off tile, once ready, has given its columns their reset entries, taken its range of
memory, and set its supply. A running management core answers an attestation with the signed report. A halted core is released
again at its entry. -/
def Obligations.PowerAndStartUpEvents : Prop :=
  ((∀ (s : State) (h w : Nat), h < 64 →
    let p := (s.chip h).pw
    let set' (f : PowerBlk) : State := s.modChip h (fun x => { x with pw := f })
    (exec (.powerSample h w) s = .next (set' { p with integ := p.integ.add w })) ∧
    (exec (.powerSample 64 w) s = .next { s with panel := { s.panel with integ := s.panel.integ.add w } }) ∧
    (exec (.freqSetWrite h w) s = .next (set' { p with set := if 900 ≤ w ∧ w ≤ 2200 then w / 100 * 100 else p.set })) ∧
    (p.set < p.act → ∃ t, exec (.capTick h) s = .next t ∧ (t.chip h).pw.act = p.act - 100 ∧
      (t.chip h).pw.setmv = setpoint h (p.act - 100) ∧ (t.chip h).pw.tick = p.tick + 1) ∧
    (p.act ≤ p.set → (p.pklim < p.integ.pk ∨ p.avglim < p.integ.avg ∨ s.panel.pklim < s.panel.integ.pk ∨
        s.panel.avglim < s.panel.integ.avg) → ∃ t, exec (.capTick h) s = .next t ∧
      (900 < p.act → (t.chip h).pw.act = p.act - 100 ∧ (t.chip h).pw.capl = p.capl) ∧
      (p.act ≤ 900 → p.capl < 7 → (t.chip h).pw.act = p.act ∧ (t.chip h).pw.capl = p.capl + 1)) ∧
    (exec (.regulatorRecalibration h) s = .next s) ∧
    (w + 50 < p.setmv → p.low = 3 → ∀ n, (s.ctx n).resident = true → h ∈ ctxChips (s.ctx n) → (s.ctx n).st = .running →
      mfind s.ctxs n ≠ none → ∃ t, exec (.senseSample h w) s = .next t ∧ (t.ctx n).fault = true ∧ (t.chip h).pw.mv = w % 1024 ∧
        (t.chip h).pw.low = 0) ∧
    (w + 50 < p.setmv → p.low = 3 → (∀ e ∈ s.ctxs, h ∉ ctxChips e.2) → ∃ t, exec (.senseSample h w) s = .next t ∧ t.ctxs = s.ctxs ∧
      t.mem = s.mem ∧ 
      t.sysLog = logAdd 65535 s.sysLog (Config.freeFault h).1 0 2 0 s.time (Config.freeFault h).2 0) ∧
    (p.setmv ≤ w + 50 → exec (.senseSample h w) s = .next (set' { p with mv := w % 1024, low := 0 })) ∧
    (p.gust = .notified → p.gustAt + 2000 ≤ s.time →
      exec (.gustAcknowledge h) s = .next (set' { p with gust := .ready, gustAt := s.time })) ∧
    (p.gust = .ready → p.gustAt + 100000 ≤ s.time → exec (.gustSettle h) s = .next (set' { p with gust := .quiet })) ∧
    ((∀ q, q < 272 → (s.ptile (272 * h + q)).st = .serving → (s.ptile (272 * h + q)).temp < 1680) → p.trip = false →
      exec (.thermalLevelDecay h) s = .next (set' { p with thl := p.thl - 1 })) ∧
    (exec (.alertClear h) s = .next (set' { p with pend := false })) ∧
    ((∀ q, q < 272 → (s.ptile (272 * h + q)).temp < 1680) → p.trip = false → ∃ t, exec (.thermalSample h []) s = .next t ∧
      (t.chip h).pw.tmax = (s.ptile (272 * h + (t.chip h).pw.hot)).temp ∧
      (∀ q, q < 272 → (s.ptile (272 * h + q)).temp ≤ (t.chip h).pw.tmax) ∧
      (t.chip h).pw.pend = (p.pend || (p.en && decide (p.thresh.toInt ≤ (t.chip h).pw.tmax))) ∧ t.mem = s.mem) ∧
    (∀ q v, q < 272 → v < 1680 → (∀ k, k < 272 → k ≠ q → (s.ptile (272 * h + k)).temp < 1680) → p.trip = false →
      ∃ t, exec (.thermalSample h [(q, v)]) s = .next t ∧ (t.ptile (272 * h + q)).temp = v ∧ t.mem = s.mem ∧
        ∀ k, k < 272 → k ≠ q → t.ptile (272 * h + k) = s.ptile (272 * h + k))) ∧
  (∀ (s : State) (d : Nat), d < 16384 →
    let v := s.tile d
    let power (x : TPower) : State := s.setTile d { v with power := x }
    (v.power = .busy → s.tileIdle d = true → (s.chip (chipOf d)).pw.gen = true →
      exec (.tileHold d) s = .next (power (.hold s.time))) ∧
    (∀ a, v.power = .hold a → s.tileIdle d = true → a + 20000 ≤ s.time → exec (.tileGate d) s = .next (power .gated)) ∧
    (∀ a, v.power = .hold a → exec (.wakeCause d) s = .next (power .busy)) ∧
    (v.power = .gated → exec (.wakeCause d) s = .next ((power .queued).modChip (chipOf d) (fun x =>
      { x with inrush := x.inrush ++ [d] }))) ∧
    (∀ a, v.power = .waking a → a + 1400 ≤ s.time → exec (.wakeComplete d) s = .next (power .busy))) ∧
  (∀ (s : State) (p : Nat), p < 17408 →
    let x := s.ptile p
    let power (w : TPower) : State := s.setPtile p { x with power := w }
    (x.power = .busy → x.idle = true → (s.chip (p / 272)).pw.gen = true → exec (.tileHold (16384 + p)) s = .next (power (.hold s.time))) ∧
    (∀ a, x.power = .hold a → x.idle = true → a + 20000 ≤ s.time → exec (.tileGate (16384 + p)) s = .next (power .gated)) ∧
    (∀ a, x.power = .hold a → exec (.wakeCause (16384 + p)) s = .next (power .busy))) ∧
  ∀ (s : State) (h : Nat), h < 64 →
    let x := s.chip h
    let used := if x.admitted.1 = s.time / 1000 then x.admitted.2 else 0
    ∃ t, exec (.inrushAdmit h) s = .next t ∧ (t.chip h).inrush = x.inrush.drop (8 - used) ∧
      (∀ d ∈ x.inrush.take (8 - used), t.powerOf d = .waking s.time) ∧ (∀ d, d ∉ x.inrush.take (8 - used) → t.powerOf d = s.powerOf d) ∧
      (∀ d, d ∉ x.inrush.take (8 - used) → t.tile d = s.tile d) ∧ t.mem = s.mem) ∧
  ((∀ s : State, ∃ t, exec .powerOnReset s = .next t ∧ t.cur = .mgmt 0 0 ∧ t.agenda = s.agenda ∧ t.time = 0 ∧ t.mem = [] ∧ t.tiles = [] ∧
    t.ctxs = [] ∧ t.queues = [] ∧ t.net = [] ∧ t.boot = State.reset.boot ∧ t.pkg = s.pkg ∧
    (∀ h, (t.chip h).defect = (s.chip h).defect ∧ (t.chip h).ready = false ∧ (t.chip h).gate = []) ∧
    ∀ p, (t.ptile p).age = (s.ptile p).age ∧ (t.ptile p).errs = (s.ptile p).errs ∧
      ((s.ptile p).st = .castOff → (t.ptile p).st = .castOff)) ∧
  (∀ (s : State) (l : List Byte), s.boot.step = 1 ∨ s.boot.step = 2 →
    let n := leNat (l.take 128) / 2 ^ 928 % 2 ^ 32
    if imageOk l = true then ∃ t, exec (.bootImageFetched l) s = .next t ∧ t.boot.step = 5 ∧ t.boot.body = (l.drop 128).take n ∧
      t.boot.meas = extend (extend s.boot.meas (Config.sha3 (l.take (128 + n)))) (Config.sha3 ((l.drop (128 + n)).take 2592)) ∧
      (∀ io k, io < 4 → k < 4 → (t.core (.mgmt io k)).phase =
        .entering (BitVec.ofNat 64 (leNat (l.take 128) / 2 ^ 896 % 2 ^ 32)) .start) ∧
      ∀ h, h < 64 → (t.core (.sys h 0)).phase = .entering (BitVec.ofNat 64 (65536 + leNat (l.take 128) / 2 ^ 864 % 2 ^ 32)) .start
    else exec (.bootImageFetched l) s = .next { s with boot := { s.boot with step := 3, fail := true, failAt := s.time } }) ∧
  (∀ s : State, s.boot.step = 3 → s.boot.fail = true →
    exec .bootRetry s = .next (if s.boot.failAt + 10000000000 ≤ s.time then { s with boot := { s.boot with step := 2 } } else s)) ∧
  (∀ (s : State) (h : Nat) (r : List (Nat × Nat × Nat)), h < 64 → s.linksDone h = false → exec (.controllerReady h r) s = .next s) ∧
  (∀ (s : State) (h : Nat) (r : List (Nat × Nat × Nat)), h < 64 → s.boot.step = 5 → (s.chip h).ready = false → s.linksDone h = true →
    (∀ q, q < 272 → (s.chip h).defect.cast.getLsbD q = false) → ∃ t, exec (.controllerReady h r) s = .next t ∧
      (t.chip h).ready = true ∧ (t.chip h).pw.setmv = setpoint h (s.chip h).pw.act ∧ t.mem = s.mem ∧
      (∀ c k, c < 16 → k < 16 → (vget 31 (t.colE (16 * h + c)) k).toNat = k) ∧
      (∀ c, c < 16 → (t.ptile (272 * h + 256 + c)).st = .spare ∧ ∀ k, k < 16 → (t.ptile (272 * h + 16 * k + c)).st = .serving) ∧
      (∀ a n, r = [(a, n, h / 2)] → 0 < n → a % 256 = 0 → n % 256 = 0 → (∀ m ∈ s.memMap, overlap m.base m.len a n = false) →
        ((s.memMap.filter (fun m => m.quad == h / 2)).map (·.len)).foldl (· + ·) n ≤ Config.quadBytes →
        t.memMap = s.memMap ++ [⟨a, n, h / 2⟩])) ∧
  (∀ (s : State) (io k : Nat) (nonce : BitVec 512), io < 4 → k < 4 → (s.core (.mgmt io k)).phase ≠ .halted →
    (s.core (.mgmt io k)).phase ≠ .unloaded →
    let r := natBytes 128 Config.identity.toNat ++ natBytes 64 s.boot.meas.toNat ++ natBytes 64 nonce.toNat ++ natBytes 8 s.time ++
      (rangeFrom 0 64).flatMap (fun h => natBytes 34 (s.chip h).defect.cast.toNat)
    exec (.attestationRequest io k nonce) s = .next { s with reply := wordsOf8 2048 (r ++ Config.mldsaSign (Config.sha3 r)) }) ∧
  ∀ (s : State) (c : CoreRef), coreExists c = true → kindOf c = .sysm → s.boot.step = 5 →
    (s.core c).phase = .halted ∨ (s.core c).phase = .unloaded → ∃ t, exec (.firmwareReload c) s = .next t ∧ t.mem = s.mem ∧
      t.core c = Core.init (.entering (BitVec.ofNat 64 (s.entryOf c)) .start))
end

