-- ==== Sys2Proof/Laws/State.lean ====
section
/-! SUPPORT. Small laws of the state: sparse tables read back what was put, each update of one component leaves every other
field as it is, and a core reads back what was set. -/

namespace Sys2Proof.Machine

/-! ### Sparse tables -/

@[simp] theorem mfind_mput_self {α : Type} (m : SMap α) (k : Nat) (x : α) : mfind (mput m k x) k = some x := by
  induction m with
  | nil => simp [mput, mfind]
  | cons e r ih =>
    obtain ⟨a, y⟩ := e
    simp only [mput]
    split
    · simp [mfind]
    · split
      · simp [mfind]
      · rename_i h; simp [mfind, h, ih]

theorem mfind_mput_ne {α : Type} (m : SMap α) {k j : Nat} (x : α) (h : j ≠ k) : mfind (mput m k x) j = mfind m j := by
  induction m with
  | nil => simp [mput, mfind, Ne.symm h]
  | cons e r ih =>
    obtain ⟨a, y⟩ := e
    simp only [mput]
    split
    · simp [mfind, Ne.symm h]
    · split
      · rename_i h'; subst h'; simp [mfind, Ne.symm h]
      · simp [mfind, ih]

@[simp] theorem mget_mput_self {α : Type} (d : α) (m : SMap α) (k : Nat) (x : α) : mget d (mput m k x) k = x := by
  simp [mget]

theorem mget_mput_ne {α : Type} (d : α) (m : SMap α) {k j : Nat} (x : α) (h : j ≠ k) :
    mget d (mput m k x) j = mget d m j := by simp [mget, mfind_mput_ne m x h]

@[simp] theorem mput_mput {α : Type} (m : SMap α) (k : Nat) (x y : α) : mput (mput m k x) k y = mput m k y := by
  induction m with
  | nil => simp [mput]
  | cons e r ih =>
    obtain ⟨a, z⟩ := e
    by_cases h : k < a
    · simp [mput, h]
    · by_cases h' : a = k
      · subst h'; simp [mput]
      · simp [mput, h, h', ih]

/-! ### One lemma per field per update -/

/-! #### setTile -/

@[simp] theorem State.setTile_cur (s : State) (t : Nat) (x : VTile) : (s.setTile t x).cur = s.cur := rfl
@[simp] theorem State.setTile_agenda (s : State) (t : Nat) (x : VTile) : (s.setTile t x).agenda = s.agenda := rfl
@[simp] theorem State.setTile_time (s : State) (t : Nat) (x : VTile) : (s.setTile t x).time = s.time := rfl
@[simp] theorem State.setTile_fences (s : State) (t : Nat) (x : VTile) : (s.setTile t x).fences = s.fences := rfl
@[simp] theorem State.setTile_mem (s : State) (t : Nat) (x : VTile) : (s.setTile t x).mem = s.mem := rfl
@[simp] theorem State.setTile_phys (s : State) (t : Nat) (x : VTile) : (s.setTile t x).phys = s.phys := rfl
@[simp] theorem State.setTile_chips (s : State) (t : Nat) (x : VTile) : (s.setTile t x).chips = s.chips := rfl
@[simp] theorem State.setTile_mgmts (s : State) (t : Nat) (x : VTile) : (s.setTile t x).mgmts = s.mgmts := rfl
@[simp] theorem State.setTile_mgmtMem (s : State) (t : Nat) (x : VTile) : (s.setTile t x).mgmtMem = s.mgmtMem := rfl
@[simp] theorem State.setTile_cols (s : State) (t : Nat) (x : VTile) : (s.setTile t x).cols = s.cols := rfl
@[simp] theorem State.setTile_ctxs (s : State) (t : Nat) (x : VTile) : (s.setTile t x).ctxs = s.ctxs := rfl
@[simp] theorem State.setTile_queues (s : State) (t : Nat) (x : VTile) : (s.setTile t x).queues = s.queues := rfl
@[simp] theorem State.setTile_kernels (s : State) (t : Nat) (x : VTile) : (s.setTile t x).kernels = s.kernels := rfl
@[simp] theorem State.setTile_nextKern (s : State) (t : Nat) (x : VTile) : (s.setTile t x).nextKern = s.nextKern := rfl
@[simp] theorem State.setTile_net (s : State) (t : Nat) (x : VTile) : (s.setTile t x).net = s.net := rfl
@[simp] theorem State.setTile_kicks (s : State) (t : Nat) (x : VTile) : (s.setTile t x).kicks = s.kicks := rfl
@[simp] theorem State.setTile_pins (s : State) (t : Nat) (x : VTile) : (s.setTile t x).pins = s.pins := rfl
@[simp] theorem State.setTile_memMap (s : State) (t : Nat) (x : VTile) : (s.setTile t x).memMap = s.memMap := rfl
@[simp] theorem State.setTile_hbm (s : State) (t : Nat) (x : VTile) : (s.setTile t x).hbm = s.hbm := rfl
@[simp] theorem State.setTile_withheld (s : State) (t : Nat) (x : VTile) : (s.setTile t x).withheld = s.withheld := rfl
@[simp] theorem State.setTile_acl (s : State) (t : Nat) (x : VTile) : (s.setTile t x).acl = s.acl := rfl
@[simp] theorem State.setTile_bar2 (s : State) (t : Nat) (x : VTile) : (s.setTile t x).bar2 = s.bar2 := rfl
@[simp] theorem State.setTile_busy (s : State) (t : Nat) (x : VTile) : (s.setTile t x).busy = s.busy := rfl
@[simp] theorem State.setTile_posted (s : State) (t : Nat) (x : VTile) : (s.setTile t x).posted = s.posted := rfl
@[simp] theorem State.setTile_rewrites (s : State) (t : Nat) (x : VTile) : (s.setTile t x).rewrites = s.rewrites := rfl
@[simp] theorem State.setTile_detour (s : State) (t : Nat) (x : VTile) : (s.setTile t x).detour = s.detour := rfl
@[simp] theorem State.setTile_fenceDue (s : State) (t : Nat) (x : VTile) : (s.setTile t x).fenceDue = s.fenceDue := rfl
@[simp] theorem State.setTile_outbox (s : State) (t : Nat) (x : VTile) : (s.setTile t x).outbox = s.outbox := rfl
@[simp] theorem State.setTile_lag (s : State) (t : Nat) (x : VTile) : (s.setTile t x).lag = s.lag := rfl
@[simp] theorem State.setTile_dequeues (s : State) (t : Nat) (x : VTile) : (s.setTile t x).dequeues = s.dequeues := rfl
@[simp] theorem State.setTile_ageRule (s : State) (t : Nat) (x : VTile) : (s.setTile t x).ageRule = s.ageRule := rfl
@[simp] theorem State.setTile_links (s : State) (t : Nat) (x : VTile) : (s.setTile t x).links = s.links := rfl
@[simp] theorem State.setTile_conns (s : State) (t : Nat) (x : VTile) : (s.setTile t x).conns = s.conns := rfl
@[simp] theorem State.setTile_pkg (s : State) (t : Nat) (x : VTile) : (s.setTile t x).pkg = s.pkg := rfl
@[simp] theorem State.setTile_sysLog (s : State) (t : Nat) (x : VTile) : (s.setTile t x).sysLog = s.sysLog := rfl
@[simp] theorem State.setTile_boot (s : State) (t : Nat) (x : VTile) : (s.setTile t x).boot = s.boot := rfl
@[simp] theorem State.setTile_panel (s : State) (t : Nat) (x : VTile) : (s.setTile t x).panel = s.panel := rfl
@[simp] theorem State.setTile_reply (s : State) (t : Nat) (x : VTile) : (s.setTile t x).reply = s.reply := rfl
@[simp] theorem State.setTile_tiles (s : State) (t : Nat) (x : VTile) : (s.setTile t x).tiles = mput s.tiles t x := rfl

/-! #### setChip -/

@[simp] theorem State.setChip_cur (s : State) (n : Nat) (x : Chip) : (s.setChip n x).cur = s.cur := rfl
@[simp] theorem State.setChip_agenda (s : State) (n : Nat) (x : Chip) : (s.setChip n x).agenda = s.agenda := rfl
@[simp] theorem State.setChip_time (s : State) (n : Nat) (x : Chip) : (s.setChip n x).time = s.time := rfl
@[simp] theorem State.setChip_fences (s : State) (n : Nat) (x : Chip) : (s.setChip n x).fences = s.fences := rfl
@[simp] theorem State.setChip_mem (s : State) (n : Nat) (x : Chip) : (s.setChip n x).mem = s.mem := rfl
@[simp] theorem State.setChip_tiles (s : State) (n : Nat) (x : Chip) : (s.setChip n x).tiles = s.tiles := rfl
@[simp] theorem State.setChip_phys (s : State) (n : Nat) (x : Chip) : (s.setChip n x).phys = s.phys := rfl
@[simp] theorem State.setChip_mgmts (s : State) (n : Nat) (x : Chip) : (s.setChip n x).mgmts = s.mgmts := rfl
@[simp] theorem State.setChip_mgmtMem (s : State) (n : Nat) (x : Chip) : (s.setChip n x).mgmtMem = s.mgmtMem := rfl
@[simp] theorem State.setChip_cols (s : State) (n : Nat) (x : Chip) : (s.setChip n x).cols = s.cols := rfl
@[simp] theorem State.setChip_ctxs (s : State) (n : Nat) (x : Chip) : (s.setChip n x).ctxs = s.ctxs := rfl
@[simp] theorem State.setChip_queues (s : State) (n : Nat) (x : Chip) : (s.setChip n x).queues = s.queues := rfl
@[simp] theorem State.setChip_kernels (s : State) (n : Nat) (x : Chip) : (s.setChip n x).kernels = s.kernels := rfl
@[simp] theorem State.setChip_nextKern (s : State) (n : Nat) (x : Chip) : (s.setChip n x).nextKern = s.nextKern := rfl
@[simp] theorem State.setChip_net (s : State) (n : Nat) (x : Chip) : (s.setChip n x).net = s.net := rfl
@[simp] theorem State.setChip_kicks (s : State) (n : Nat) (x : Chip) : (s.setChip n x).kicks = s.kicks := rfl
@[simp] theorem State.setChip_pins (s : State) (n : Nat) (x : Chip) : (s.setChip n x).pins = s.pins := rfl
@[simp] theorem State.setChip_memMap (s : State) (n : Nat) (x : Chip) : (s.setChip n x).memMap = s.memMap := rfl
@[simp] theorem State.setChip_hbm (s : State) (n : Nat) (x : Chip) : (s.setChip n x).hbm = s.hbm := rfl
@[simp] theorem State.setChip_withheld (s : State) (n : Nat) (x : Chip) : (s.setChip n x).withheld = s.withheld := rfl
@[simp] theorem State.setChip_acl (s : State) (n : Nat) (x : Chip) : (s.setChip n x).acl = s.acl := rfl
@[simp] theorem State.setChip_bar2 (s : State) (n : Nat) (x : Chip) : (s.setChip n x).bar2 = s.bar2 := rfl
@[simp] theorem State.setChip_busy (s : State) (n : Nat) (x : Chip) : (s.setChip n x).busy = s.busy := rfl
@[simp] theorem State.setChip_posted (s : State) (n : Nat) (x : Chip) : (s.setChip n x).posted = s.posted := rfl
@[simp] theorem State.setChip_rewrites (s : State) (n : Nat) (x : Chip) : (s.setChip n x).rewrites = s.rewrites := rfl
@[simp] theorem State.setChip_detour (s : State) (n : Nat) (x : Chip) : (s.setChip n x).detour = s.detour := rfl
@[simp] theorem State.setChip_fenceDue (s : State) (n : Nat) (x : Chip) : (s.setChip n x).fenceDue = s.fenceDue := rfl
@[simp] theorem State.setChip_outbox (s : State) (n : Nat) (x : Chip) : (s.setChip n x).outbox = s.outbox := rfl
@[simp] theorem State.setChip_lag (s : State) (n : Nat) (x : Chip) : (s.setChip n x).lag = s.lag := rfl
@[simp] theorem State.setChip_dequeues (s : State) (n : Nat) (x : Chip) : (s.setChip n x).dequeues = s.dequeues := rfl
@[simp] theorem State.setChip_ageRule (s : State) (n : Nat) (x : Chip) : (s.setChip n x).ageRule = s.ageRule := rfl
@[simp] theorem State.setChip_links (s : State) (n : Nat) (x : Chip) : (s.setChip n x).links = s.links := rfl
@[simp] theorem State.setChip_conns (s : State) (n : Nat) (x : Chip) : (s.setChip n x).conns = s.conns := rfl
@[simp] theorem State.setChip_pkg (s : State) (n : Nat) (x : Chip) : (s.setChip n x).pkg = s.pkg := rfl
@[simp] theorem State.setChip_sysLog (s : State) (n : Nat) (x : Chip) : (s.setChip n x).sysLog = s.sysLog := rfl
@[simp] theorem State.setChip_boot (s : State) (n : Nat) (x : Chip) : (s.setChip n x).boot = s.boot := rfl
@[simp] theorem State.setChip_panel (s : State) (n : Nat) (x : Chip) : (s.setChip n x).panel = s.panel := rfl
@[simp] theorem State.setChip_reply (s : State) (n : Nat) (x : Chip) : (s.setChip n x).reply = s.reply := rfl
@[simp] theorem State.setChip_chips (s : State) (n : Nat) (x : Chip) : (s.setChip n x).chips = mput s.chips n x := rfl

/-! #### setPtile -/

@[simp] theorem State.setPtile_cur (s : State) (p : Nat) (x : PTile) : (s.setPtile p x).cur = s.cur := rfl
@[simp] theorem State.setPtile_agenda (s : State) (p : Nat) (x : PTile) : (s.setPtile p x).agenda = s.agenda := rfl
@[simp] theorem State.setPtile_time (s : State) (p : Nat) (x : PTile) : (s.setPtile p x).time = s.time := rfl
@[simp] theorem State.setPtile_fences (s : State) (p : Nat) (x : PTile) : (s.setPtile p x).fences = s.fences := rfl
@[simp] theorem State.setPtile_mem (s : State) (p : Nat) (x : PTile) : (s.setPtile p x).mem = s.mem := rfl
@[simp] theorem State.setPtile_tiles (s : State) (p : Nat) (x : PTile) : (s.setPtile p x).tiles = s.tiles := rfl
@[simp] theorem State.setPtile_chips (s : State) (p : Nat) (x : PTile) : (s.setPtile p x).chips = s.chips := rfl
@[simp] theorem State.setPtile_mgmts (s : State) (p : Nat) (x : PTile) : (s.setPtile p x).mgmts = s.mgmts := rfl
@[simp] theorem State.setPtile_mgmtMem (s : State) (p : Nat) (x : PTile) : (s.setPtile p x).mgmtMem = s.mgmtMem := rfl
@[simp] theorem State.setPtile_cols (s : State) (p : Nat) (x : PTile) : (s.setPtile p x).cols = s.cols := rfl
@[simp] theorem State.setPtile_ctxs (s : State) (p : Nat) (x : PTile) : (s.setPtile p x).ctxs = s.ctxs := rfl
@[simp] theorem State.setPtile_queues (s : State) (p : Nat) (x : PTile) : (s.setPtile p x).queues = s.queues := rfl
@[simp] theorem State.setPtile_kernels (s : State) (p : Nat) (x : PTile) : (s.setPtile p x).kernels = s.kernels := rfl
@[simp] theorem State.setPtile_nextKern (s : State) (p : Nat) (x : PTile) : (s.setPtile p x).nextKern = s.nextKern := rfl
@[simp] theorem State.setPtile_net (s : State) (p : Nat) (x : PTile) : (s.setPtile p x).net = s.net := rfl
@[simp] theorem State.setPtile_kicks (s : State) (p : Nat) (x : PTile) : (s.setPtile p x).kicks = s.kicks := rfl
@[simp] theorem State.setPtile_pins (s : State) (p : Nat) (x : PTile) : (s.setPtile p x).pins = s.pins := rfl
@[simp] theorem State.setPtile_memMap (s : State) (p : Nat) (x : PTile) : (s.setPtile p x).memMap = s.memMap := rfl
@[simp] theorem State.setPtile_hbm (s : State) (p : Nat) (x : PTile) : (s.setPtile p x).hbm = s.hbm := rfl
@[simp] theorem State.setPtile_withheld (s : State) (p : Nat) (x : PTile) : (s.setPtile p x).withheld = s.withheld := rfl
@[simp] theorem State.setPtile_acl (s : State) (p : Nat) (x : PTile) : (s.setPtile p x).acl = s.acl := rfl
@[simp] theorem State.setPtile_bar2 (s : State) (p : Nat) (x : PTile) : (s.setPtile p x).bar2 = s.bar2 := rfl
@[simp] theorem State.setPtile_busy (s : State) (p : Nat) (x : PTile) : (s.setPtile p x).busy = s.busy := rfl
@[simp] theorem State.setPtile_posted (s : State) (p : Nat) (x : PTile) : (s.setPtile p x).posted = s.posted := rfl
@[simp] theorem State.setPtile_rewrites (s : State) (p : Nat) (x : PTile) : (s.setPtile p x).rewrites = s.rewrites := rfl
@[simp] theorem State.setPtile_detour (s : State) (p : Nat) (x : PTile) : (s.setPtile p x).detour = s.detour := rfl
@[simp] theorem State.setPtile_fenceDue (s : State) (p : Nat) (x : PTile) : (s.setPtile p x).fenceDue = s.fenceDue := rfl
@[simp] theorem State.setPtile_outbox (s : State) (p : Nat) (x : PTile) : (s.setPtile p x).outbox = s.outbox := rfl
@[simp] theorem State.setPtile_lag (s : State) (p : Nat) (x : PTile) : (s.setPtile p x).lag = s.lag := rfl
@[simp] theorem State.setPtile_dequeues (s : State) (p : Nat) (x : PTile) : (s.setPtile p x).dequeues = s.dequeues := rfl
@[simp] theorem State.setPtile_ageRule (s : State) (p : Nat) (x : PTile) : (s.setPtile p x).ageRule = s.ageRule := rfl
@[simp] theorem State.setPtile_links (s : State) (p : Nat) (x : PTile) : (s.setPtile p x).links = s.links := rfl
@[simp] theorem State.setPtile_conns (s : State) (p : Nat) (x : PTile) : (s.setPtile p x).conns = s.conns := rfl
@[simp] theorem State.setPtile_pkg (s : State) (p : Nat) (x : PTile) : (s.setPtile p x).pkg = s.pkg := rfl
@[simp] theorem State.setPtile_sysLog (s : State) (p : Nat) (x : PTile) : (s.setPtile p x).sysLog = s.sysLog := rfl
@[simp] theorem State.setPtile_boot (s : State) (p : Nat) (x : PTile) : (s.setPtile p x).boot = s.boot := rfl
@[simp] theorem State.setPtile_panel (s : State) (p : Nat) (x : PTile) : (s.setPtile p x).panel = s.panel := rfl
@[simp] theorem State.setPtile_reply (s : State) (p : Nat) (x : PTile) : (s.setPtile p x).reply = s.reply := rfl
@[simp] theorem State.setPtile_phys (s : State) (p : Nat) (x : PTile) : (s.setPtile p x).phys = mput s.phys p x := rfl

/-! #### setCtx -/

@[simp] theorem State.setCtx_cur (s : State) (n : Nat) (x : Ctx) : (s.setCtx n x).cur = s.cur := rfl
@[simp] theorem State.setCtx_agenda (s : State) (n : Nat) (x : Ctx) : (s.setCtx n x).agenda = s.agenda := rfl
@[simp] theorem State.setCtx_time (s : State) (n : Nat) (x : Ctx) : (s.setCtx n x).time = s.time := rfl
@[simp] theorem State.setCtx_fences (s : State) (n : Nat) (x : Ctx) : (s.setCtx n x).fences = s.fences := rfl
@[simp] theorem State.setCtx_mem (s : State) (n : Nat) (x : Ctx) : (s.setCtx n x).mem = s.mem := rfl
@[simp] theorem State.setCtx_tiles (s : State) (n : Nat) (x : Ctx) : (s.setCtx n x).tiles = s.tiles := rfl
@[simp] theorem State.setCtx_phys (s : State) (n : Nat) (x : Ctx) : (s.setCtx n x).phys = s.phys := rfl
@[simp] theorem State.setCtx_chips (s : State) (n : Nat) (x : Ctx) : (s.setCtx n x).chips = s.chips := rfl
@[simp] theorem State.setCtx_mgmts (s : State) (n : Nat) (x : Ctx) : (s.setCtx n x).mgmts = s.mgmts := rfl
@[simp] theorem State.setCtx_mgmtMem (s : State) (n : Nat) (x : Ctx) : (s.setCtx n x).mgmtMem = s.mgmtMem := rfl
@[simp] theorem State.setCtx_cols (s : State) (n : Nat) (x : Ctx) : (s.setCtx n x).cols = s.cols := rfl
@[simp] theorem State.setCtx_queues (s : State) (n : Nat) (x : Ctx) : (s.setCtx n x).queues = s.queues := rfl
@[simp] theorem State.setCtx_kernels (s : State) (n : Nat) (x : Ctx) : (s.setCtx n x).kernels = s.kernels := rfl
@[simp] theorem State.setCtx_nextKern (s : State) (n : Nat) (x : Ctx) : (s.setCtx n x).nextKern = s.nextKern := rfl
@[simp] theorem State.setCtx_net (s : State) (n : Nat) (x : Ctx) : (s.setCtx n x).net = s.net := rfl
@[simp] theorem State.setCtx_kicks (s : State) (n : Nat) (x : Ctx) : (s.setCtx n x).kicks = s.kicks := rfl
@[simp] theorem State.setCtx_pins (s : State) (n : Nat) (x : Ctx) : (s.setCtx n x).pins = s.pins := rfl
@[simp] theorem State.setCtx_memMap (s : State) (n : Nat) (x : Ctx) : (s.setCtx n x).memMap = s.memMap := rfl
@[simp] theorem State.setCtx_hbm (s : State) (n : Nat) (x : Ctx) : (s.setCtx n x).hbm = s.hbm := rfl
@[simp] theorem State.setCtx_withheld (s : State) (n : Nat) (x : Ctx) : (s.setCtx n x).withheld = s.withheld := rfl
@[simp] theorem State.setCtx_acl (s : State) (n : Nat) (x : Ctx) : (s.setCtx n x).acl = s.acl := rfl
@[simp] theorem State.setCtx_bar2 (s : State) (n : Nat) (x : Ctx) : (s.setCtx n x).bar2 = s.bar2 := rfl
@[simp] theorem State.setCtx_busy (s : State) (n : Nat) (x : Ctx) : (s.setCtx n x).busy = s.busy := rfl
@[simp] theorem State.setCtx_posted (s : State) (n : Nat) (x : Ctx) : (s.setCtx n x).posted = s.posted := rfl
@[simp] theorem State.setCtx_rewrites (s : State) (n : Nat) (x : Ctx) : (s.setCtx n x).rewrites = s.rewrites := rfl
@[simp] theorem State.setCtx_detour (s : State) (n : Nat) (x : Ctx) : (s.setCtx n x).detour = s.detour := rfl
@[simp] theorem State.setCtx_fenceDue (s : State) (n : Nat) (x : Ctx) : (s.setCtx n x).fenceDue = s.fenceDue := rfl
@[simp] theorem State.setCtx_outbox (s : State) (n : Nat) (x : Ctx) : (s.setCtx n x).outbox = s.outbox := rfl
@[simp] theorem State.setCtx_lag (s : State) (n : Nat) (x : Ctx) : (s.setCtx n x).lag = s.lag := rfl
@[simp] theorem State.setCtx_dequeues (s : State) (n : Nat) (x : Ctx) : (s.setCtx n x).dequeues = s.dequeues := rfl
@[simp] theorem State.setCtx_ageRule (s : State) (n : Nat) (x : Ctx) : (s.setCtx n x).ageRule = s.ageRule := rfl
@[simp] theorem State.setCtx_links (s : State) (n : Nat) (x : Ctx) : (s.setCtx n x).links = s.links := rfl
@[simp] theorem State.setCtx_conns (s : State) (n : Nat) (x : Ctx) : (s.setCtx n x).conns = s.conns := rfl
@[simp] theorem State.setCtx_pkg (s : State) (n : Nat) (x : Ctx) : (s.setCtx n x).pkg = s.pkg := rfl
@[simp] theorem State.setCtx_sysLog (s : State) (n : Nat) (x : Ctx) : (s.setCtx n x).sysLog = s.sysLog := rfl
@[simp] theorem State.setCtx_boot (s : State) (n : Nat) (x : Ctx) : (s.setCtx n x).boot = s.boot := rfl
@[simp] theorem State.setCtx_panel (s : State) (n : Nat) (x : Ctx) : (s.setCtx n x).panel = s.panel := rfl
@[simp] theorem State.setCtx_reply (s : State) (n : Nat) (x : Ctx) : (s.setCtx n x).reply = s.reply := rfl
@[simp] theorem State.setCtx_ctxs (s : State) (n : Nat) (x : Ctx) : (s.setCtx n x).ctxs = mput s.ctxs n x := rfl

/-! #### setLink -/

@[simp] theorem State.setLink_cur (s : State) (n : Nat) (x : Link) : (s.setLink n x).cur = s.cur := rfl
@[simp] theorem State.setLink_agenda (s : State) (n : Nat) (x : Link) : (s.setLink n x).agenda = s.agenda := rfl
@[simp] theorem State.setLink_time (s : State) (n : Nat) (x : Link) : (s.setLink n x).time = s.time := rfl
@[simp] theorem State.setLink_fences (s : State) (n : Nat) (x : Link) : (s.setLink n x).fences = s.fences := rfl
@[simp] theorem State.setLink_mem (s : State) (n : Nat) (x : Link) : (s.setLink n x).mem = s.mem := rfl
@[simp] theorem State.setLink_tiles (s : State) (n : Nat) (x : Link) : (s.setLink n x).tiles = s.tiles := rfl
@[simp] theorem State.setLink_phys (s : State) (n : Nat) (x : Link) : (s.setLink n x).phys = s.phys := rfl
@[simp] theorem State.setLink_chips (s : State) (n : Nat) (x : Link) : (s.setLink n x).chips = s.chips := rfl
@[simp] theorem State.setLink_mgmts (s : State) (n : Nat) (x : Link) : (s.setLink n x).mgmts = s.mgmts := rfl
@[simp] theorem State.setLink_mgmtMem (s : State) (n : Nat) (x : Link) : (s.setLink n x).mgmtMem = s.mgmtMem := rfl
@[simp] theorem State.setLink_cols (s : State) (n : Nat) (x : Link) : (s.setLink n x).cols = s.cols := rfl
@[simp] theorem State.setLink_ctxs (s : State) (n : Nat) (x : Link) : (s.setLink n x).ctxs = s.ctxs := rfl
@[simp] theorem State.setLink_queues (s : State) (n : Nat) (x : Link) : (s.setLink n x).queues = s.queues := rfl
@[simp] theorem State.setLink_kernels (s : State) (n : Nat) (x : Link) : (s.setLink n x).kernels = s.kernels := rfl
@[simp] theorem State.setLink_nextKern (s : State) (n : Nat) (x : Link) : (s.setLink n x).nextKern = s.nextKern := rfl
@[simp] theorem State.setLink_net (s : State) (n : Nat) (x : Link) : (s.setLink n x).net = s.net := rfl
@[simp] theorem State.setLink_kicks (s : State) (n : Nat) (x : Link) : (s.setLink n x).kicks = s.kicks := rfl
@[simp] theorem State.setLink_pins (s : State) (n : Nat) (x : Link) : (s.setLink n x).pins = s.pins := rfl
@[simp] theorem State.setLink_memMap (s : State) (n : Nat) (x : Link) : (s.setLink n x).memMap = s.memMap := rfl
@[simp] theorem State.setLink_hbm (s : State) (n : Nat) (x : Link) : (s.setLink n x).hbm = s.hbm := rfl
@[simp] theorem State.setLink_withheld (s : State) (n : Nat) (x : Link) : (s.setLink n x).withheld = s.withheld := rfl
@[simp] theorem State.setLink_acl (s : State) (n : Nat) (x : Link) : (s.setLink n x).acl = s.acl := rfl
@[simp] theorem State.setLink_bar2 (s : State) (n : Nat) (x : Link) : (s.setLink n x).bar2 = s.bar2 := rfl
@[simp] theorem State.setLink_busy (s : State) (n : Nat) (x : Link) : (s.setLink n x).busy = s.busy := rfl
@[simp] theorem State.setLink_posted (s : State) (n : Nat) (x : Link) : (s.setLink n x).posted = s.posted := rfl
@[simp] theorem State.setLink_rewrites (s : State) (n : Nat) (x : Link) : (s.setLink n x).rewrites = s.rewrites := rfl
@[simp] theorem State.setLink_detour (s : State) (n : Nat) (x : Link) : (s.setLink n x).detour = s.detour := rfl
@[simp] theorem State.setLink_fenceDue (s : State) (n : Nat) (x : Link) : (s.setLink n x).fenceDue = s.fenceDue := rfl
@[simp] theorem State.setLink_outbox (s : State) (n : Nat) (x : Link) : (s.setLink n x).outbox = s.outbox := rfl
@[simp] theorem State.setLink_lag (s : State) (n : Nat) (x : Link) : (s.setLink n x).lag = s.lag := rfl
@[simp] theorem State.setLink_dequeues (s : State) (n : Nat) (x : Link) : (s.setLink n x).dequeues = s.dequeues := rfl
@[simp] theorem State.setLink_ageRule (s : State) (n : Nat) (x : Link) : (s.setLink n x).ageRule = s.ageRule := rfl
@[simp] theorem State.setLink_conns (s : State) (n : Nat) (x : Link) : (s.setLink n x).conns = s.conns := rfl
@[simp] theorem State.setLink_pkg (s : State) (n : Nat) (x : Link) : (s.setLink n x).pkg = s.pkg := rfl
@[simp] theorem State.setLink_sysLog (s : State) (n : Nat) (x : Link) : (s.setLink n x).sysLog = s.sysLog := rfl
@[simp] theorem State.setLink_boot (s : State) (n : Nat) (x : Link) : (s.setLink n x).boot = s.boot := rfl
@[simp] theorem State.setLink_panel (s : State) (n : Nat) (x : Link) : (s.setLink n x).panel = s.panel := rfl
@[simp] theorem State.setLink_reply (s : State) (n : Nat) (x : Link) : (s.setLink n x).reply = s.reply := rfl
@[simp] theorem State.setLink_links (s : State) (n : Nat) (x : Link) : (s.setLink n x).links = mput s.links n x := rfl

/-! #### setKern -/

@[simp] theorem State.setKern_cur (s : State) (n : Nat) (x : Kernel) : (s.setKern n x).cur = s.cur := rfl
@[simp] theorem State.setKern_agenda (s : State) (n : Nat) (x : Kernel) : (s.setKern n x).agenda = s.agenda := rfl
@[simp] theorem State.setKern_time (s : State) (n : Nat) (x : Kernel) : (s.setKern n x).time = s.time := rfl
@[simp] theorem State.setKern_fences (s : State) (n : Nat) (x : Kernel) : (s.setKern n x).fences = s.fences := rfl
@[simp] theorem State.setKern_mem (s : State) (n : Nat) (x : Kernel) : (s.setKern n x).mem = s.mem := rfl
@[simp] theorem State.setKern_tiles (s : State) (n : Nat) (x : Kernel) : (s.setKern n x).tiles = s.tiles := rfl
@[simp] theorem State.setKern_phys (s : State) (n : Nat) (x : Kernel) : (s.setKern n x).phys = s.phys := rfl
@[simp] theorem State.setKern_chips (s : State) (n : Nat) (x : Kernel) : (s.setKern n x).chips = s.chips := rfl
@[simp] theorem State.setKern_mgmts (s : State) (n : Nat) (x : Kernel) : (s.setKern n x).mgmts = s.mgmts := rfl
@[simp] theorem State.setKern_mgmtMem (s : State) (n : Nat) (x : Kernel) : (s.setKern n x).mgmtMem = s.mgmtMem := rfl
@[simp] theorem State.setKern_cols (s : State) (n : Nat) (x : Kernel) : (s.setKern n x).cols = s.cols := rfl
@[simp] theorem State.setKern_ctxs (s : State) (n : Nat) (x : Kernel) : (s.setKern n x).ctxs = s.ctxs := rfl
@[simp] theorem State.setKern_queues (s : State) (n : Nat) (x : Kernel) : (s.setKern n x).queues = s.queues := rfl
@[simp] theorem State.setKern_nextKern (s : State) (n : Nat) (x : Kernel) : (s.setKern n x).nextKern = s.nextKern := rfl
@[simp] theorem State.setKern_net (s : State) (n : Nat) (x : Kernel) : (s.setKern n x).net = s.net := rfl
@[simp] theorem State.setKern_kicks (s : State) (n : Nat) (x : Kernel) : (s.setKern n x).kicks = s.kicks := rfl
@[simp] theorem State.setKern_pins (s : State) (n : Nat) (x : Kernel) : (s.setKern n x).pins = s.pins := rfl
@[simp] theorem State.setKern_memMap (s : State) (n : Nat) (x : Kernel) : (s.setKern n x).memMap = s.memMap := rfl
@[simp] theorem State.setKern_hbm (s : State) (n : Nat) (x : Kernel) : (s.setKern n x).hbm = s.hbm := rfl
@[simp] theorem State.setKern_withheld (s : State) (n : Nat) (x : Kernel) : (s.setKern n x).withheld = s.withheld := rfl
@[simp] theorem State.setKern_acl (s : State) (n : Nat) (x : Kernel) : (s.setKern n x).acl = s.acl := rfl
@[simp] theorem State.setKern_bar2 (s : State) (n : Nat) (x : Kernel) : (s.setKern n x).bar2 = s.bar2 := rfl
@[simp] theorem State.setKern_busy (s : State) (n : Nat) (x : Kernel) : (s.setKern n x).busy = s.busy := rfl
@[simp] theorem State.setKern_posted (s : State) (n : Nat) (x : Kernel) : (s.setKern n x).posted = s.posted := rfl
@[simp] theorem State.setKern_rewrites (s : State) (n : Nat) (x : Kernel) : (s.setKern n x).rewrites = s.rewrites := rfl
@[simp] theorem State.setKern_detour (s : State) (n : Nat) (x : Kernel) : (s.setKern n x).detour = s.detour := rfl
@[simp] theorem State.setKern_fenceDue (s : State) (n : Nat) (x : Kernel) : (s.setKern n x).fenceDue = s.fenceDue := rfl
@[simp] theorem State.setKern_outbox (s : State) (n : Nat) (x : Kernel) : (s.setKern n x).outbox = s.outbox := rfl
@[simp] theorem State.setKern_lag (s : State) (n : Nat) (x : Kernel) : (s.setKern n x).lag = s.lag := rfl
@[simp] theorem State.setKern_dequeues (s : State) (n : Nat) (x : Kernel) : (s.setKern n x).dequeues = s.dequeues := rfl
@[simp] theorem State.setKern_ageRule (s : State) (n : Nat) (x : Kernel) : (s.setKern n x).ageRule = s.ageRule := rfl
@[simp] theorem State.setKern_links (s : State) (n : Nat) (x : Kernel) : (s.setKern n x).links = s.links := rfl
@[simp] theorem State.setKern_conns (s : State) (n : Nat) (x : Kernel) : (s.setKern n x).conns = s.conns := rfl
@[simp] theorem State.setKern_pkg (s : State) (n : Nat) (x : Kernel) : (s.setKern n x).pkg = s.pkg := rfl
@[simp] theorem State.setKern_sysLog (s : State) (n : Nat) (x : Kernel) : (s.setKern n x).sysLog = s.sysLog := rfl
@[simp] theorem State.setKern_boot (s : State) (n : Nat) (x : Kernel) : (s.setKern n x).boot = s.boot := rfl
@[simp] theorem State.setKern_panel (s : State) (n : Nat) (x : Kernel) : (s.setKern n x).panel = s.panel := rfl
@[simp] theorem State.setKern_reply (s : State) (n : Nat) (x : Kernel) : (s.setKern n x).reply = s.reply := rfl
@[simp] theorem State.setKern_kernels (s : State) (n : Nat) (x : Kernel) : (s.setKern n x).kernels = mput s.kernels n x := rfl

/-! #### setCore and modCore -/

@[simp] theorem State.setCore_cur (s : State) (c : CoreRef) (x : Core) : (s.setCore c x).cur = s.cur := by
  cases c <;> simp only [State.setCore] <;> (try split) <;> rfl
@[simp] theorem State.setCore_agenda (s : State) (c : CoreRef) (x : Core) : (s.setCore c x).agenda = s.agenda := by
  cases c <;> simp only [State.setCore] <;> (try split) <;> rfl
@[simp] theorem State.setCore_time (s : State) (c : CoreRef) (x : Core) : (s.setCore c x).time = s.time := by
  cases c <;> simp only [State.setCore] <;> (try split) <;> rfl
@[simp] theorem State.setCore_fences (s : State) (c : CoreRef) (x : Core) : (s.setCore c x).fences = s.fences := by
  cases c <;> simp only [State.setCore] <;> (try split) <;> rfl
@[simp] theorem State.setCore_mem (s : State) (c : CoreRef) (x : Core) : (s.setCore c x).mem = s.mem := by
  cases c <;> simp only [State.setCore] <;> (try split) <;> rfl
@[simp] theorem State.setCore_phys (s : State) (c : CoreRef) (x : Core) : (s.setCore c x).phys = s.phys := by
  cases c <;> simp only [State.setCore] <;> (try split) <;> rfl
@[simp] theorem State.setCore_mgmtMem (s : State) (c : CoreRef) (x : Core) : (s.setCore c x).mgmtMem = s.mgmtMem := by
  cases c <;> simp only [State.setCore] <;> (try split) <;> rfl
@[simp] theorem State.setCore_cols (s : State) (c : CoreRef) (x : Core) : (s.setCore c x).cols = s.cols := by
  cases c <;> simp only [State.setCore] <;> (try split) <;> rfl
@[simp] theorem State.setCore_ctxs (s : State) (c : CoreRef) (x : Core) : (s.setCore c x).ctxs = s.ctxs := by
  cases c <;> simp only [State.setCore] <;> (try split) <;> rfl
@[simp] theorem State.setCore_queues (s : State) (c : CoreRef) (x : Core) : (s.setCore c x).queues = s.queues := by
  cases c <;> simp only [State.setCore] <;> (try split) <;> rfl
@[simp] theorem State.setCore_kernels (s : State) (c : CoreRef) (x : Core) : (s.setCore c x).kernels = s.kernels := by
  cases c <;> simp only [State.setCore] <;> (try split) <;> rfl
@[simp] theorem State.setCore_nextKern (s : State) (c : CoreRef) (x : Core) : (s.setCore c x).nextKern = s.nextKern := by
  cases c <;> simp only [State.setCore] <;> (try split) <;> rfl
@[simp] theorem State.setCore_net (s : State) (c : CoreRef) (x : Core) : (s.setCore c x).net = s.net := by
  cases c <;> simp only [State.setCore] <;> (try split) <;> rfl
@[simp] theorem State.setCore_kicks (s : State) (c : CoreRef) (x : Core) : (s.setCore c x).kicks = s.kicks := by
  cases c <;> simp only [State.setCore] <;> (try split) <;> rfl
@[simp] theorem State.setCore_pins (s : State) (c : CoreRef) (x : Core) : (s.setCore c x).pins = s.pins := by
  cases c <;> simp only [State.setCore] <;> (try split) <;> rfl
@[simp] theorem State.setCore_memMap (s : State) (c : CoreRef) (x : Core) : (s.setCore c x).memMap = s.memMap := by
  cases c <;> simp only [State.setCore] <;> (try split) <;> rfl
@[simp] theorem State.setCore_hbm (s : State) (c : CoreRef) (x : Core) : (s.setCore c x).hbm = s.hbm := by
  cases c <;> simp only [State.setCore] <;> (try split) <;> rfl
@[simp] theorem State.setCore_withheld (s : State) (c : CoreRef) (x : Core) : (s.setCore c x).withheld = s.withheld := by
  cases c <;> simp only [State.setCore] <;> (try split) <;> rfl
@[simp] theorem State.setCore_acl (s : State) (c : CoreRef) (x : Core) : (s.setCore c x).acl = s.acl := by
  cases c <;> simp only [State.setCore] <;> (try split) <;> rfl
@[simp] theorem State.setCore_bar2 (s : State) (c : CoreRef) (x : Core) : (s.setCore c x).bar2 = s.bar2 := by
  cases c <;> simp only [State.setCore] <;> (try split) <;> rfl
@[simp] theorem State.setCore_busy (s : State) (c : CoreRef) (x : Core) : (s.setCore c x).busy = s.busy := by
  cases c <;> simp only [State.setCore] <;> (try split) <;> rfl
@[simp] theorem State.setCore_posted (s : State) (c : CoreRef) (x : Core) : (s.setCore c x).posted = s.posted := by
  cases c <;> simp only [State.setCore] <;> (try split) <;> rfl
@[simp] theorem State.setCore_rewrites (s : State) (c : CoreRef) (x : Core) : (s.setCore c x).rewrites = s.rewrites := by
  cases c <;> simp only [State.setCore] <;> (try split) <;> rfl
@[simp] theorem State.setCore_detour (s : State) (c : CoreRef) (x : Core) : (s.setCore c x).detour = s.detour := by
  cases c <;> simp only [State.setCore] <;> (try split) <;> rfl
@[simp] theorem State.setCore_fenceDue (s : State) (c : CoreRef) (x : Core) : (s.setCore c x).fenceDue = s.fenceDue := by
  cases c <;> simp only [State.setCore] <;> (try split) <;> rfl
@[simp] theorem State.setCore_outbox (s : State) (c : CoreRef) (x : Core) : (s.setCore c x).outbox = s.outbox := by
  cases c <;> simp only [State.setCore] <;> (try split) <;> rfl
@[simp] theorem State.setCore_lag (s : State) (c : CoreRef) (x : Core) : (s.setCore c x).lag = s.lag := by
  cases c <;> simp only [State.setCore] <;> (try split) <;> rfl
@[simp] theorem State.setCore_dequeues (s : State) (c : CoreRef) (x : Core) : (s.setCore c x).dequeues = s.dequeues := by
  cases c <;> simp only [State.setCore] <;> (try split) <;> rfl
@[simp] theorem State.setCore_ageRule (s : State) (c : CoreRef) (x : Core) : (s.setCore c x).ageRule = s.ageRule := by
  cases c <;> simp only [State.setCore] <;> (try split) <;> rfl
@[simp] theorem State.setCore_links (s : State) (c : CoreRef) (x : Core) : (s.setCore c x).links = s.links := by
  cases c <;> simp only [State.setCore] <;> (try split) <;> rfl
@[simp] theorem State.setCore_conns (s : State) (c : CoreRef) (x : Core) : (s.setCore c x).conns = s.conns := by
  cases c <;> simp only [State.setCore] <;> (try split) <;> rfl
@[simp] theorem State.setCore_pkg (s : State) (c : CoreRef) (x : Core) : (s.setCore c x).pkg = s.pkg := by
  cases c <;> simp only [State.setCore] <;> (try split) <;> rfl
@[simp] theorem State.setCore_sysLog (s : State) (c : CoreRef) (x : Core) : (s.setCore c x).sysLog = s.sysLog := by
  cases c <;> simp only [State.setCore] <;> (try split) <;> rfl
@[simp] theorem State.setCore_boot (s : State) (c : CoreRef) (x : Core) : (s.setCore c x).boot = s.boot := by
  cases c <;> simp only [State.setCore] <;> (try split) <;> rfl
@[simp] theorem State.setCore_panel (s : State) (c : CoreRef) (x : Core) : (s.setCore c x).panel = s.panel := by
  cases c <;> simp only [State.setCore] <;> (try split) <;> rfl
@[simp] theorem State.setCore_reply (s : State) (c : CoreRef) (x : Core) : (s.setCore c x).reply = s.reply := by
  cases c <;> simp only [State.setCore] <;> (try split) <;> rfl
@[simp] theorem State.modCore_cur (s : State) (c : CoreRef) (f : Core → Core) : (s.modCore c f).cur = s.cur := by
  simp [State.modCore]
@[simp] theorem State.modCore_agenda (s : State) (c : CoreRef) (f : Core → Core) : (s.modCore c f).agenda = s.agenda := by
  simp [State.modCore]
@[simp] theorem State.modCore_time (s : State) (c : CoreRef) (f : Core → Core) : (s.modCore c f).time = s.time := by
  simp [State.modCore]
@[simp] theorem State.modCore_fences (s : State) (c : CoreRef) (f : Core → Core) : (s.modCore c f).fences = s.fences := by
  simp [State.modCore]
@[simp] theorem State.modCore_mem (s : State) (c : CoreRef) (f : Core → Core) : (s.modCore c f).mem = s.mem := by
  simp [State.modCore]
@[simp] theorem State.modCore_phys (s : State) (c : CoreRef) (f : Core → Core) : (s.modCore c f).phys = s.phys := by
  simp [State.modCore]
@[simp] theorem State.modCore_mgmtMem (s : State) (c : CoreRef) (f : Core → Core) : (s.modCore c f).mgmtMem = s.mgmtMem := by
  simp [State.modCore]
@[simp] theorem State.modCore_cols (s : State) (c : CoreRef) (f : Core → Core) : (s.modCore c f).cols = s.cols := by
  simp [State.modCore]
@[simp] theorem State.modCore_ctxs (s : State) (c : CoreRef) (f : Core → Core) : (s.modCore c f).ctxs = s.ctxs := by
  simp [State.modCore]
@[simp] theorem State.modCore_queues (s : State) (c : CoreRef) (f : Core → Core) : (s.modCore c f).queues = s.queues := by
  simp [State.modCore]
@[simp] theorem State.modCore_kernels (s : State) (c : CoreRef) (f : Core → Core) : (s.modCore c f).kernels = s.kernels := by
  simp [State.modCore]
@[simp] theorem State.modCore_nextKern (s : State) (c : CoreRef) (f : Core → Core) : (s.modCore c f).nextKern = s.nextKern := by
  simp [State.modCore]
@[simp] theorem State.modCore_net (s : State) (c : CoreRef) (f : Core → Core) : (s.modCore c f).net = s.net := by
  simp [State.modCore]
@[simp] theorem State.modCore_kicks (s : State) (c : CoreRef) (f : Core → Core) : (s.modCore c f).kicks = s.kicks := by
  simp [State.modCore]
@[simp] theorem State.modCore_pins (s : State) (c : CoreRef) (f : Core → Core) : (s.modCore c f).pins = s.pins := by
  simp [State.modCore]
@[simp] theorem State.modCore_memMap (s : State) (c : CoreRef) (f : Core → Core) : (s.modCore c f).memMap = s.memMap := by
  simp [State.modCore]
@[simp] theorem State.modCore_hbm (s : State) (c : CoreRef) (f : Core → Core) : (s.modCore c f).hbm = s.hbm := by
  simp [State.modCore]
@[simp] theorem State.modCore_withheld (s : State) (c : CoreRef) (f : Core → Core) : (s.modCore c f).withheld = s.withheld := by
  simp [State.modCore]
@[simp] theorem State.modCore_acl (s : State) (c : CoreRef) (f : Core → Core) : (s.modCore c f).acl = s.acl := by
  simp [State.modCore]
@[simp] theorem State.modCore_bar2 (s : State) (c : CoreRef) (f : Core → Core) : (s.modCore c f).bar2 = s.bar2 := by
  simp [State.modCore]
@[simp] theorem State.modCore_busy (s : State) (c : CoreRef) (f : Core → Core) : (s.modCore c f).busy = s.busy := by
  simp [State.modCore]
@[simp] theorem State.modCore_posted (s : State) (c : CoreRef) (f : Core → Core) : (s.modCore c f).posted = s.posted := by
  simp [State.modCore]
@[simp] theorem State.modCore_rewrites (s : State) (c : CoreRef) (f : Core → Core) : (s.modCore c f).rewrites = s.rewrites := by
  simp [State.modCore]
@[simp] theorem State.modCore_detour (s : State) (c : CoreRef) (f : Core → Core) : (s.modCore c f).detour = s.detour := by
  simp [State.modCore]
@[simp] theorem State.modCore_fenceDue (s : State) (c : CoreRef) (f : Core → Core) : (s.modCore c f).fenceDue = s.fenceDue := by
  simp [State.modCore]
@[simp] theorem State.modCore_outbox (s : State) (c : CoreRef) (f : Core → Core) : (s.modCore c f).outbox = s.outbox := by
  simp [State.modCore]
@[simp] theorem State.modCore_lag (s : State) (c : CoreRef) (f : Core → Core) : (s.modCore c f).lag = s.lag := by
  simp [State.modCore]
@[simp] theorem State.modCore_dequeues (s : State) (c : CoreRef) (f : Core → Core) : (s.modCore c f).dequeues = s.dequeues := by
  simp [State.modCore]
@[simp] theorem State.modCore_ageRule (s : State) (c : CoreRef) (f : Core → Core) : (s.modCore c f).ageRule = s.ageRule := by
  simp [State.modCore]
@[simp] theorem State.modCore_links (s : State) (c : CoreRef) (f : Core → Core) : (s.modCore c f).links = s.links := by
  simp [State.modCore]
@[simp] theorem State.modCore_conns (s : State) (c : CoreRef) (f : Core → Core) : (s.modCore c f).conns = s.conns := by
  simp [State.modCore]
@[simp] theorem State.modCore_pkg (s : State) (c : CoreRef) (f : Core → Core) : (s.modCore c f).pkg = s.pkg := by
  simp [State.modCore]
@[simp] theorem State.modCore_sysLog (s : State) (c : CoreRef) (f : Core → Core) : (s.modCore c f).sysLog = s.sysLog := by
  simp [State.modCore]
@[simp] theorem State.modCore_boot (s : State) (c : CoreRef) (f : Core → Core) : (s.modCore c f).boot = s.boot := by
  simp [State.modCore]
@[simp] theorem State.modCore_panel (s : State) (c : CoreRef) (f : Core → Core) : (s.modCore c f).panel = s.panel := by
  simp [State.modCore]
@[simp] theorem State.modCore_reply (s : State) (c : CoreRef) (f : Core → Core) : (s.modCore c f).reply = s.reply := by
  simp [State.modCore]
/-! #### modTile -/

@[simp] theorem State.modTile_cur (s : State) (n : Nat) (f : VTile → VTile) : (s.modTile n f).cur = s.cur := rfl
@[simp] theorem State.modTile_agenda (s : State) (n : Nat) (f : VTile → VTile) : (s.modTile n f).agenda = s.agenda := rfl
@[simp] theorem State.modTile_time (s : State) (n : Nat) (f : VTile → VTile) : (s.modTile n f).time = s.time := rfl
@[simp] theorem State.modTile_fences (s : State) (n : Nat) (f : VTile → VTile) : (s.modTile n f).fences = s.fences := rfl
@[simp] theorem State.modTile_mem (s : State) (n : Nat) (f : VTile → VTile) : (s.modTile n f).mem = s.mem := rfl
@[simp] theorem State.modTile_phys (s : State) (n : Nat) (f : VTile → VTile) : (s.modTile n f).phys = s.phys := rfl
@[simp] theorem State.modTile_chips (s : State) (n : Nat) (f : VTile → VTile) : (s.modTile n f).chips = s.chips := rfl
@[simp] theorem State.modTile_mgmts (s : State) (n : Nat) (f : VTile → VTile) : (s.modTile n f).mgmts = s.mgmts := rfl
@[simp] theorem State.modTile_mgmtMem (s : State) (n : Nat) (f : VTile → VTile) : (s.modTile n f).mgmtMem = s.mgmtMem := rfl
@[simp] theorem State.modTile_cols (s : State) (n : Nat) (f : VTile → VTile) : (s.modTile n f).cols = s.cols := rfl
@[simp] theorem State.modTile_ctxs (s : State) (n : Nat) (f : VTile → VTile) : (s.modTile n f).ctxs = s.ctxs := rfl
@[simp] theorem State.modTile_queues (s : State) (n : Nat) (f : VTile → VTile) : (s.modTile n f).queues = s.queues := rfl
@[simp] theorem State.modTile_kernels (s : State) (n : Nat) (f : VTile → VTile) : (s.modTile n f).kernels = s.kernels := rfl
@[simp] theorem State.modTile_nextKern (s : State) (n : Nat) (f : VTile → VTile) : (s.modTile n f).nextKern = s.nextKern := rfl
@[simp] theorem State.modTile_net (s : State) (n : Nat) (f : VTile → VTile) : (s.modTile n f).net = s.net := rfl
@[simp] theorem State.modTile_kicks (s : State) (n : Nat) (f : VTile → VTile) : (s.modTile n f).kicks = s.kicks := rfl
@[simp] theorem State.modTile_pins (s : State) (n : Nat) (f : VTile → VTile) : (s.modTile n f).pins = s.pins := rfl
@[simp] theorem State.modTile_memMap (s : State) (n : Nat) (f : VTile → VTile) : (s.modTile n f).memMap = s.memMap := rfl
@[simp] theorem State.modTile_hbm (s : State) (n : Nat) (f : VTile → VTile) : (s.modTile n f).hbm = s.hbm := rfl
@[simp] theorem State.modTile_withheld (s : State) (n : Nat) (f : VTile → VTile) : (s.modTile n f).withheld = s.withheld := rfl
@[simp] theorem State.modTile_acl (s : State) (n : Nat) (f : VTile → VTile) : (s.modTile n f).acl = s.acl := rfl
@[simp] theorem State.modTile_bar2 (s : State) (n : Nat) (f : VTile → VTile) : (s.modTile n f).bar2 = s.bar2 := rfl
@[simp] theorem State.modTile_busy (s : State) (n : Nat) (f : VTile → VTile) : (s.modTile n f).busy = s.busy := rfl
@[simp] theorem State.modTile_posted (s : State) (n : Nat) (f : VTile → VTile) : (s.modTile n f).posted = s.posted := rfl
@[simp] theorem State.modTile_rewrites (s : State) (n : Nat) (f : VTile → VTile) : (s.modTile n f).rewrites = s.rewrites := rfl
@[simp] theorem State.modTile_detour (s : State) (n : Nat) (f : VTile → VTile) : (s.modTile n f).detour = s.detour := rfl
@[simp] theorem State.modTile_fenceDue (s : State) (n : Nat) (f : VTile → VTile) : (s.modTile n f).fenceDue = s.fenceDue := rfl
@[simp] theorem State.modTile_outbox (s : State) (n : Nat) (f : VTile → VTile) : (s.modTile n f).outbox = s.outbox := rfl
@[simp] theorem State.modTile_lag (s : State) (n : Nat) (f : VTile → VTile) : (s.modTile n f).lag = s.lag := rfl
@[simp] theorem State.modTile_dequeues (s : State) (n : Nat) (f : VTile → VTile) : (s.modTile n f).dequeues = s.dequeues := rfl
@[simp] theorem State.modTile_ageRule (s : State) (n : Nat) (f : VTile → VTile) : (s.modTile n f).ageRule = s.ageRule := rfl
@[simp] theorem State.modTile_links (s : State) (n : Nat) (f : VTile → VTile) : (s.modTile n f).links = s.links := rfl
@[simp] theorem State.modTile_conns (s : State) (n : Nat) (f : VTile → VTile) : (s.modTile n f).conns = s.conns := rfl
@[simp] theorem State.modTile_pkg (s : State) (n : Nat) (f : VTile → VTile) : (s.modTile n f).pkg = s.pkg := rfl
@[simp] theorem State.modTile_sysLog (s : State) (n : Nat) (f : VTile → VTile) : (s.modTile n f).sysLog = s.sysLog := rfl
@[simp] theorem State.modTile_boot (s : State) (n : Nat) (f : VTile → VTile) : (s.modTile n f).boot = s.boot := rfl
@[simp] theorem State.modTile_panel (s : State) (n : Nat) (f : VTile → VTile) : (s.modTile n f).panel = s.panel := rfl
@[simp] theorem State.modTile_reply (s : State) (n : Nat) (f : VTile → VTile) : (s.modTile n f).reply = s.reply := rfl
/-! #### modChip -/

@[simp] theorem State.modChip_cur (s : State) (n : Nat) (f : Chip → Chip) : (s.modChip n f).cur = s.cur := rfl
@[simp] theorem State.modChip_agenda (s : State) (n : Nat) (f : Chip → Chip) : (s.modChip n f).agenda = s.agenda := rfl
@[simp] theorem State.modChip_time (s : State) (n : Nat) (f : Chip → Chip) : (s.modChip n f).time = s.time := rfl
@[simp] theorem State.modChip_fences (s : State) (n : Nat) (f : Chip → Chip) : (s.modChip n f).fences = s.fences := rfl
@[simp] theorem State.modChip_mem (s : State) (n : Nat) (f : Chip → Chip) : (s.modChip n f).mem = s.mem := rfl
@[simp] theorem State.modChip_tiles (s : State) (n : Nat) (f : Chip → Chip) : (s.modChip n f).tiles = s.tiles := rfl
@[simp] theorem State.modChip_phys (s : State) (n : Nat) (f : Chip → Chip) : (s.modChip n f).phys = s.phys := rfl
@[simp] theorem State.modChip_mgmts (s : State) (n : Nat) (f : Chip → Chip) : (s.modChip n f).mgmts = s.mgmts := rfl
@[simp] theorem State.modChip_mgmtMem (s : State) (n : Nat) (f : Chip → Chip) : (s.modChip n f).mgmtMem = s.mgmtMem := rfl
@[simp] theorem State.modChip_cols (s : State) (n : Nat) (f : Chip → Chip) : (s.modChip n f).cols = s.cols := rfl
@[simp] theorem State.modChip_ctxs (s : State) (n : Nat) (f : Chip → Chip) : (s.modChip n f).ctxs = s.ctxs := rfl
@[simp] theorem State.modChip_queues (s : State) (n : Nat) (f : Chip → Chip) : (s.modChip n f).queues = s.queues := rfl
@[simp] theorem State.modChip_kernels (s : State) (n : Nat) (f : Chip → Chip) : (s.modChip n f).kernels = s.kernels := rfl
@[simp] theorem State.modChip_nextKern (s : State) (n : Nat) (f : Chip → Chip) : (s.modChip n f).nextKern = s.nextKern := rfl
@[simp] theorem State.modChip_net (s : State) (n : Nat) (f : Chip → Chip) : (s.modChip n f).net = s.net := rfl
@[simp] theorem State.modChip_kicks (s : State) (n : Nat) (f : Chip → Chip) : (s.modChip n f).kicks = s.kicks := rfl
@[simp] theorem State.modChip_pins (s : State) (n : Nat) (f : Chip → Chip) : (s.modChip n f).pins = s.pins := rfl
@[simp] theorem State.modChip_memMap (s : State) (n : Nat) (f : Chip → Chip) : (s.modChip n f).memMap = s.memMap := rfl
@[simp] theorem State.modChip_hbm (s : State) (n : Nat) (f : Chip → Chip) : (s.modChip n f).hbm = s.hbm := rfl
@[simp] theorem State.modChip_withheld (s : State) (n : Nat) (f : Chip → Chip) : (s.modChip n f).withheld = s.withheld := rfl
@[simp] theorem State.modChip_acl (s : State) (n : Nat) (f : Chip → Chip) : (s.modChip n f).acl = s.acl := rfl
@[simp] theorem State.modChip_bar2 (s : State) (n : Nat) (f : Chip → Chip) : (s.modChip n f).bar2 = s.bar2 := rfl
@[simp] theorem State.modChip_busy (s : State) (n : Nat) (f : Chip → Chip) : (s.modChip n f).busy = s.busy := rfl
@[simp] theorem State.modChip_posted (s : State) (n : Nat) (f : Chip → Chip) : (s.modChip n f).posted = s.posted := rfl
@[simp] theorem State.modChip_rewrites (s : State) (n : Nat) (f : Chip → Chip) : (s.modChip n f).rewrites = s.rewrites := rfl
@[simp] theorem State.modChip_detour (s : State) (n : Nat) (f : Chip → Chip) : (s.modChip n f).detour = s.detour := rfl
@[simp] theorem State.modChip_fenceDue (s : State) (n : Nat) (f : Chip → Chip) : (s.modChip n f).fenceDue = s.fenceDue := rfl
@[simp] theorem State.modChip_outbox (s : State) (n : Nat) (f : Chip → Chip) : (s.modChip n f).outbox = s.outbox := rfl
@[simp] theorem State.modChip_lag (s : State) (n : Nat) (f : Chip → Chip) : (s.modChip n f).lag = s.lag := rfl
@[simp] theorem State.modChip_dequeues (s : State) (n : Nat) (f : Chip → Chip) : (s.modChip n f).dequeues = s.dequeues := rfl
@[simp] theorem State.modChip_ageRule (s : State) (n : Nat) (f : Chip → Chip) : (s.modChip n f).ageRule = s.ageRule := rfl
@[simp] theorem State.modChip_links (s : State) (n : Nat) (f : Chip → Chip) : (s.modChip n f).links = s.links := rfl
@[simp] theorem State.modChip_conns (s : State) (n : Nat) (f : Chip → Chip) : (s.modChip n f).conns = s.conns := rfl
@[simp] theorem State.modChip_pkg (s : State) (n : Nat) (f : Chip → Chip) : (s.modChip n f).pkg = s.pkg := rfl
@[simp] theorem State.modChip_sysLog (s : State) (n : Nat) (f : Chip → Chip) : (s.modChip n f).sysLog = s.sysLog := rfl
@[simp] theorem State.modChip_boot (s : State) (n : Nat) (f : Chip → Chip) : (s.modChip n f).boot = s.boot := rfl
@[simp] theorem State.modChip_panel (s : State) (n : Nat) (f : Chip → Chip) : (s.modChip n f).panel = s.panel := rfl
@[simp] theorem State.modChip_reply (s : State) (n : Nat) (f : Chip → Chip) : (s.modChip n f).reply = s.reply := rfl
/-! #### modCtx -/

@[simp] theorem State.modCtx_cur (s : State) (n : Nat) (f : Ctx → Ctx) : (s.modCtx n f).cur = s.cur := rfl
@[simp] theorem State.modCtx_agenda (s : State) (n : Nat) (f : Ctx → Ctx) : (s.modCtx n f).agenda = s.agenda := rfl
@[simp] theorem State.modCtx_time (s : State) (n : Nat) (f : Ctx → Ctx) : (s.modCtx n f).time = s.time := rfl
@[simp] theorem State.modCtx_fences (s : State) (n : Nat) (f : Ctx → Ctx) : (s.modCtx n f).fences = s.fences := rfl
@[simp] theorem State.modCtx_mem (s : State) (n : Nat) (f : Ctx → Ctx) : (s.modCtx n f).mem = s.mem := rfl
@[simp] theorem State.modCtx_tiles (s : State) (n : Nat) (f : Ctx → Ctx) : (s.modCtx n f).tiles = s.tiles := rfl
@[simp] theorem State.modCtx_phys (s : State) (n : Nat) (f : Ctx → Ctx) : (s.modCtx n f).phys = s.phys := rfl
@[simp] theorem State.modCtx_chips (s : State) (n : Nat) (f : Ctx → Ctx) : (s.modCtx n f).chips = s.chips := rfl
@[simp] theorem State.modCtx_mgmts (s : State) (n : Nat) (f : Ctx → Ctx) : (s.modCtx n f).mgmts = s.mgmts := rfl
@[simp] theorem State.modCtx_mgmtMem (s : State) (n : Nat) (f : Ctx → Ctx) : (s.modCtx n f).mgmtMem = s.mgmtMem := rfl
@[simp] theorem State.modCtx_cols (s : State) (n : Nat) (f : Ctx → Ctx) : (s.modCtx n f).cols = s.cols := rfl
@[simp] theorem State.modCtx_queues (s : State) (n : Nat) (f : Ctx → Ctx) : (s.modCtx n f).queues = s.queues := rfl
@[simp] theorem State.modCtx_kernels (s : State) (n : Nat) (f : Ctx → Ctx) : (s.modCtx n f).kernels = s.kernels := rfl
@[simp] theorem State.modCtx_nextKern (s : State) (n : Nat) (f : Ctx → Ctx) : (s.modCtx n f).nextKern = s.nextKern := rfl
@[simp] theorem State.modCtx_net (s : State) (n : Nat) (f : Ctx → Ctx) : (s.modCtx n f).net = s.net := rfl
@[simp] theorem State.modCtx_kicks (s : State) (n : Nat) (f : Ctx → Ctx) : (s.modCtx n f).kicks = s.kicks := rfl
@[simp] theorem State.modCtx_pins (s : State) (n : Nat) (f : Ctx → Ctx) : (s.modCtx n f).pins = s.pins := rfl
@[simp] theorem State.modCtx_memMap (s : State) (n : Nat) (f : Ctx → Ctx) : (s.modCtx n f).memMap = s.memMap := rfl
@[simp] theorem State.modCtx_hbm (s : State) (n : Nat) (f : Ctx → Ctx) : (s.modCtx n f).hbm = s.hbm := rfl
@[simp] theorem State.modCtx_withheld (s : State) (n : Nat) (f : Ctx → Ctx) : (s.modCtx n f).withheld = s.withheld := rfl
@[simp] theorem State.modCtx_acl (s : State) (n : Nat) (f : Ctx → Ctx) : (s.modCtx n f).acl = s.acl := rfl
@[simp] theorem State.modCtx_bar2 (s : State) (n : Nat) (f : Ctx → Ctx) : (s.modCtx n f).bar2 = s.bar2 := rfl
@[simp] theorem State.modCtx_busy (s : State) (n : Nat) (f : Ctx → Ctx) : (s.modCtx n f).busy = s.busy := rfl
@[simp] theorem State.modCtx_posted (s : State) (n : Nat) (f : Ctx → Ctx) : (s.modCtx n f).posted = s.posted := rfl
@[simp] theorem State.modCtx_rewrites (s : State) (n : Nat) (f : Ctx → Ctx) : (s.modCtx n f).rewrites = s.rewrites := rfl
@[simp] theorem State.modCtx_detour (s : State) (n : Nat) (f : Ctx → Ctx) : (s.modCtx n f).detour = s.detour := rfl
@[simp] theorem State.modCtx_fenceDue (s : State) (n : Nat) (f : Ctx → Ctx) : (s.modCtx n f).fenceDue = s.fenceDue := rfl
@[simp] theorem State.modCtx_outbox (s : State) (n : Nat) (f : Ctx → Ctx) : (s.modCtx n f).outbox = s.outbox := rfl
@[simp] theorem State.modCtx_lag (s : State) (n : Nat) (f : Ctx → Ctx) : (s.modCtx n f).lag = s.lag := rfl
@[simp] theorem State.modCtx_dequeues (s : State) (n : Nat) (f : Ctx → Ctx) : (s.modCtx n f).dequeues = s.dequeues := rfl
@[simp] theorem State.modCtx_ageRule (s : State) (n : Nat) (f : Ctx → Ctx) : (s.modCtx n f).ageRule = s.ageRule := rfl
@[simp] theorem State.modCtx_links (s : State) (n : Nat) (f : Ctx → Ctx) : (s.modCtx n f).links = s.links := rfl
@[simp] theorem State.modCtx_conns (s : State) (n : Nat) (f : Ctx → Ctx) : (s.modCtx n f).conns = s.conns := rfl
@[simp] theorem State.modCtx_pkg (s : State) (n : Nat) (f : Ctx → Ctx) : (s.modCtx n f).pkg = s.pkg := rfl
@[simp] theorem State.modCtx_sysLog (s : State) (n : Nat) (f : Ctx → Ctx) : (s.modCtx n f).sysLog = s.sysLog := rfl
@[simp] theorem State.modCtx_boot (s : State) (n : Nat) (f : Ctx → Ctx) : (s.modCtx n f).boot = s.boot := rfl
@[simp] theorem State.modCtx_panel (s : State) (n : Nat) (f : Ctx → Ctx) : (s.modCtx n f).panel = s.panel := rfl
@[simp] theorem State.modCtx_reply (s : State) (n : Nat) (f : Ctx → Ctx) : (s.modCtx n f).reply = s.reply := rfl

/-! ### Reading back a component -/

@[simp] theorem State.tile_setTile (s : State) (t : Nat) (x : VTile) : (s.setTile t x).tile t = x := by simp [State.tile]
theorem State.tile_setTile_ne (s : State) {t u : Nat} (x : VTile) (h : u ≠ t) : (s.setTile t x).tile u = s.tile u := by
  simp [State.tile, mget_mput_ne _ _ _ h]
@[simp] theorem State.chip_setChip (s : State) (n : Nat) (x : Chip) : (s.setChip n x).chip n = x := by simp [State.chip]
theorem State.chip_setChip_ne (s : State) {n m : Nat} (x : Chip) (h : m ≠ n) : (s.setChip n x).chip m = s.chip m := by
  simp [State.chip, mget_mput_ne _ _ _ h]
@[simp] theorem State.ctx_setCtx (s : State) (n : Nat) (x : Ctx) : (s.setCtx n x).ctx n = x := by simp [State.ctx]
theorem State.ctx_setCtx_ne (s : State) {n m : Nat} (x : Ctx) (h : m ≠ n) : (s.setCtx n x).ctx m = s.ctx m := by
  simp [State.ctx, mget_mput_ne _ _ _ h]
@[simp] theorem State.ptile_setPtile (s : State) (p : Nat) (x : PTile) : (s.setPtile p x).ptile p = x := by
  simp [State.ptile]
@[simp] theorem State.link_setLink (s : State) (n : Nat) (x : Link) : (s.setLink n x).link n = x := by simp [State.link]
@[simp] theorem State.setTile_setTile (s : State) (t : Nat) (x y : VTile) : (s.setTile t x).setTile t y = s.setTile t y := by
  simp [State.setTile]
@[simp] theorem State.setChip_setChip (s : State) (n : Nat) (x y : Chip) : (s.setChip n x).setChip n y = s.setChip n y := by
  simp [State.setChip]
@[simp] theorem State.setCtx_setCtx (s : State) (n : Nat) (x y : Ctx) : (s.setCtx n x).setCtx n y = s.setCtx n y := by
  simp [State.setCtx]

@[simp] theorem State.tile_setChip (s : State) (n t : Nat) (x : Chip) : (s.setChip n x).tile t = s.tile t := rfl
@[simp] theorem State.tile_setCtx (s : State) (n t : Nat) (x : Ctx) : (s.setCtx n x).tile t = s.tile t := rfl
@[simp] theorem State.tile_setKern (s : State) (n t : Nat) (x : Kernel) : (s.setKern n x).tile t = s.tile t := rfl
@[simp] theorem State.tile_setPtile (s : State) (n t : Nat) (x : PTile) : (s.setPtile n x).tile t = s.tile t := rfl
@[simp] theorem State.tile_setLink (s : State) (n t : Nat) (x : Link) : (s.setLink n x).tile t = s.tile t := rfl
@[simp] theorem State.chip_setTile (s : State) (t n : Nat) (x : VTile) : (s.setTile t x).chip n = s.chip n := rfl
@[simp] theorem State.chip_setCtx (s : State) (m n : Nat) (x : Ctx) : (s.setCtx m x).chip n = s.chip n := rfl
@[simp] theorem State.chip_setKern (s : State) (m n : Nat) (x : Kernel) : (s.setKern m x).chip n = s.chip n := rfl
@[simp] theorem State.chip_setPtile (s : State) (m n : Nat) (x : PTile) : (s.setPtile m x).chip n = s.chip n := rfl
@[simp] theorem State.chip_setLink (s : State) (m n : Nat) (x : Link) : (s.setLink m x).chip n = s.chip n := rfl
@[simp] theorem State.ctx_setTile (s : State) (t n : Nat) (x : VTile) : (s.setTile t x).ctx n = s.ctx n := rfl
@[simp] theorem State.ctx_setChip (s : State) (m n : Nat) (x : Chip) : (s.setChip m x).ctx n = s.ctx n := rfl
@[simp] theorem State.ctx_setKern (s : State) (m n : Nat) (x : Kernel) : (s.setKern m x).ctx n = s.ctx n := rfl
@[simp] theorem State.ctx_setPtile (s : State) (m n : Nat) (x : PTile) : (s.setPtile m x).ctx n = s.ctx n := rfl
@[simp] theorem State.ctx_setLink (s : State) (m n : Nat) (x : Link) : (s.setLink m x).ctx n = s.ctx n := rfl
@[simp] theorem State.ptile_setTile (s : State) (t p : Nat) (x : VTile) : (s.setTile t x).ptile p = s.ptile p := rfl
@[simp] theorem State.ptile_setChip (s : State) (m p : Nat) (x : Chip) : (s.setChip m x).ptile p = s.ptile p := rfl
@[simp] theorem State.ptile_setCtx (s : State) (m p : Nat) (x : Ctx) : (s.setCtx m x).ptile p = s.ptile p := rfl
@[simp] theorem State.link_setTile (s : State) (t n : Nat) (x : VTile) : (s.setTile t x).link n = s.link n := rfl
@[simp] theorem State.link_setChip (s : State) (m n : Nat) (x : Chip) : (s.setChip m x).link n = s.link n := rfl
@[simp] theorem State.link_setCtx (s : State) (m n : Nat) (x : Ctx) : (s.setCtx m x).link n = s.link n := rfl

@[simp] theorem State.core_setCore (s : State) (c : CoreRef) (x : Core) : (s.setCore c x).core c = x := by
  cases c with
  | worker t => simp [State.setCore, State.core]
  | feeder t => simp [State.setCore, State.core]
  | sys n k => by_cases h : k = 0 <;> simp [State.setCore, State.core, h]
  | mgmt i k => simp [State.setCore, State.core]

@[simp] theorem State.setCore_setCore (s : State) (c : CoreRef) (x y : Core) : (s.setCore c x).setCore c y = s.setCore c y := by
  cases c with
  | worker t => simp [State.setCore]
  | feeder t => simp [State.setCore]
  | sys n k => by_cases h : k = 0 <;> simp [State.setCore, h]
  | mgmt i k => simp [State.setCore]

@[simp] theorem State.core_modCore (s : State) (c : CoreRef) (f : Core → Core) : (s.modCore c f).core c = f (s.core c) := by
  simp [State.modCore]

@[simp] theorem State.modCore_modCore (s : State) (c : CoreRef) (f g : Core → Core) :
    (s.modCore c f).modCore c g = s.modCore c (fun x => g (f x)) := by simp [State.modCore]

/-- Two cores that exist and differ do not share a place. -/
theorem State.core_setCore_ne (s : State) {c d : CoreRef} (x : Core) (hc : coreExists c = true) (hd : coreExists d = true)
    (h : d ≠ c) : (s.setCore c x).core d = s.core d := by
  cases c with
  | worker t =>
    cases d with
    | worker u => simp [State.setCore, State.core, State.tile_setTile_ne s _ (show u ≠ t from fun e => h (by rw [e]))]
    | feeder u =>
      by_cases e : u = t
      · subst e; simp [State.setCore, State.core]
      · simp [State.setCore, State.core, State.tile_setTile_ne s _ e]
    | sys n k => simp [State.setCore, State.core]
    | mgmt i k => simp [State.setCore, State.core]
  | feeder t =>
    cases d with
    | worker u =>
      by_cases e : u = t
      · subst e; simp [State.setCore, State.core]
      · simp [State.setCore, State.core, State.tile_setTile_ne s _ e]
    | feeder u => simp [State.setCore, State.core, State.tile_setTile_ne s _ (show u ≠ t from fun e => h (by rw [e]))]
    | sys n k => simp [State.setCore, State.core]
    | mgmt i k => simp [State.setCore, State.core]
  | sys n k =>
    simp [coreExists] at hc
    cases d with
    | worker u => by_cases e : k = 0 <;> simp [State.setCore, State.core, e]
    | feeder u => by_cases e : k = 0 <;> simp [State.setCore, State.core, e]
    | sys m j =>
      simp [coreExists] at hd
      by_cases e : m = n
      · subst e
        have : j ≠ k := fun e => h (by rw [e])
        by_cases e0 : k = 0
        · have : j ≠ 0 := by omega
          simp [State.setCore, State.core, e0, this]
        · have : j = 0 := by omega
          simp [State.setCore, State.core, e0, this]
      · by_cases e0 : k = 0 <;> simp [State.setCore, State.core, e0, State.chip_setChip_ne s _ e]
    | mgmt i j => by_cases e : k = 0 <;> simp [State.setCore, State.core, e]
  | mgmt i k =>
    simp [coreExists] at hc
    cases d with
    | worker u => simp [State.setCore, State.core, State.tile]
    | feeder u => simp [State.setCore, State.core, State.tile]
    | sys m j => simp [State.setCore, State.core, State.chip]
    | mgmt j l =>
      simp [coreExists] at hd
      have : 4 * j + l ≠ 4 * i + k := fun e => h (by
        have h1 : j = i := by omega
        have h2 : l = k := by omega
        rw [h1, h2])
      simp [State.setCore, State.core, mget_mput_ne _ _ _ this]

end Sys2Proof.Machine
end

