-- ==== Sys2Proof/Laws/Memory.lean ====
section
/-! SUPPORT. Laws of memories: reading back a written byte, leaving every other byte alone, and keeping the canonical form. -/

namespace Sys2Proof.Machine

/-! ### Numbers as bytes -/

@[simp] theorem natBytes_length (n x : Nat) : (natBytes n x).length = n := by
  induction n generalizing x with
  | zero => rfl
  | succ n ih => simp [natBytes, ih]

theorem leNat_natBytes (n x : Nat) : leNat (natBytes n x) = x % 256 ^ n := by
  induction n generalizing x with
  | zero => simp [natBytes, leNat, Nat.mod_one]
  | succ n ih =>
    simp [natBytes, leNat, ih]
    rw [Nat.pow_succ, Nat.mul_comm (256 ^ n) 256, Nat.mod_mul]

/-! ### The canonical form -/

theorem memWfFrom_weaken {lo lo' : Nat} {m : Mem} (h : lo ≤ lo') (w : memWfFrom lo' m = true) : memWfFrom lo m = true := by
  cases m with
  | nil => rfl
  | cons e r => obtain ⟨a, b⟩ := e; simp [memWfFrom] at w ⊢; exact ⟨⟨by omega, w.1.2⟩, w.2⟩

theorem memErase_wfFrom (k : Nat) : ∀ (m : Mem) (lo : Nat), memWfFrom lo m = true → memWfFrom lo (memErase m k) = true := by
  intro m
  induction m with
  | nil => intro lo h; exact h
  | cons e r ih =>
    obtain ⟨a, b⟩ := e
    intro lo h
    simp [memWfFrom] at h
    simp only [memErase]
    split
    · exact memWfFrom_weaken (by omega) h.2
    · simp only [memWfFrom, ih _ h.2]; simp [h.1]

theorem memInsert_wfFrom (k : Nat) (x : Byte) (hx : x ≠ 0) :
    ∀ (m : Mem) (lo : Nat), lo ≤ k → memWfFrom lo m = true → memWfFrom lo (memInsert m k x) = true := by
  have hx' : (x != 0) = true := by simpa using hx
  intro m
  induction m with
  | nil => intro lo hk _; simp only [memInsert, memWfFrom, Bool.and_eq_true, decide_eq_true_eq]; exact ⟨⟨hk, hx'⟩, trivial⟩
  | cons e r ih =>
    obtain ⟨a, b⟩ := e
    intro lo hk h
    simp only [memWfFrom, Bool.and_eq_true, decide_eq_true_eq] at h
    simp only [memInsert]
    split
    · rename_i hka
      simp only [memWfFrom, Bool.and_eq_true, decide_eq_true_eq]
      exact ⟨⟨hk, hx'⟩, ⟨by omega, h.1.2⟩, h.2⟩
    · split
      · rename_i hak
        simp only [memWfFrom, Bool.and_eq_true, decide_eq_true_eq]
        exact ⟨⟨hk, hx'⟩, by rw [← hak]; exact h.2⟩
      · simp only [memWfFrom, Bool.and_eq_true, decide_eq_true_eq]
        exact ⟨h.1, ih (a + 1) (by omega) h.2⟩

/-- A write keeps the canonical form. -/
theorem memWrite_wf {m : Mem} (k : Nat) (x : Byte) (h : memWf m = true) : memWf (memWrite m k x) = true := by
  unfold memWrite memWf
  split
  · exact memErase_wfFrom k m 0 h
  · rename_i hx; exact memInsert_wfFrom k x hx m 0 (by omega) h

/-- Writing consecutive bytes keeps it. -/
theorem memWriteN_wf (l : List Byte) : ∀ {m : Mem} (a : Nat), memWf m = true → memWf (memWriteN m a l) = true := by
  induction l with
  | nil => intro m a h; exact h
  | cons b bs ih => intro m a h; exact ih (a + 1) (memWrite_wf a b h)

/-- Writing bytes at listed addresses keeps it. -/
theorem memWriteL_wf (l : List (Nat × Byte)) : ∀ {m : Mem}, memWf m = true → memWf (memWriteL m l) = true := by
  induction l with
  | nil => intro m h; exact h
  | cons e bs ih => intro m h; exact ih (memWrite_wf e.1 e.2 h)

/-- The empty memory has it. -/
theorem memWf_nil : memWf [] = true := rfl

/-! ### Reading back -/

theorem memRead_erase_ne {k j : Nat} (h : j ≠ k) : ∀ m : Mem, memRead (memErase m k) j = memRead m j := by
  intro m
  induction m with
  | nil => rfl
  | cons e r ih =>
    obtain ⟨a, b⟩ := e
    simp only [memErase]
    split
    · rename_i e; subst e; simp [memRead, Ne.symm h]
    · simp only [memRead]; split <;> simp [ih]

theorem memRead_insert_self (k : Nat) (x : Byte) : ∀ m : Mem, memRead (memInsert m k x) k = x := by
  intro m
  induction m with
  | nil => simp [memInsert, memRead]
  | cons e r ih =>
    obtain ⟨a, b⟩ := e
    simp only [memInsert]
    split
    · simp [memRead]
    · split
      · simp [memRead]
      · rename_i h; simp [memRead, h, ih]

theorem memRead_insert_ne {k j : Nat} (x : Byte) (h : j ≠ k) : ∀ m : Mem, memRead (memInsert m k x) j = memRead m j := by
  intro m
  induction m with
  | nil => simp [memInsert, memRead, Ne.symm h]
  | cons e r ih =>
    obtain ⟨a, b⟩ := e
    simp only [memInsert]
    split
    · simp [memRead, Ne.symm h]
    · split
      · rename_i e; subst e; simp [memRead, Ne.symm h]
      · simp only [memRead]; split <;> simp [ih]

/-- A write leaves every other byte alone. -/
theorem memRead_write_ne {k j : Nat} (m : Mem) (x : Byte) (h : j ≠ k) : memRead (memWrite m k x) j = memRead m j := by
  unfold memWrite
  split
  · exact memRead_erase_ne h m
  · exact memRead_insert_ne x h m

theorem memRead_below : ∀ (m : Mem) (lo k : Nat), memWfFrom lo m = true → k < lo → memRead m k = 0 := by
  intro m
  induction m with
  | nil => intros; rfl
  | cons e r ih =>
    obtain ⟨a, b⟩ := e
    intro lo k h hk
    simp [memWfFrom] at h
    have : ¬ a = k := by omega
    simp [memRead, this, ih (a + 1) k h.2 (by omega)]

theorem memRead_erase_self (k : Nat) : ∀ (m : Mem) (lo : Nat), memWfFrom lo m = true → memRead (memErase m k) k = 0 := by
  intro m
  induction m with
  | nil => intros; rfl
  | cons e r ih =>
    obtain ⟨a, b⟩ := e
    intro lo h
    simp [memWfFrom] at h
    simp only [memErase]
    split
    · rename_i e; subst e; exact memRead_below r (a + 1) a h.2 (by omega)
    · rename_i e; simp [memRead, e, ih (a + 1) h.2]

/-- A byte written to a memory in canonical form is read back. -/
theorem memRead_write_self {m : Mem} (k : Nat) (x : Byte) (h : memWf m = true) : memRead (memWrite m k x) k = x := by
  unfold memWrite
  split
  · rename_i e; rw [e]; exact memRead_erase_self k m 0 h
  · exact memRead_insert_self k x m

/-- Writing consecutive bytes leaves the bytes outside the stretch alone. -/
theorem memRead_writeN_out (l : List Byte) :
    ∀ (m : Mem) (a j : Nat), (j < a ∨ a + l.length ≤ j) → memRead (memWriteN m a l) j = memRead m j := by
  induction l with
  | nil => intros; rfl
  | cons b bs ih =>
    intro m a j h
    simp only [List.length_cons] at h
    rw [memWriteN, ih (memWrite m a b) (a + 1) j (by omega), memRead_write_ne m b (by omega)]

/-- Writing bytes at listed addresses leaves the addresses outside the list alone. -/
theorem memRead_writeL_out (l : List (Nat × Byte)) :
    ∀ (m : Mem) (j : Nat), (∀ e ∈ l, e.1 ≠ j) → memRead (memWriteL m l) j = memRead m j := by
  induction l with
  | nil => intros; rfl
  | cons e bs ih =>
    intro m j h
    rw [memWriteL, ih (memWrite m e.1 e.2) j (fun x hx => h x (by simp [hx])),
      memRead_write_ne m e.2 (Ne.symm (h e (by simp)))]

/-! ### The memory of a state -/

/-- The bytes of one access keep the canonical form of the panel's memory. -/
theorem State.logCtx_mem (s : State) (n k : Nat) (v : BitVec 16) (c : Nat) (d : BitVec 224) (t : BitVec 128) :
    (s.logCtx n k v c d t).mem = s.mem := by simp [State.logCtx]

theorem State.put_wf {s : State} (n : Nat) (l : List (Nat × Byte)) (h : memWf s.mem = true) : memWf (s.put n l).mem = true := by
  simp only [State.put]
  split
  · split
    · rw [State.logCtx_mem]; exact h
    · exact h
  · split
    · exact h
    · split
      · exact h
      · exact memWriteL_wf l h

theorem State.zpLine_wf {s : State} (l : Nat) (h : memWf s.mem = true) : memWf (s.zpLine l).mem = true := by
  unfold State.zpLine
  split
  · split
    · exact h
    · simp only [State.modChip_mem]; exact memWriteN_wf _ _ h
  · exact h

/-- A property that each step of a fold keeps. -/
theorem foldl_keeps {α β : Type} (P : β → Prop) (f : β → α → β) (hf : ∀ b a, P b → P (f b a)) :
    ∀ (l : List α) (b : β), P b → P (l.foldl f b) := by
  intro l
  induction l with
  | nil => intro b h; exact h
  | cons a r ih => intro b h; exact ih (f b a) (hf b a h)

theorem State.zpTouch_wf {s : State} (z : Bool) (l : List Nat) (h : memWf s.mem = true) : memWf (s.zpTouch z l).mem = true := by
  unfold State.zpTouch
  split
  · exact foldl_keeps (fun s : State => memWf s.mem = true) State.zpLine (fun _ _ => State.zpLine_wf _) _ _ h
  · exact h

theorem State.undoLine_mem (s : State) (n l : Nat) : (s.undoLine n l).mem = s.mem := by
  unfold State.undoLine
  split
  · simp only []; split <;> simp
  · rfl

/-- A write performed at its home slice keeps it. -/
theorem State.homeWrite_wf {s : State} (n : Nat) (z : Bool) (l : List (Nat × Byte)) (h : memWf s.mem = true) :
    memWf (s.homeWrite n z l).mem = true := by
  unfold State.homeWrite
  refine State.put_wf n l (foldl_keeps (fun s : State => memWf s.mem = true) _ ?_ _ _ (State.zpTouch_wf z _ h))
  intro b a hb
  rw [State.undoLine_mem]; exact hb

end Sys2Proof.Machine
end

