-- ==== Sys2Proof/Laws/Access.lean ====
section
/-! SUPPORT. What the checks of an access leave as it was (cores, networks, kernels, every part of a tile but its cached
translations), and what the completion of a held access is. -/

namespace Sys2Proof.Machine

/-- Two states differ only in memory, cached translations, zero-pending and undo records, and what a context has logged. -/
structure State.SameWork (s t : State) : Prop where
  cur : t.cur = s.cur
  agenda : t.agenda = s.agenda
  time : t.time = s.time
  net : t.net = s.net
  kicks : t.kicks = s.kicks
  kernels : t.kernels = s.kernels
  queues : t.queues = s.queues
  pins : t.pins = s.pins
  phys : t.phys = s.phys
  cols : t.cols = s.cols
  mgmts : t.mgmts = s.mgmts
  memMap : t.memMap = s.memMap
  links : t.links = s.links
  tile : ∀ k, t.tile k = { s.tile k with tlb := (t.tile k).tlb }
  chip : ∀ h, (t.chip h).sys0 = (s.chip h).sys0 ∧ (t.chip h).sys1 = (s.chip h).sys1

theorem State.SameWork.refl (s : State) : s.SameWork s := by constructor <;> simp

theorem State.SameWork.trans {s t u : State} (a : s.SameWork t) (b : t.SameWork u) : s.SameWork u where
  cur := b.cur.trans a.cur
  agenda := b.agenda.trans a.agenda
  time := b.time.trans a.time
  net := b.net.trans a.net
  kicks := b.kicks.trans a.kicks
  kernels := b.kernels.trans a.kernels
  queues := b.queues.trans a.queues
  pins := b.pins.trans a.pins
  phys := b.phys.trans a.phys
  cols := b.cols.trans a.cols
  mgmts := b.mgmts.trans a.mgmts
  memMap := b.memMap.trans a.memMap
  links := b.links.trans a.links
  tile k := by rw [b.tile k, a.tile k]
  chip h := ⟨(b.chip h).1.trans (a.chip h).1, (b.chip h).2.trans (a.chip h).2⟩

/-- A core is what it was. -/
theorem State.SameWork.core {s t : State} (h : s.SameWork t) (c : CoreRef) : t.core c = s.core c := by
  cases c with
  | worker k => simp only [State.core]; rw [h.tile k]
  | feeder k => simp only [State.core]; rw [h.tile k]
  | sys a b => simp only [State.core, h.chip a]
  | mgmt a b => simp only [State.core, h.mgmts]

/-- Changing a chiplet, its system cores apart. -/
theorem State.sameWork_modChip (s : State) (n : Nat) (f : Chip → Chip) (h0 : ∀ x, (f x).sys0 = x.sys0)
    (h1 : ∀ x, (f x).sys1 = x.sys1) : s.SameWork (s.modChip n f) := by
  constructor <;> first | rfl | (intro; rfl) | skip
  intro h
  by_cases e : h = n
  · subst e; simp [State.modChip, State.setChip, State.chip, h0, h1]
  · simp [State.modChip, State.setChip, State.chip, mget_mput_ne _ _ _ e]

theorem State.sameWork_modCtx (s : State) (n : Nat) (f : Ctx → Ctx) : s.SameWork (s.modCtx n f) := by
  constructor <;> first | rfl | (intro; exact ⟨rfl, rfl⟩) | (intro; rfl)

theorem State.sameWork_ctxs (s : State) (m : SMap Ctx) : s.SameWork { s with ctxs := m } := by
  constructor <;> first | rfl | (intro; exact ⟨rfl, rfl⟩) | (intro; rfl)

theorem State.sameWork_mem (s : State) (m : Mem) : s.SameWork { s with mem := m } := by
  constructor <;> first | rfl | (intro; exact ⟨rfl, rfl⟩) | (intro; rfl)

theorem State.sameWork_outbox (s : State) (l : List (Nat × List (Nat × Byte))) : s.SameWork { s with outbox := l } := by
  constructor <;> first | rfl | (intro; exact ⟨rfl, rfl⟩) | (intro; rfl)

theorem State.sameWork_conns (s : State) (m : SMap Conn) : s.SameWork { s with conns := m } := by
  constructor <;> first | rfl | (intro; exact ⟨rfl, rfl⟩) | (intro; rfl)

/-- A tile's cached translations are replaced. -/
theorem State.sameWork_tlb (s : State) (t : Nat) (f : List TlbE → List TlbE) :
    s.SameWork (s.modTile t (fun v => { v with tlb := f v.tlb })) := by
  constructor <;> try rfl
  · intro k
    by_cases e : k = t
    · subst e; simp [State.modTile]
    · rw [State.modTile, State.tile_setTile_ne s _ e]
  · intro h; exact ⟨rfl, rfl⟩

theorem State.put_sameWork (s : State) (n : Nat) (l : List (Nat × Byte)) : s.SameWork (s.put n l) := by
  simp only [State.put]
  split
  · split
    · exact s.sameWork_modCtx _ _
    · exact .refl s
  · split
    · exact s.sameWork_outbox _
    · split
      · exact s.sameWork_conns _
      · exact s.sameWork_mem _

theorem State.zpLine_sameWork (s : State) (l : Nat) : s.SameWork (s.zpLine l) := by
  unfold State.zpLine
  split
  · split
    · exact .refl s
    · exact (s.sameWork_mem _).trans (State.sameWork_modChip _ _ _ (fun _ => rfl) (fun _ => rfl))
  · exact .refl s

theorem State.undoLine_sameWork (s : State) (n l : Nat) : s.SameWork (s.undoLine n l) := by
  unfold State.undoLine
  split
  · rename_i h _
    have a := s.sameWork_modChip h
      (fun x => { x with undo := ⟨n, (s.ctx n).epoch, l, memReadN s.mem (256 * l) 256⟩ :: x.undo }) (fun _ => rfl) (fun _ => rfl)
    simp only []
    split
    · exact a.trans (State.sameWork_ctxs _ _)
    · exact a
  · exact .refl s

theorem State.zpTouch_sameWork (s : State) (z : Bool) (l : List Nat) : s.SameWork (s.zpTouch z l) := by
  unfold State.zpTouch
  split
  · exact foldl_keeps (fun t : State => s.SameWork t) State.zpLine (fun t a h => h.trans (t.zpLine_sameWork a)) _ _ (.refl s)
  · exact .refl s

theorem State.homeWrite_sameWork (s : State) (n : Nat) (z : Bool) (l : List (Nat × Byte)) : s.SameWork (s.homeWrite n z l) := by
  unfold State.homeWrite
  refine State.SameWork.trans ?_ (State.put_sameWork _ n l)
  exact foldl_keeps (fun t : State => s.SameWork t) _ (fun t a h => h.trans (t.undoLine_sameWork n a)) _ _
    (s.zpTouch_sameWork z _)

theorem State.tlbFill_sameWork (s : State) (g : Agent) (e : TlbE) : s.SameWork (s.tlbFill g e) := by
  unfold State.tlbFill
  cases g.tile with
  | none => exact State.sameWork_modChip _ _ _ (fun _ => rfl) (fun _ => rfl)
  | some t =>
    exact (s.sameWork_tlb t (fun l => (e :: l.filter (fun x => !(x.ctx == e.ctx && x.vpn == e.vpn && x.level == e.level))).take 64)).trans
      (State.sameWork_modChip _ _ _ (fun _ => rfl) (fun _ => rfl))

theorem State.zpEnter_sameWork {s t : State} {a b c : Nat} (h : s.zpEnter a b c = some t) : s.SameWork t := by
  unfold State.zpEnter at h
  split at h
  · cases h; exact .refl s
  · split at h
    · cases h; exact .refl s
    · split at h
      · split at h
        · cases h; exact .refl s
        · cases h; exact State.sameWork_modChip _ _ _ (fun _ => rfl) (fun _ => rfl)
      · split at h
        · cases h
        · cases h; exact State.sameWork_modChip _ _ _ (fun _ => rfl) (fun _ => rfl)

/-- 06 R118-R127: what a translation leaves as it was. -/
theorem State.translate_sameWork (s : State) (g : Agent) (va : W64) (n : Need) : s.SameWork (s.translate g va n).1 := by
  unfold State.translate
  simp only []
  split
  · exact .refl s
  · split
    · rename_i e _
      cases hz : e.zp with
      | false => simp; exact .refl s
      | true =>
        simp only [if_true]
        split
        · rename_i h; exact State.zpEnter_sameWork h
        · exact .refl s
    · split
      · exact .refl s
      · exact .refl s
      · split
        · exact .refl s
        · rename_i lv at' e _ _
          generalize (e % 256 ||| 64 ||| if n.w = true then 128 else 0) = want
          have h1 : s.SameWork (if want = e % 256 then s else s.homeWrite g.ctx false [(at', BitVec.ofNat 8 want)]) := by
            split
            · exact .refl s
            · exact s.homeWrite_sameWork _ _ _
          split
          · exact .refl s
          · split
            · rename_i s3 h3
              have h2 (e' : TlbE) := h1.trans (State.tlbFill_sameWork _ g e')
              split at h3
              · exact (h2 _).trans (State.zpEnter_sameWork h3)
              · cases h3; exact h2 _
            · exact .refl s

/-- The checks of one address of an access (21 R345). -/
theorem State.gcheck_sameWork (s : State) (g : Agent) (nd : Need) (n al : Nat) (va : W64) : s.SameWork (s.gcheck g nd n al va).1 := by
  unfold State.gcheck
  have h := s.translate_sameWork g va nd
  split
  · exact .refl s
  · split
    · exact .refl s
    · revert h
      rcases s.translate g va nd with ⟨t, _ | _ | _ | _ | _⟩ <;> exact id

/-- The checks of several addresses. -/
theorem State.gchecks_sameWork (g : Agent) (nd : Need) (n al : Nat) (l : List W64) :
    ∀ s : State, s.SameWork (s.gchecks g nd n al l).1 := by
  induction l with
  | nil => exact fun s => .refl s
  | cons va r ih =>
    intro s
    have h := s.gcheck_sameWork g nd n al va
    simp only [State.gchecks]
    generalize s.gcheck g nd n al va = x at h ⊢
    obtain ⟨t, k⟩ := x
    cases k with
    | ok p z =>
      have h' := ih t
      simp only []
      generalize t.gchecks g nd n al r = y at h' ⊢
      obtain ⟨u, k⟩ := y
      cases k <;> exact h.trans h'
    | busy => exact h
    | hold => exact h
    | bad _ _ => exact h

/-- 07 R142: a held access is performed once it may be; until then its completion changes nothing. -/
theorem State.complete_held (s : State) (c : CoreRef) (id : Nat) {f : Flight} {h : Held}
    (hm : s.movingC c = false) (hf : (s.core c).flight? id = some f) (hk : f.kind = .held h) (hr : f.res = none) :
    s.complete c id = if s.heldReady c id h = true then s.perform c f h else s := by
  simp [State.complete, hf, hk, hr, hm]

end Sys2Proof.Machine
end

