-- ==== Sys2Proof/Laws/Issue.lean ====
section
/-! SUPPORT. What issue does with an instruction, once for every instruction: the body runs where the core is ready and the
encoding checks pass; an invalid operand suppresses it; a failed check traps. -/

namespace Sys2Proof.Machine

/-- The parts of readiness. -/
theorem State.ready_iff (s : State) (l : List Src) :
    s.ready l = true ↔
      coreExists s.cur = true ∧ (s.core s.cur).issues = true ∧ s.stopped s.cur = false ∧ (s.core s.cur).held = false ∧
      (s.core s.cur).sel ≠ .msg ∧ (s.core s.cur).replayTo ≤ (s.core s.cur).blk.widx ∧
      ∀ o ∈ l, (s.core s.cur).srcPend o = false ∧
        ((s.core s.cur).checking = true → (s.core s.cur).srcEarly o = false) := by
  simp only [State.ready, Bool.and_eq_true, List.all_eq_true, decide_eq_true_eq, Bool.not_eq_true', bne_iff_ne, ne_eq,
    Bool.and_eq_false_iff]
  constructor
  · rintro ⟨⟨⟨⟨⟨⟨a, b⟩, c⟩, d⟩, e⟩, f⟩, g⟩
    refine ⟨a, b, c, d, e, f, fun o h => ⟨(g o h).1, fun k => ?_⟩⟩
    rcases (g o h).2 with h' | h'
    · rw [k] at h'; cases h'
    · exact h'
  · rintro ⟨a, b, c, d, e, f, g⟩
    refine ⟨⟨⟨⟨⟨⟨a, b⟩, c⟩, d⟩, e⟩, f⟩, fun o h => ⟨(g o h).1, ?_⟩⟩
    cases k : (s.core s.cur).checking
    · exact .inl rfl
    · exact .inr ((g o h).2 k)

/-- Issue of an instruction whose checks pass: its own effect, or its suppression. -/
theorem issue_ready (i : Ins) (supp body : CoreRef → State → Act) (s : State) (h : s.ready i.srcs = true)
    (e : encCheck (kindOf s.cur) (s.core s.cur).sysMode i = none) :
    issue i supp body s = .next (finish s.cur i.n i.st
      (if i.need.all (s.srcOk s.cur) then body s.cur s else supp s.cur s)) := by
  rw [State.ready_iff] at h
  obtain ⟨h1, h2, h3, h4, h5, h6, h7⟩ := h
  have p : i.srcs.any (s.core s.cur).srcPend = false := by
    rw [List.any_eq_false]; intro o ho; rw [(h7 o ho).1]; simp
  have q : ¬((s.core s.cur).checking = true ∧ i.srcs.any (s.core s.cur).srcEarly = true) := by
    rintro ⟨c, d⟩
    obtain ⟨o, ho, he⟩ := List.any_eq_true.mp d
    rw [(h7 o ho).2 c] at he; cases he
  have r : (s.core s.cur).recorded = none := by simp only [Core.recorded, if_neg h5, if_neg (Nat.not_lt.mpr h6)]
  simp only [issue, issueAct, h1, h2, h3, h4, e, p, r, Bool.not_true, Bool.or_false, if_false, Bool.false_eq_true]
  rw [if_neg (fun k => h5 k.1), if_neg q]

/-- Issue of an instruction that an encoding check fails, on a core that runs a block. -/
theorem issue_bad (i : Ins) (supp body : CoreRef → State → Act) (s : State) (code : Nat) (h : s.ready [] = true)
    (e : encCheck (kindOf s.cur) (s.core s.cur).sysMode i = some code) :
    issue i supp body s = .next (s.takeTrap s.cur code 0) := by
  rw [State.ready_iff] at h
  obtain ⟨h1, h2, h3, h4, h5, -, -⟩ := h
  simp [issue, issueAct, h1, h2, h3, h4, e, finish, h5]

/-- A core that cannot issue changes nothing. -/
theorem issue_idle (i : Ins) (supp body : CoreRef → State → Act) (s : State) (h1 : coreExists s.cur = true)
    (h : (s.core s.cur).issues = false) : issue i supp body s = .next s := by simp [issue, h1, h]

/-- Issue never refuses, and faults only at a core that does not exist. -/
theorem issue_next (i : Ins) (supp body : CoreRef → State → Act) (s : State) (h : coreExists s.cur = true) :
    ∃ t, issue i supp body s = .next t := by
  unfold issue; simp only [h, Bool.not_true, Bool.false_eq_true, if_false]; split <;> exact ⟨_, rfl⟩

end Sys2Proof.Machine
end

