-- ==== Sys2Proof/Laws/Journal.lean ====
section
/-! SUPPORT. The journal is where it was after a write elsewhere in a core's own memory (28 R421). -/

namespace Sys2Proof.Machine

/-- Bytes outside those written read as before. -/
theorem memReadN_writeN_out (m : Mem) (a : Nat) (l : List Byte) (n b : Nat) (h : b + n ≤ a ∨ a + l.length ≤ b) :
    memReadN (memWriteN m a l) b n = memReadN m b n := by
  induction n generalizing b with
  | zero => rfl
  | succ n ih =>
    rw [memReadN, memReadN, ih (b + 1) (by omega), memRead_writeN_out l m a b (by omega)]

/-- A store of a system core reaches no chiplet's state. -/
theorem State.put_chips (s : State) (l : List (Nat × Byte)) : (s.put 256 l).chips = s.chips := by
  have n : ¬ 256 < 256 := by omega
  simp only [State.put, if_neg n]
  split
  · rfl
  · split
    · rfl
    · split <;> rfl

/-- A system core's write of its own memory leaves the core, and the bytes of that memory outside it, alone. -/
theorem State.ownWrite_out (s : State) (h k a : Nat) (l : List Byte) (hu : s.logsUndo 256 = false) :
    (s.ownWrite (.sys h k) a l).core (.sys h k) = s.core (.sys h k) ∧
    ∀ b n, b < 2 ^ 31 → b + n ≤ a ∨ a + l.length ≤ b → (s.ownWrite (.sys h k) a l).ownRead (.sys h k) b n = s.ownRead (.sys h k) b n := by
  unfold State.ownWrite
  split
  next a' e =>
    have : a' = a := by
      unfold ownPa at e
      split at e
      · exact (OwnPa.sram.inj e).symm
      · split at e <;> simp at e
    subst this
    refine ⟨by simp [State.setOwnMem, State.core, State.modChip, State.setChip, State.chip], fun b n hb ho => ?_⟩
    simp only [State.ownRead, ownPa, if_pos hb, State.ownMem, State.setOwnMem, State.modChip, State.setChip, State.chip, mget_mput_self]
    exact memReadN_writeN_out _ _ _ _ _ ho
  next pa e =>
    have hc : (s.homeWrite 256 false (atAddr pa l)).chips = s.chips := by
      simp [State.homeWrite, State.zpTouch, State.undoNeeds, hu, State.put_chips]
    exact ⟨by simp only [State.core, State.chip, hc],
      fun b n hb _ => by simp only [State.ownRead, ownPa, if_pos hb, State.ownMem, State.chip, hc]⟩
  next e => exact ⟨rfl, fun _ _ _ _ => rfl⟩

/-- Where the records are the same, so are the newest and those before it. -/
theorem State.journal_congr {s t : State} (c : CoreRef) (h : ∀ i, t.jrec c i = s.jrec c i) :
    t.jhead c = s.jhead c ∧ ∀ n i l, t.jback c n i l = s.jback c n i l := by
  have hw (n : Nat) : ∀ i, t.jwalk c n i = s.jwalk c n i := by
    induction n with
    | zero => intro i; rfl
    | succ n ih => intro i; simp only [State.jwalk, h, ih]
  refine ⟨by simp only [State.jhead, h, hw], fun n => ?_⟩
  induction n with
  | zero => intro i l; rfl
  | succ n ih => intro i l; simp only [State.jback, h, ih]

/-- A change of a system core's registers is none of its memory. -/
theorem State.ownRead_modCore (s : State) (h k : Nat) (f : Core → Core) (a n : Nat) :
    (s.modCore (.sys h k) f).ownRead (.sys h k) a n = s.ownRead (.sys h k) a n := by
  have o : (s.modCore (.sys h k) f).ownMem (.sys h k) = s.ownMem (.sys h k) := by
    simp only [State.modCore, State.setCore, State.ownMem]
    split <;> simp [State.setChip, State.chip]
  have m : (s.modCore (.sys h k) f).mem = s.mem := by
    simp only [State.modCore, State.setCore]
    split <;> rfl
  simp only [State.ownRead, o, m]

/-- A datum of the takeover program outside the journal leaves the journal alone, whatever MCAUSE then becomes. -/
theorem State.jrec_tkPut (s : State) (h k off n v : Nat) (w : W64) (hu : s.logsUndo 256 = false)
    (hj : (s.core (.sys h k)).jbase.toNat + 65536 ≤ 2 ^ 31)
    (ho : Config.takeoverAt 0 + off + n ≤ (s.core (.sys h k)).jbase.toNat ∨
      (s.core (.sys h k)).jbase.toNat + 65536 ≤ Config.takeoverAt 0 + off) (i : Nat) :
    ((s.tkPut (.sys h k) 0 off n v).modCore (.sys h k) (fun x => { x with mcause := w })).jrec (.sys h k) i = s.jrec (.sys h k) i := by
  obtain ⟨hc, hr⟩ := s.ownWrite_out h k (Config.takeoverAt 0 + off) (natBytes n v) hu
  rw [natBytes_length] at hr
  have hi : i % 4096 < 4096 := Nat.mod_lt _ (by omega)
  have h8 := hr ((s.core (.sys h k)).jbase.toNat + 16 * (i % 4096) + 8) 8 (by omega) (by omega)
  have h0 := hr ((s.core (.sys h k)).jbase.toNat + 16 * (i % 4096)) 8 (by omega) (by omega)
  simp only [State.tkPut, State.jrec, State.core_modCore, State.ownRead_modCore, hc, h8, h0]

end Sys2Proof.Machine
end

