-- ==== Sys2Proof/Laws/Link.lean ====
section
/-! SUPPORT. A flit of this panel as the links see it. -/

namespace Sys2Proof.Machine

/-- A flit that this panel makes is whole, and its fields read back (17 R282). -/
theorem mkFlit_good (ty dst conn seq ack code : Nat) (l : List Byte) (h : ty ≤ 3) : flitGood (mkFlit ty dst conn seq ack code l) = true ∧
    flitF (mkFlit ty dst conn seq ack code l) 120 8 = ty ∧ flitF (mkFlit ty dst conn seq ack code l) 104 16 = Config.selfPeer % 2 ^ 16 ∧
    flitF (mkFlit ty dst conn seq ack code l) 88 16 = dst % 2 ^ 16 ∧ flitF (mkFlit ty dst conn seq ack code l) 80 8 = conn % 2 ^ 8 ∧
    flitF (mkFlit ty dst conn seq ack code l) 56 24 = seq % 2 ^ 24 := by
  obtain ⟨x, hx⟩ : ∃ x, x = ty * 2 ^ 120 + Config.selfPeer % 2 ^ 16 * 2 ^ 104 + dst % 2 ^ 16 * 2 ^ 88 + conn % 2 ^ 8 * 2 ^ 80 +
    seq % 2 ^ 24 * 2 ^ 56 + ack % 2 ^ 24 * 2 ^ 32 + min 14 ((l.length + 15) / 16) * 2 ^ 24 + code % 2 ^ 8 * 2 ^ 16 := ⟨_, rfl⟩
  obtain ⟨p, hp⟩ : ∃ p, p = (l ++ List.replicate 224 (0 : Byte)).take 224 := ⟨_, rfl⟩
  have lp : p.length = 224 := by rw [hp, List.length_take, List.length_append, List.length_replicate]; omega
  obtain ⟨b, hb⟩ : ∃ b, b = natBytes 16 x ++ p := ⟨_, rfl⟩
  have e : mkFlit ty dst conn seq ack code l = b ++ List.replicate 8 0 ++ natBytes 8 (Config.crc64 b).toNat := by
    simp only [mkFlit, hb, hx, hp]
  have l16 : (natBytes 16 x).length = 16 := natBytes_length ..
  have lb : b.length = 240 := by simp only [hb, List.length_append, l16, lp]
  have t : (b ++ List.replicate 8 0 ++ natBytes 8 (Config.crc64 b).toNat).take 16 = natBytes 16 x := by
    rw [List.append_assoc, List.take_append_of_le_length (by omega), hb, List.take_append_of_le_length (by omega),
      List.take_of_length_le (by omega)]
  have f (lo n : Nat) : flitF (mkFlit ty dst conn seq ack code l) lo n = x % 256 ^ 16 / 2 ^ lo % 2 ^ n := by
    rw [flitF, e, t, leNat_natBytes]
  have h120 : flitF (mkFlit ty dst conn seq ack code l) 120 8 = ty := by rw [f, hx]; omega
  refine ⟨?_, h120, ?_⟩
  rotate_left
  · refine ⟨?_, ?_, ?_, ?_⟩ <;> rw [f, hx] <;> omega
  have d1 : ((b ++ List.replicate 8 (0 : Byte) ++ natBytes 8 (Config.crc64 b).toNat).drop 240).take 8 = List.replicate 8 0 := by
    rw [List.append_assoc, List.drop_append_of_le_length (by omega), List.drop_of_length_le (by omega)]
    simp
  have d2 : (b ++ List.replicate 8 (0 : Byte) ++ natBytes 8 (Config.crc64 b).toNat).drop 248 = natBytes 8 (Config.crc64 b).toNat := by
    rw [List.drop_append_of_le_length (by simp [lb]), List.drop_of_length_le (by simp [lb])]
    rfl
  have d3 : (b ++ List.replicate 8 (0 : Byte) ++ natBytes 8 (Config.crc64 b).toNat).take 240 = b := by
    rw [List.append_assoc, List.take_append_of_le_length (by omega), List.take_of_length_le (by omega)]
  have hc : (Config.crc64 b).toNat < 256 ^ 8 := (Config.crc64 b).isLt
  have z : leNat (List.replicate 8 (0 : Byte)) = 0 := by decide
  have g120 : flitF (b ++ List.replicate 8 0 ++ natBytes 8 (Config.crc64 b).toNat) 120 8 = ty := by rw [← e]; exact h120
  have len : (b ++ List.replicate 8 (0 : Byte) ++ natBytes 8 (Config.crc64 b).toNat).length = 256 := by
    simp only [List.length_append, lb, List.length_replicate, natBytes_length]
  simp only [flitGood, e, g120, d1, d2, d3, len, leNat_natBytes, Nat.mod_eq_of_lt hc, z]
  simp [h]

end Sys2Proof.Machine
end

