-- ==== Sys2Proof/Laws/PerInstr.lean ====
section
/-! SUPPORT. The encoding of every instruction, constructor by constructor: its words are 32-bit words (03 R49), and there are
as many as its opcode takes (03 R50, R60); an event has none. -/

/-- Every word is below 2^32; where there is a first word, one more follows exactly where its opcode takes two. -/
def Sys2Proof.Laws.Words.Statement (i : Sys2Proof.Instr) : Prop :=
  (∀ w ∈ Sys2Proof.encode i, w < 2 ^ 32) ∧
    (∀ w r, Sys2Proof.encode i = w :: r →
      r.length = if Sys2Proof.opcTwoWords (Sys2Proof.fieldN w 22 7) then 1 else 0)

namespace Sys2Proof

theorem Laws.Words.ofNone {i : Instr} (e : encode i = []) : Laws.Words.Statement i := by
  refine ⟨fun x hx => ?_, fun x r hx => ?_⟩
  · rw [e] at hx; cases hx
  · rw [e] at hx; cases hx

theorem Laws.Words.ofOne {w : Nat} {i : Instr} (h : w < 2 ^ 32) (o : Nat) (ho : w / 2 ^ 22 % 2 ^ 7 = o)
    (h2 : opcTwoWords o = false) (e : encode i = [w]) : Laws.Words.Statement i := by
  refine ⟨fun x hx => ?_, fun x r hx => ?_⟩
  · rw [e] at hx; simp at hx; omega
  · rw [e] at hx; cases hx
    show 0 = if opcTwoWords (w / 2 ^ 22 % 2 ^ 7) then 1 else 0
    rw [ho, h2]; rfl

theorem Laws.Words.ofTwo {w v : Nat} {i : Instr} (h : w < 2 ^ 32) (h' : v < 2 ^ 32) (o : Nat)
    (ho : w / 2 ^ 22 % 2 ^ 7 = o) (h2 : opcTwoWords o = true) (e : encode i = [w, v]) : Laws.Words.Statement i := by
  refine ⟨fun x hx => ?_, fun x r hx => ?_⟩
  · rw [e] at hx; simp at hx; omega
  · rw [e] at hx; cases hx
    show 1 = if opcTwoWords (w / 2 ^ 22 % 2 ^ 7) then 1 else 0
    rw [ho, h2]; rfl

theorem Laws.Words.nop (st : BitVec 3) : Statement (.nop st) :=
  ofOne (by simp [asm]; omega) 0 (by simp [asm]; omega) rfl rfl

theorem Laws.Words.br (st : BitVec 3) (o : BitVec 16) : Statement (.br st o) :=
  ofOne (by simp [asm]; omega) 0x1 (by simp [asm]; omega) rfl rfl

theorem Laws.Words.brv (st : BitVec 3) (c : BitVec 6) (o : BitVec 16) : Statement (.brv st c o) :=
  ofOne (by simp [asm]; omega) 0x2 (by simp [asm]; omega) rfl rfl

theorem Laws.Words.brn (st : BitVec 3) (c : BitVec 6) (o : BitVec 16) : Statement (.brn st c o) :=
  ofOne (by simp [asm]; omega) 0x3 (by simp [asm]; omega) rfl rfl

theorem Laws.Words.call (st : BitVec 3) (o : BitVec 16) : Statement (.call st o) :=
  ofOne (by simp [asm]; omega) 0x4 (by simp [asm]; omega) rfl rfl

theorem Laws.Words.brx (st : BitVec 3) (a : BitVec 6) : Statement (.brx st a) :=
  ofOne (by simp [asm]; omega) 0x5 (by simp [asm]; omega) rfl rfl

theorem Laws.Words.callThroughRegister (st : BitVec 3) (a : BitVec 6) : Statement (.callThroughRegister st a) :=
  ofOne (by simp [asm]; omega) 0x5 (by simp [asm]; omega) rfl rfl

theorem Laws.Words.ret (st : BitVec 3) (a : BitVec 6) : Statement (.ret st a) :=
  ofOne (by simp [asm]; omega) 0x5 (by simp [asm]; omega) rfl rfl

theorem Laws.Words.loop (st : BitVec 3) (a : BitVec 6) (d : BitVec 5) (imm : BitVec 32) : Statement (.loop st a d imm) :=
  ofTwo (by simp [asm]; omega) (by simp [asm]; try omega) 0x6 (by simp [asm]; omega) rfl rfl

theorem Laws.Words.exit (st : BitVec 3) : Statement (.exit st) :=
  ofOne (by simp [asm]; omega) 0x7 (by simp [asm]; omega) rfl rfl

theorem Laws.Words.waitAll (st : BitVec 3) : Statement (.waitAll st) :=
  ofOne (by simp [asm]; omega) 0x8 (by simp [asm]; omega) rfl rfl

theorem Laws.Words.waitTime (st : BitVec 3) (a : BitVec 6) : Statement (.waitTime st a) :=
  ofOne (by simp [asm]; omega) 0x8 (by simp [asm]; omega) rfl rfl

theorem Laws.Words.trap (st : BitVec 3) (i : BitVec 11) : Statement (.trap st i) :=
  ofOne (by simp [asm]; omega) 0x9 (by simp [asm]; omega) rfl rfl

theorem Laws.Words.add (st : BitVec 3) (a b : BitVec 6) (d : BitVec 5) : Statement (.add st a b d) :=
  ofOne (by simp [asm]; omega) 0x10 (by simp [asm]; omega) rfl rfl

theorem Laws.Words.sub (st : BitVec 3) (a b : BitVec 6) (d : BitVec 5) : Statement (.sub st a b d) :=
  ofOne (by simp [asm]; omega) 0x10 (by simp [asm]; omega) rfl rfl

theorem Laws.Words.mul (st : BitVec 3) (a b : BitVec 6) (d : BitVec 5) : Statement (.mul st a b d) :=
  ofOne (by simp [asm]; omega) 0x10 (by simp [asm]; omega) rfl rfl

theorem Laws.Words.mulh (st : BitVec 3) (a b : BitVec 6) (d : BitVec 5) : Statement (.mulh st a b d) :=
  ofOne (by simp [asm]; omega) 0x10 (by simp [asm]; omega) rfl rfl

theorem Laws.Words.mulhu (st : BitVec 3) (a b : BitVec 6) (d : BitVec 5) : Statement (.mulhu st a b d) :=
  ofOne (by simp [asm]; omega) 0x10 (by simp [asm]; omega) rfl rfl

theorem Laws.Words.div (st : BitVec 3) (a b : BitVec 6) (d : BitVec 5) : Statement (.div st a b d) :=
  ofOne (by simp [asm]; omega) 0x10 (by simp [asm]; omega) rfl rfl

theorem Laws.Words.divu (st : BitVec 3) (a b : BitVec 6) (d : BitVec 5) : Statement (.divu st a b d) :=
  ofOne (by simp [asm]; omega) 0x10 (by simp [asm]; omega) rfl rfl

theorem Laws.Words.rem (st : BitVec 3) (a b : BitVec 6) (d : BitVec 5) : Statement (.rem st a b d) :=
  ofOne (by simp [asm]; omega) 0x10 (by simp [asm]; omega) rfl rfl

theorem Laws.Words.remu (st : BitVec 3) (a b : BitVec 6) (d : BitVec 5) : Statement (.remu st a b d) :=
  ofOne (by simp [asm]; omega) 0x10 (by simp [asm]; omega) rfl rfl

theorem Laws.Words.and (st : BitVec 3) (a b : BitVec 6) (d : BitVec 5) : Statement (.and st a b d) :=
  ofOne (by simp [asm]; omega) 0x10 (by simp [asm]; omega) rfl rfl

theorem Laws.Words.or (st : BitVec 3) (a b : BitVec 6) (d : BitVec 5) : Statement (.or st a b d) :=
  ofOne (by simp [asm]; omega) 0x10 (by simp [asm]; omega) rfl rfl

theorem Laws.Words.xor (st : BitVec 3) (a b : BitVec 6) (d : BitVec 5) : Statement (.xor st a b d) :=
  ofOne (by simp [asm]; omega) 0x10 (by simp [asm]; omega) rfl rfl

theorem Laws.Words.andn (st : BitVec 3) (a b : BitVec 6) (d : BitVec 5) : Statement (.andn st a b d) :=
  ofOne (by simp [asm]; omega) 0x10 (by simp [asm]; omega) rfl rfl

theorem Laws.Words.shl (st : BitVec 3) (a b : BitVec 6) (d : BitVec 5) : Statement (.shl st a b d) :=
  ofOne (by simp [asm]; omega) 0x10 (by simp [asm]; omega) rfl rfl

theorem Laws.Words.shr (st : BitVec 3) (a b : BitVec 6) (d : BitVec 5) : Statement (.shr st a b d) :=
  ofOne (by simp [asm]; omega) 0x10 (by simp [asm]; omega) rfl rfl

theorem Laws.Words.sra (st : BitVec 3) (a b : BitVec 6) (d : BitVec 5) : Statement (.sra st a b d) :=
  ofOne (by simp [asm]; omega) 0x10 (by simp [asm]; omega) rfl rfl

theorem Laws.Words.rol (st : BitVec 3) (a b : BitVec 6) (d : BitVec 5) : Statement (.rol st a b d) :=
  ofOne (by simp [asm]; omega) 0x10 (by simp [asm]; omega) rfl rfl

theorem Laws.Words.ror (st : BitVec 3) (a b : BitVec 6) (d : BitVec 5) : Statement (.ror st a b d) :=
  ofOne (by simp [asm]; omega) 0x10 (by simp [asm]; omega) rfl rfl

theorem Laws.Words.min (st : BitVec 3) (a b : BitVec 6) (d : BitVec 5) : Statement (.min st a b d) :=
  ofOne (by simp [asm]; omega) 0x10 (by simp [asm]; omega) rfl rfl

theorem Laws.Words.max (st : BitVec 3) (a b : BitVec 6) (d : BitVec 5) : Statement (.max st a b d) :=
  ofOne (by simp [asm]; omega) 0x10 (by simp [asm]; omega) rfl rfl

theorem Laws.Words.minu (st : BitVec 3) (a b : BitVec 6) (d : BitVec 5) : Statement (.minu st a b d) :=
  ofOne (by simp [asm]; omega) 0x10 (by simp [asm]; omega) rfl rfl

theorem Laws.Words.maxu (st : BitVec 3) (a b : BitVec 6) (d : BitVec 5) : Statement (.maxu st a b d) :=
  ofOne (by simp [asm]; omega) 0x10 (by simp [asm]; omega) rfl rfl

theorem Laws.Words.clz (st : BitVec 3) (a : BitVec 6) (d : BitVec 5) : Statement (.clz st a d) :=
  ofOne (by simp [asm]; omega) 0x10 (by simp [asm]; omega) rfl rfl

theorem Laws.Words.ctz (st : BitVec 3) (a : BitVec 6) (d : BitVec 5) : Statement (.ctz st a d) :=
  ofOne (by simp [asm]; omega) 0x10 (by simp [asm]; omega) rfl rfl

theorem Laws.Words.pop (st : BitVec 3) (a : BitVec 6) (d : BitVec 5) : Statement (.pop st a d) :=
  ofOne (by simp [asm]; omega) 0x10 (by simp [asm]; omega) rfl rfl

theorem Laws.Words.mov (st : BitVec 3) (a : BitVec 6) (d : BitVec 5) : Statement (.mov st a d) :=
  ofOne (by simp [asm]; omega) 0x10 (by simp [asm]; omega) rfl rfl

theorem Laws.Words.addi (st : BitVec 3) (a : BitVec 6) (d : BitVec 5) (i : BitVec 11) : Statement (.addi st a d i) :=
  ofOne (by simp [asm]; omega) 0x11 (by simp [asm]; omega) rfl rfl

theorem Laws.Words.muli (st : BitVec 3) (a : BitVec 6) (d : BitVec 5) (i : BitVec 11) : Statement (.muli st a d i) :=
  ofOne (by simp [asm]; omega) 0x12 (by simp [asm]; omega) rfl rfl

theorem Laws.Words.andi (st : BitVec 3) (a : BitVec 6) (d : BitVec 5) (i : BitVec 11) : Statement (.andi st a d i) :=
  ofOne (by simp [asm]; omega) 0x13 (by simp [asm]; omega) rfl rfl

theorem Laws.Words.ori (st : BitVec 3) (a : BitVec 6) (d : BitVec 5) (i : BitVec 11) : Statement (.ori st a d i) :=
  ofOne (by simp [asm]; omega) 0x14 (by simp [asm]; omega) rfl rfl

theorem Laws.Words.xori (st : BitVec 3) (a : BitVec 6) (d : BitVec 5) (i : BitVec 11) : Statement (.xori st a d i) :=
  ofOne (by simp [asm]; omega) 0x15 (by simp [asm]; omega) rfl rfl

theorem Laws.Words.shli (st : BitVec 3) (a : BitVec 6) (d : BitVec 5) (i : BitVec 6) : Statement (.shli st a d i) :=
  ofOne (by simp [asm]; omega) 0x16 (by simp [asm]; omega) rfl rfl

theorem Laws.Words.shri (st : BitVec 3) (a : BitVec 6) (d : BitVec 5) (i : BitVec 6) : Statement (.shri st a d i) :=
  ofOne (by simp [asm]; omega) 0x17 (by simp [asm]; omega) rfl rfl

theorem Laws.Words.srai (st : BitVec 3) (a : BitVec 6) (d : BitVec 5) (i : BitVec 6) : Statement (.srai st a d i) :=
  ofOne (by simp [asm]; omega) 0x18 (by simp [asm]; omega) rfl rfl

theorem Laws.Words.li (st : BitVec 3) (d : BitVec 5) (imm : BitVec 32) : Statement (.li st d imm) :=
  ofTwo (by simp [asm]; omega) (by simp [asm]; try omega) 0x19 (by simp [asm]; omega) rfl rfl

theorem Laws.Words.lih (st : BitVec 3) (a : BitVec 6) (d : BitVec 5) (imm : BitVec 32) : Statement (.lih st a d imm) :=
  ofTwo (by simp [asm]; omega) (by simp [asm]; try omega) 0x1a (by simp [asm]; omega) rfl rfl

theorem Laws.Words.test (st : BitVec 3) (a b : BitVec 6) (d f : BitVec 5) : Statement (.test st a b d f) :=
  ofOne (by simp [asm]; omega) 0x20 (by simp [asm]; omega) rfl rfl

theorem Laws.Words.fill (st : BitVec 3) (a b : BitVec 6) (d : BitVec 5) : Statement (.fill st a b d) :=
  ofOne (by simp [asm]; omega) 0x21 (by simp [asm]; omega) rfl rfl

theorem Laws.Words.keep (st : BitVec 3) (a b : BitVec 6) (d : BitVec 5) : Statement (.keep st a b d) :=
  ofOne (by simp [asm]; omega) 0x22 (by simp [asm]; omega) rfl rfl

theorem Laws.Words.valid (st : BitVec 3) (a : BitVec 6) (d : BitVec 5) : Statement (.valid st a d) :=
  ofOne (by simp [asm]; omega) 0x23 (by simp [asm]; omega) rfl rfl

theorem Laws.Words.kill (st : BitVec 3) (a : BitVec 6) (d : BitVec 5) : Statement (.kill st a d) :=
  ofOne (by simp [asm]; omega) 0x24 (by simp [asm]; omega) rfl rfl

theorem Laws.Words.fadd (st : BitVec 3) (a b : BitVec 6) (d : BitVec 5) (r : BitVec 2) : Statement (.fadd st a b d r) :=
  ofOne (by simp [asm]; omega) 0x28 (by simp [asm]; omega) rfl rfl

theorem Laws.Words.fsub (st : BitVec 3) (a b : BitVec 6) (d : BitVec 5) (r : BitVec 2) : Statement (.fsub st a b d r) :=
  ofOne (by simp [asm]; omega) 0x28 (by simp [asm]; omega) rfl rfl

theorem Laws.Words.fmul (st : BitVec 3) (a b : BitVec 6) (d : BitVec 5) (r : BitVec 2) : Statement (.fmul st a b d r) :=
  ofOne (by simp [asm]; omega) 0x28 (by simp [asm]; omega) rfl rfl

theorem Laws.Words.fmin (st : BitVec 3) (a b : BitVec 6) (d : BitVec 5) : Statement (.fmin st a b d) :=
  ofOne (by simp [asm]; omega) 0x28 (by simp [asm]; omega) rfl rfl

theorem Laws.Words.fmax (st : BitVec 3) (a b : BitVec 6) (d : BitVec 5) : Statement (.fmax st a b d) :=
  ofOne (by simp [asm]; omega) 0x28 (by simp [asm]; omega) rfl rfl

theorem Laws.Words.fdiv (st : BitVec 3) (a b : BitVec 6) (d : BitVec 5) (r : BitVec 2) : Statement (.fdiv st a b d r) :=
  ofOne (by simp [asm]; omega) 0x28 (by simp [asm]; omega) rfl rfl

theorem Laws.Words.fsqrt (st : BitVec 3) (a : BitVec 6) (d : BitVec 5) (r : BitVec 2) : Statement (.fsqrt st a d r) :=
  ofOne (by simp [asm]; omega) 0x28 (by simp [asm]; omega) rfl rfl

theorem Laws.Words.ffma (st : BitVec 3) (a : BitVec 6) (d : BitVec 5) (b : BitVec 6) (r : BitVec 2) (c : BitVec 6) : Statement (.ffma st a d b r c) :=
  ofTwo (by simp [asm]; omega) (by simp [asm]; try omega) 0x29 (by simp [asm]; omega) rfl rfl

theorem Laws.Words.fabs (st : BitVec 3) (a : BitVec 6) (d : BitVec 5) : Statement (.fabs st a d) :=
  ofOne (by simp [asm]; omega) 0x2a (by simp [asm]; omega) rfl rfl

theorem Laws.Words.fneg (st : BitVec 3) (a : BitVec 6) (d : BitVec 5) : Statement (.fneg st a d) :=
  ofOne (by simp [asm]; omega) 0x2a (by simp [asm]; omega) rfl rfl

theorem Laws.Words.fclass (st : BitVec 3) (a : BitVec 6) (d : BitVec 5) : Statement (.fclass st a d) :=
  ofOne (by simp [asm]; omega) 0x2a (by simp [asm]; omega) rfl rfl

theorem Laws.Words.ftest (st : BitVec 3) (a b : BitVec 6) (d f : BitVec 5) : Statement (.ftest st a b d f) :=
  ofOne (by simp [asm]; omega) 0x2b (by simp [asm]; omega) rfl rfl

theorem Laws.Words.fcvt (st : BitVec 3) (a : BitVec 6) (x y : BitVec 3) (d : BitVec 5) (r : BitVec 2) : Statement (.fcvt st a x y d r) :=
  ofOne (by simp [asm]; omega) 0x2c (by simp [asm]; omega) rfl rfl

theorem Laws.Words.pset (st : BitVec 3) (a : BitVec 6) (d : BitVec 5) : Statement (.pset st a d) :=
  ofOne (by simp [asm]; omega) 0x30 (by simp [asm]; omega) rfl rfl

theorem Laws.Words.pinc (st : BitVec 3) (a : BitVec 6) (d : BitVec 5) (i : BitVec 11) : Statement (.pinc st a d i) :=
  ofOne (by simp [asm]; omega) 0x31 (by simp [asm]; omega) rfl rfl

theorem Laws.Words.phnd (st : BitVec 3) (a b : BitVec 6) (d : BitVec 5) : Statement (.phnd st a b d) :=
  ofOne (by simp [asm]; omega) 0x32 (by simp [asm]; omega) rfl rfl

theorem Laws.Words.pxy (st : BitVec 3) (a b : BitVec 6) (d : BitVec 5) : Statement (.pxy st a b d) :=
  ofOne (by simp [asm]; omega) 0x33 (by simp [asm]; omega) rfl rfl

theorem Laws.Words.poff (st : BitVec 3) (a b : BitVec 6) (d : BitVec 5) : Statement (.poff st a b d) :=
  ofOne (by simp [asm]; omega) 0x34 (by simp [asm]; omega) rfl rfl

theorem Laws.Words.pget (st : BitVec 3) (a : BitVec 6) (d f : BitVec 5) : Statement (.pget st a d f) :=
  ofOne (by simp [asm]; omega) 0x35 (by simp [asm]; omega) rfl rfl

theorem Laws.Words.ld (st : BitVec 3) (b : BitVec 6) (c : BitVec 1) (p : BitVec 3) (d : BitVec 5) (w : BitVec 3) : Statement (.ld st b c p d w) :=
  ofOne (by simp [asm]; omega) 0x38 (by simp [asm]; omega) rfl rfl

theorem Laws.Words.st (st : BitVec 3) (b x : BitVec 6) (r : BitVec 1) (p w : BitVec 3) : Statement (.st st b x r p w) :=
  ofOne (by simp [asm]; omega) 0x39 (by simp [asm]; omega) rfl rfl

theorem Laws.Words.ldl (st : BitVec 3) (b : BitVec 6) (c : BitVec 1) (p : BitVec 3) (d : BitVec 5) (w : BitVec 3) (q : BitVec 2) : Statement (.ldl st b c p d w q) :=
  ofOne (by simp [asm]; omega) 0x3a (by simp [asm]; omega) rfl rfl

theorem Laws.Words.ldfe (st : BitVec 3) (b : BitVec 6) (c : BitVec 1) (p : BitVec 3) (d : BitVec 5) (w : BitVec 3) (q : BitVec 2) : Statement (.ldfe st b c p d w q) :=
  ofOne (by simp [asm]; omega) 0x3a (by simp [asm]; omega) rfl rfl

theorem Laws.Words.ldfeFec (st : BitVec 3) (b : BitVec 6) (c : BitVec 1) (p : BitVec 3) (d : BitVec 5) (w : BitVec 3) (q : BitVec 2) : Statement (.ldfeFec st b c p d w q) :=
  ofOne (by simp [asm]; omega) 0x3a (by simp [asm]; omega) rfl rfl

theorem Laws.Words.stl (st : BitVec 3) (b x : BitVec 6) (r : BitVec 1) (p : BitVec 3) (e : BitVec 1) (w : BitVec 3) (q : BitVec 2) : Statement (.stl st b x r p e w q) :=
  ofOne (by simp [asm]; omega) 0x3b (by simp [asm]; omega) rfl rfl

theorem Laws.Words.lda (st : BitVec 3) (b : BitVec 6) (c : BitVec 1) (p : BitVec 3) (d : BitVec 5) (w : BitVec 3) : Statement (.lda st b c p d w) :=
  ofOne (by simp [asm]; omega) 0x3c (by simp [asm]; omega) rfl rfl

theorem Laws.Words.chka (st : BitVec 3) (b : BitVec 6) (c : BitVec 1) (p : BitVec 3) (d : BitVec 5) (w : BitVec 3) : Statement (.chka st b c p d w) :=
  ofOne (by simp [asm]; omega) 0x3d (by simp [asm]; omega) rfl rfl

theorem Laws.Words.amo (st : BitVec 3) (a : BitVec 6) (d op : BitVec 5) (p : BitVec 3) (o : BitVec 2) (w : BitVec 1) (x : BitVec 6) : Statement (.amo st a d op p o w x) :=
  ofTwo (by simp [asm]; omega) (by simp [asm]; try omega) 0x3e (by simp [asm]; omega) rfl rfl

theorem Laws.Words.amocas (st : BitVec 3) (a : BitVec 6) (d : BitVec 5) (p : BitVec 3) (o : BitVec 2) (w : BitVec 1) (x y : BitVec 6) : Statement (.amocas st a d p o w x y) :=
  ofTwo (by simp [asm]; omega) (by simp [asm]; try omega) 0x3e (by simp [asm]; omega) rfl rfl

theorem Laws.Words.amol (st : BitVec 3) (a : BitVec 6) (d op : BitVec 5) (p : BitVec 3) (o : BitVec 2) (w : BitVec 1) (x y : BitVec 6) : Statement (.amol st a d op p o w x y) :=
  ofTwo (by simp [asm]; omega) (by simp [asm]; try omega) 0x3e (by simp [asm]; omega) rfl rfl

theorem Laws.Words.fence (st p : BitVec 3) (k : BitVec 2) : Statement (.fence st p k) :=
  ofOne (by simp [asm]; omega) 0x3f (by simp [asm]; omega) rfl rfl

theorem Laws.Words.pref (st : BitVec 3) (a : BitVec 6) : Statement (.pref st a) :=
  ofOne (by simp [asm]; omega) 0x3f (by simp [asm]; omega) rfl rfl

theorem Laws.Words.vadd (st : BitVec 3) (a b : BitVec 6) (d : BitVec 5) : Statement (.vadd st a b d) :=
  ofOne (by simp [asm]; omega) 0x40 (by simp [asm]; omega) rfl rfl

theorem Laws.Words.vsub (st : BitVec 3) (a b : BitVec 6) (d : BitVec 5) : Statement (.vsub st a b d) :=
  ofOne (by simp [asm]; omega) 0x40 (by simp [asm]; omega) rfl rfl

theorem Laws.Words.vmul (st : BitVec 3) (a b : BitVec 6) (d : BitVec 5) : Statement (.vmul st a b d) :=
  ofOne (by simp [asm]; omega) 0x40 (by simp [asm]; omega) rfl rfl

theorem Laws.Words.vmulh (st : BitVec 3) (a b : BitVec 6) (d : BitVec 5) : Statement (.vmulh st a b d) :=
  ofOne (by simp [asm]; omega) 0x40 (by simp [asm]; omega) rfl rfl

theorem Laws.Words.vmulhu (st : BitVec 3) (a b : BitVec 6) (d : BitVec 5) : Statement (.vmulhu st a b d) :=
  ofOne (by simp [asm]; omega) 0x40 (by simp [asm]; omega) rfl rfl

theorem Laws.Words.vand (st : BitVec 3) (a b : BitVec 6) (d : BitVec 5) : Statement (.vand st a b d) :=
  ofOne (by simp [asm]; omega) 0x40 (by simp [asm]; omega) rfl rfl

theorem Laws.Words.vor (st : BitVec 3) (a b : BitVec 6) (d : BitVec 5) : Statement (.vor st a b d) :=
  ofOne (by simp [asm]; omega) 0x40 (by simp [asm]; omega) rfl rfl

theorem Laws.Words.vxor (st : BitVec 3) (a b : BitVec 6) (d : BitVec 5) : Statement (.vxor st a b d) :=
  ofOne (by simp [asm]; omega) 0x40 (by simp [asm]; omega) rfl rfl

theorem Laws.Words.vandn (st : BitVec 3) (a b : BitVec 6) (d : BitVec 5) : Statement (.vandn st a b d) :=
  ofOne (by simp [asm]; omega) 0x40 (by simp [asm]; omega) rfl rfl

theorem Laws.Words.vshl (st : BitVec 3) (a b : BitVec 6) (d : BitVec 5) : Statement (.vshl st a b d) :=
  ofOne (by simp [asm]; omega) 0x40 (by simp [asm]; omega) rfl rfl

theorem Laws.Words.vshr (st : BitVec 3) (a b : BitVec 6) (d : BitVec 5) : Statement (.vshr st a b d) :=
  ofOne (by simp [asm]; omega) 0x40 (by simp [asm]; omega) rfl rfl

theorem Laws.Words.vsra (st : BitVec 3) (a b : BitVec 6) (d : BitVec 5) : Statement (.vsra st a b d) :=
  ofOne (by simp [asm]; omega) 0x40 (by simp [asm]; omega) rfl rfl

theorem Laws.Words.vmin (st : BitVec 3) (a b : BitVec 6) (d : BitVec 5) : Statement (.vmin st a b d) :=
  ofOne (by simp [asm]; omega) 0x40 (by simp [asm]; omega) rfl rfl

theorem Laws.Words.vmax (st : BitVec 3) (a b : BitVec 6) (d : BitVec 5) : Statement (.vmax st a b d) :=
  ofOne (by simp [asm]; omega) 0x40 (by simp [asm]; omega) rfl rfl

theorem Laws.Words.vminu (st : BitVec 3) (a b : BitVec 6) (d : BitVec 5) : Statement (.vminu st a b d) :=
  ofOne (by simp [asm]; omega) 0x40 (by simp [asm]; omega) rfl rfl

theorem Laws.Words.vmaxu (st : BitVec 3) (a b : BitVec 6) (d : BitVec 5) : Statement (.vmaxu st a b d) :=
  ofOne (by simp [asm]; omega) 0x40 (by simp [asm]; omega) rfl rfl

theorem Laws.Words.vpop (st : BitVec 3) (a : BitVec 6) (d : BitVec 5) : Statement (.vpop st a d) :=
  ofOne (by simp [asm]; omega) 0x40 (by simp [asm]; omega) rfl rfl

theorem Laws.Words.vmov (st : BitVec 3) (a : BitVec 6) (d : BitVec 5) : Statement (.vmov st a d) :=
  ofOne (by simp [asm]; omega) 0x40 (by simp [asm]; omega) rfl rfl

theorem Laws.Words.vfadd (st : BitVec 3) (a b : BitVec 6) (d : BitVec 5) (r : BitVec 2) : Statement (.vfadd st a b d r) :=
  ofOne (by simp [asm]; omega) 0x41 (by simp [asm]; omega) rfl rfl

theorem Laws.Words.vfsub (st : BitVec 3) (a b : BitVec 6) (d : BitVec 5) (r : BitVec 2) : Statement (.vfsub st a b d r) :=
  ofOne (by simp [asm]; omega) 0x41 (by simp [asm]; omega) rfl rfl

theorem Laws.Words.vfmul (st : BitVec 3) (a b : BitVec 6) (d : BitVec 5) (r : BitVec 2) : Statement (.vfmul st a b d r) :=
  ofOne (by simp [asm]; omega) 0x41 (by simp [asm]; omega) rfl rfl

theorem Laws.Words.vfmin (st : BitVec 3) (a b : BitVec 6) (d : BitVec 5) : Statement (.vfmin st a b d) :=
  ofOne (by simp [asm]; omega) 0x41 (by simp [asm]; omega) rfl rfl

theorem Laws.Words.vfmax (st : BitVec 3) (a b : BitVec 6) (d : BitVec 5) : Statement (.vfmax st a b d) :=
  ofOne (by simp [asm]; omega) 0x41 (by simp [asm]; omega) rfl rfl

theorem Laws.Words.vfabs (st : BitVec 3) (a : BitVec 6) (d : BitVec 5) : Statement (.vfabs st a d) :=
  ofOne (by simp [asm]; omega) 0x41 (by simp [asm]; omega) rfl rfl

theorem Laws.Words.vfneg (st : BitVec 3) (a : BitVec 6) (d : BitVec 5) : Statement (.vfneg st a d) :=
  ofOne (by simp [asm]; omega) 0x41 (by simp [asm]; omega) rfl rfl

theorem Laws.Words.vffma (st : BitVec 3) (a : BitVec 6) (d : BitVec 5) (b : BitVec 6) (r : BitVec 2) (c : BitVec 6) : Statement (.vffma st a d b r c) :=
  ofTwo (by simp [asm]; omega) (by simp [asm]; try omega) 0x42 (by simp [asm]; omega) rfl rfl

theorem Laws.Words.vtest (st : BitVec 3) (a b : BitVec 6) (d f : BitVec 5) : Statement (.vtest st a b d f) :=
  ofOne (by simp [asm]; omega) 0x43 (by simp [asm]; omega) rfl rfl

theorem Laws.Words.vexp2 (st : BitVec 3) (a : BitVec 6) (d : BitVec 5) : Statement (.vexp2 st a d) :=
  ofOne (by simp [asm]; omega) 0x44 (by simp [asm]; omega) rfl rfl

theorem Laws.Words.vrcp (st : BitVec 3) (a : BitVec 6) (d : BitVec 5) : Statement (.vrcp st a d) :=
  ofOne (by simp [asm]; omega) 0x44 (by simp [asm]; omega) rfl rfl

theorem Laws.Words.vred (st : BitVec 3) (a : BitVec 6) (d f : BitVec 5) : Statement (.vred st a d f) :=
  ofOne (by simp [asm]; omega) 0x45 (by simp [asm]; omega) rfl rfl

theorem Laws.Words.vscan (st : BitVec 3) (a : BitVec 6) (d f : BitVec 5) : Statement (.vscan st a d f) :=
  ofOne (by simp [asm]; omega) 0x46 (by simp [asm]; omega) rfl rfl

theorem Laws.Words.vperm (st : BitVec 3) (a b : BitVec 6) (d : BitVec 5) : Statement (.vperm st a b d) :=
  ofOne (by simp [asm]; omega) 0x47 (by simp [asm]; omega) rfl rfl

theorem Laws.Words.vcnt (st : BitVec 3) (a : BitVec 6) (d : BitVec 5) : Statement (.vcnt st a d) :=
  ofOne (by simp [asm]; omega) 0x48 (by simp [asm]; omega) rfl rfl

theorem Laws.Words.vfill (st : BitVec 3) (a b : BitVec 6) (d : BitVec 5) : Statement (.vfill st a b d) :=
  ofOne (by simp [asm]; omega) 0x49 (by simp [asm]; omega) rfl rfl

theorem Laws.Words.vkeep (st : BitVec 3) (a b : BitVec 6) (d : BitVec 5) : Statement (.vkeep st a b d) :=
  ofOne (by simp [asm]; omega) 0x49 (by simp [asm]; omega) rfl rfl

theorem Laws.Words.vvalid (st : BitVec 3) (a : BitVec 6) (d : BitVec 5) : Statement (.vvalid st a d) :=
  ofOne (by simp [asm]; omega) 0x49 (by simp [asm]; omega) rfl rfl

theorem Laws.Words.vkill (st : BitVec 3) (a : BitVec 6) (d : BitVec 5) : Statement (.vkill st a d) :=
  ofOne (by simp [asm]; omega) 0x49 (by simp [asm]; omega) rfl rfl

theorem Laws.Words.vcvt (st : BitVec 3) (a : BitVec 6) (x y : BitVec 3) (d : BitVec 5) (r : BitVec 2) : Statement (.vcvt st a x y d r) :=
  ofOne (by simp [asm]; omega) 0x4a (by simp [asm]; omega) rfl rfl

theorem Laws.Words.vpack16 (st : BitVec 3) (a b : BitVec 6) (d : BitVec 5) : Statement (.vpack16 st a b d) :=
  ofOne (by simp [asm]; omega) 0x4b (by simp [asm]; omega) rfl rfl

theorem Laws.Words.vpack8 (st : BitVec 3) (a b : BitVec 6) (d : BitVec 5) : Statement (.vpack8 st a b d) :=
  ofOne (by simp [asm]; omega) 0x4b (by simp [asm]; omega) rfl rfl

theorem Laws.Words.vunpk16 (st : BitVec 3) (a b : BitVec 6) (d : BitVec 5) : Statement (.vunpk16 st a b d) :=
  ofOne (by simp [asm]; omega) 0x4b (by simp [asm]; omega) rfl rfl

theorem Laws.Words.vunpk8 (st : BitVec 3) (a b : BitVec 6) (d : BitVec 5) : Statement (.vunpk8 st a b d) :=
  ofOne (by simp [asm]; omega) 0x4b (by simp [asm]; omega) rfl rfl

theorem Laws.Words.vext (st : BitVec 3) (a b : BitVec 6) (d : BitVec 5) : Statement (.vext st a b d) :=
  ofOne (by simp [asm]; omega) 0x4c (by simp [asm]; omega) rfl rfl

theorem Laws.Words.vins (st : BitVec 3) (a b : BitVec 6) (d : BitVec 5) : Statement (.vins st a b d) :=
  ofOne (by simp [asm]; omega) 0x4c (by simp [asm]; omega) rfl rfl

theorem Laws.Words.vidx (st : BitVec 3) (d : BitVec 5) : Statement (.vidx st d) :=
  ofOne (by simp [asm]; omega) 0x4c (by simp [asm]; omega) rfl rfl

theorem Laws.Words.vfdiv (st : BitVec 3) (a b : BitVec 6) (d : BitVec 5) (r : BitVec 2) : Statement (.vfdiv st a b d r) :=
  ofOne (by simp [asm]; omega) 0x4d (by simp [asm]; omega) rfl rfl

theorem Laws.Words.vfsqrt (st : BitVec 3) (a : BitVec 6) (d : BitVec 5) (r : BitVec 2) : Statement (.vfsqrt st a d r) :=
  ofOne (by simp [asm]; omega) 0x4d (by simp [asm]; omega) rfl rfl

theorem Laws.Words.vld (st : BitVec 3) (b : BitVec 6) (c : BitVec 1) (p : BitVec 3) (d : BitVec 5) (w : BitVec 3) : Statement (.vld st b c p d w) :=
  ofOne (by simp [asm]; omega) 0x50 (by simp [asm]; omega) rfl rfl

theorem Laws.Words.vst (st : BitVec 3) (b x : BitVec 6) (r : BitVec 1) (p w : BitVec 3) : Statement (.vst st b x r p w) :=
  ofOne (by simp [asm]; omega) 0x51 (by simp [asm]; omega) rfl rfl

theorem Laws.Words.vldl (st : BitVec 3) (b : BitVec 6) (c : BitVec 1) (p : BitVec 3) (e : BitVec 2) (d : BitVec 5) (w : BitVec 3) (q : BitVec 2) : Statement (.vldl st b c p e d w q) :=
  ofOne (by simp [asm]; omega) 0x52 (by simp [asm]; omega) rfl rfl

theorem Laws.Words.vstl (st : BitVec 3) (b x : BitVec 6) (r : BitVec 1) (p : BitVec 3) (e : BitVec 1) (w : BitVec 3) (q : BitVec 2) : Statement (.vstl st b x r p e w q) :=
  ofOne (by simp [asm]; omega) 0x53 (by simp [asm]; omega) rfl rfl

theorem Laws.Words.vlds (st : BitVec 3) (b x : BitVec 6) (d : BitVec 5) (w : BitVec 3) : Statement (.vlds st b x d w) :=
  ofOne (by simp [asm]; omega) 0x54 (by simp [asm]; omega) rfl rfl

theorem Laws.Words.ydraw (st : BitVec 3) (a b : BitVec 6) (d : BitVec 5) : Statement (.ydraw st a b d) :=
  ofOne (by simp [asm]; omega) 0x60 (by simp [asm]; omega) rfl rfl

theorem Laws.Words.ycmp (st : BitVec 3) (a b : BitVec 6) (d : BitVec 5) (c k : BitVec 2) : Statement (.ycmp st a b d c k) :=
  ofOne (by simp [asm]; omega) 0x61 (by simp [asm]; omega) rfl rfl

theorem Laws.Words.ycmpy (st : BitVec 3) (a b : BitVec 6) (d : BitVec 5) (c : BitVec 2) : Statement (.ycmpy st a b d c) :=
  ofOne (by simp [asm]; omega) 0x61 (by simp [asm]; omega) rfl rfl

theorem Laws.Words.ycopy (st : BitVec 3) (a : BitVec 6) (d : BitVec 5) : Statement (.ycopy st a d) :=
  ofOne (by simp [asm]; omega) 0x62 (by simp [asm]; omega) rfl rfl

theorem Laws.Words.yext (st : BitVec 3) (a b : BitVec 6) (d : BitVec 5) : Statement (.yext st a b d) :=
  ofOne (by simp [asm]; omega) 0x63 (by simp [asm]; omega) rfl rfl

theorem Laws.Words.ybits (st : BitVec 3) (a : BitVec 6) (d : BitVec 5) : Statement (.ybits st a d) :=
  ofOne (by simp [asm]; omega) 0x64 (by simp [asm]; omega) rfl rfl

theorem Laws.Words.yst (st : BitVec 3) (b x : BitVec 6) (r : BitVec 1) (p : BitVec 3) : Statement (.yst st b x r p) :=
  ofOne (by simp [asm]; omega) 0x65 (by simp [asm]; omega) rfl rfl

theorem Laws.Words.yld (st : BitVec 3) (b : BitVec 6) (c : BitVec 1) (p : BitVec 3) (d : BitVec 5) : Statement (.yld st b c p d) :=
  ofOne (by simp [asm]; omega) 0x66 (by simp [asm]; omega) rfl rfl

theorem Laws.Words.ysr (st : BitVec 3) (a b : BitVec 6) (d f : BitVec 5) : Statement (.ysr st a b d f) :=
  ofOne (by simp [asm]; omega) 0x67 (by simp [asm]; omega) rfl rfl

theorem Laws.Words.halloc (st : BitVec 3) (lv : BitVec 2) (ft : BitVec 4) (d : BitVec 5) (h : BitVec 8) (rows cols : BitVec 16) : Statement (.halloc st lv ft d h rows cols) :=
  ofTwo (by simp [asm]; omega) (by simp [asm]; try omega) 0x68 (by simp [asm]; omega) rfl rfl

theorem Laws.Words.hallocD (st : BitVec 3) (a : BitVec 6) (d : BitVec 5) (h : BitVec 8) : Statement (.hallocD st a d h) :=
  ofTwo (by simp [asm]; omega) (by simp [asm]; try omega) 0x68 (by simp [asm]; omega) rfl rfl

theorem Laws.Words.hwin (st : BitVec 3) (a : BitVec 6) (d : BitVec 5) (h : BitVec 8) (len : BitVec 32) : Statement (.hwin st a d h len) :=
  ofTwo (by simp [asm]; omega) (by simp [asm]; try omega) 0x6a (by simp [asm]; omega) rfl rfl

theorem Laws.Words.hfree (st : BitVec 3) (a : BitVec 6) : Statement (.hfree st a) :=
  ofOne (by simp [asm]; omega) 0x69 (by simp [asm]; omega) rfl rfl

theorem Laws.Words.hinfo (st : BitVec 3) (a : BitVec 6) (d : BitVec 5) : Statement (.hinfo st a d) :=
  ofOne (by simp [asm]; omega) 0x69 (by simp [asm]; omega) rfl rfl

theorem Laws.Words.binit (st : BitVec 3) (a b : BitVec 6) (d : BitVec 5) : Statement (.binit st a b d) :=
  ofOne (by simp [asm]; omega) 0x6b (by simp [asm]; omega) rfl rfl

theorem Laws.Words.barv (st : BitVec 3) (a : BitVec 6) (d : BitVec 5) : Statement (.barv st a d) :=
  ofOne (by simp [asm]; omega) 0x6b (by simp [asm]; omega) rfl rfl

theorem Laws.Words.bwait (st : BitVec 3) (a b : BitVec 6) (d : BitVec 5) : Statement (.bwait st a b d) :=
  ofOne (by simp [asm]; omega) 0x6b (by simp [asm]; omega) rfl rfl

theorem Laws.Words.btest (st : BitVec 3) (a b : BitVec 6) (d : BitVec 5) : Statement (.btest st a b d) :=
  ofOne (by simp [asm]; omega) 0x6b (by simp [asm]; omega) rfl rfl

theorem Laws.Words.bexp (st : BitVec 3) (a b : BitVec 6) : Statement (.bexp st a b) :=
  ofOne (by simp [asm]; omega) 0x6b (by simp [asm]; omega) rfl rfl

theorem Laws.Words.gjoin (st : BitVec 3) (a b : BitVec 6) (d : BitVec 5) : Statement (.gjoin st a b d) :=
  ofOne (by simp [asm]; omega) 0x6c (by simp [asm]; omega) rfl rfl

theorem Laws.Words.gleave (st : BitVec 3) (a : BitVec 6) : Statement (.gleave st a) :=
  ofOne (by simp [asm]; omega) 0x6c (by simp [asm]; omega) rfl rfl

theorem Laws.Words.ginfo (st : BitVec 3) (a : BitVec 6) (d : BitVec 5) : Statement (.ginfo st a d) :=
  ofOne (by simp [asm]; omega) 0x6c (by simp [asm]; omega) rfl rfl

theorem Laws.Words.gauge (st : BitVec 3) (a b : BitVec 6) : Statement (.gauge st a b) :=
  ofOne (by simp [asm]; omega) 0x6d (by simp [asm]; omega) rfl rfl

theorem Laws.Words.gadv (st : BitVec 3) (a : BitVec 6) (d : BitVec 5) : Statement (.gadv st a d) :=
  ofOne (by simp [asm]; omega) 0x6d (by simp [asm]; omega) rfl rfl

theorem Laws.Words.cpy (st : BitVec 3) (h1 h2 n : BitVec 6) (ch dir : BitVec 2) (post : BitVec 1) (bar : BitVec 8) : Statement (.cpy st h1 h2 n ch dir post bar) :=
  ofTwo (by simp [asm]; omega) (by simp [asm]; try omega) 0x70 (by simp [asm]; omega) rfl rfl

theorem Laws.Words.cpym (st : BitVec 3) (h1 h2 n : BitVec 6) (ch : BitVec 2) (post : BitVec 1) (bar : BitVec 8) : Statement (.cpym st h1 h2 n ch post bar) :=
  ofTwo (by simp [asm]; omega) (by simp [asm]; try omega) 0x70 (by simp [asm]; omega) rfl rfl

theorem Laws.Words.tld (st : BitVec 3) (h1 h2 n : BitVec 6) (ch : BitVec 2) (post : BitVec 1) (bar : BitVec 8) (x : BitVec 6) : Statement (.tld st h1 h2 n ch post bar x) :=
  ofTwo (by simp [asm]; omega) (by simp [asm]; try omega) 0x71 (by simp [asm]; omega) rfl rfl

theorem Laws.Words.tst (st : BitVec 3) (h1 h2 n : BitVec 6) (ch : BitVec 2) (post : BitVec 1) (bar : BitVec 8) (x : BitVec 6) : Statement (.tst st h1 h2 n ch post bar x) :=
  ofTwo (by simp [asm]; omega) (by simp [asm]; try omega) 0x71 (by simp [asm]; omega) rfl rfl

theorem Laws.Words.xwait (st : BitVec 3) (a b : BitVec 6) (d : BitVec 5) : Statement (.xwait st a b d) :=
  ofOne (by simp [asm]; omega) 0x72 (by simp [asm]; omega) rfl rfl

theorem Laws.Words.xstat (st : BitVec 3) (a : BitVec 6) (d : BitVec 5) : Statement (.xstat st a d) :=
  ofOne (by simp [asm]; omega) 0x72 (by simp [asm]; omega) rfl rfl

theorem Laws.Words.mfmt (st : BitVec 3) (a : BitVec 6) (af bf : BitVec 2) : Statement (.mfmt st a af bf) :=
  ofTwo (by simp [asm]; omega) (by simp [asm]; try omega) 0x73 (by simp [asm]; omega) rfl rfl

theorem Laws.Words.mma (st : BitVec 3) (h1 h2 n : BitVec 6) (zero post : BitVec 1) (bar : BitVec 8) (acc : BitVec 6) : Statement (.mma st h1 h2 n zero post bar acc) :=
  ofTwo (by simp [asm]; omega) (by simp [asm]; try omega) 0x74 (by simp [asm]; omega) rfl rfl

theorem Laws.Words.mmag (st : BitVec 3) (h1 h2 n : BitVec 6) (zero post : BitVec 1) (bar : BitVec 8) (acc ix : BitVec 6) : Statement (.mmag st h1 h2 n zero post bar acc ix) :=
  ofTwo (by simp [asm]; omega) (by simp [asm]; try omega) 0x74 (by simp [asm]; omega) rfl rfl

theorem Laws.Words.mdrain (st : BitVec 3) (h1 h2 n : BitVec 6) (r : BitVec 2) (post : BitVec 1) (bar : BitVec 8) : Statement (.mdrain st h1 h2 n r post bar) :=
  ofTwo (by simp [asm]; omega) (by simp [asm]; try omega) 0x75 (by simp [asm]; omega) rfl rfl

theorem Laws.Words.qnt (st : BitVec 3) (h1 h2 n : BitVec 6) (r : BitVec 2) (post : BitVec 1) (bar : BitVec 8) : Statement (.qnt st h1 h2 n r post bar) :=
  ofTwo (by simp [asm]; omega) (by simp [asm]; try omega) 0x75 (by simp [asm]; omega) rfl rfl

theorem Laws.Words.msend (st : BitVec 3) (a : BitVec 6) (cls : BitVec 3) (imm : BitVec 32) : Statement (.msend st a cls imm) :=
  ofTwo (by simp [asm]; omega) (by simp [asm]; try omega) 0x76 (by simp [asm]; omega) rfl rfl

theorem Laws.Words.launch (st : BitVec 3) (a b : BitVec 6) : Statement (.launch st a b) :=
  ofOne (by simp [asm]; omega) 0x77 (by simp [asm]; omega) rfl rfl

theorem Laws.Words.doneI (st : BitVec 3) (a b : BitVec 6) : Statement (.doneI st a b) :=
  ofOne (by simp [asm]; omega) 0x77 (by simp [asm]; omega) rfl rfl

theorem Laws.Words.crd (st : BitVec 3) (d : BitVec 5) (c : BitVec 16) : Statement (.crd st d c) :=
  ofOne (by simp [asm]; omega) 0x78 (by simp [asm]; omega) rfl rfl

theorem Laws.Words.cwr (st : BitVec 3) (a : BitVec 6) (c : BitVec 16) : Statement (.cwr st a c) :=
  ofOne (by simp [asm]; omega) 0x79 (by simp [asm]; omega) rfl rfl

theorem Laws.Words.eret (st : BitVec 3) : Statement (.eret st) :=
  ofOne (by simp [asm]; omega) 0x7a (by simp [asm]; omega) rfl rfl

theorem Laws.Words.inten (st : BitVec 3) (a : BitVec 6) : Statement (.inten st a) :=
  ofOne (by simp [asm]; omega) 0x7b (by simp [asm]; omega) rfl rfl

theorem Laws.Words.intdis (st : BitVec 3) (a : BitVec 6) : Statement (.intdis st a) :=
  ofOne (by simp [asm]; omega) 0x7b (by simp [asm]; omega) rfl rfl

theorem Laws.Words.sleep (st : BitVec 3) : Statement (.sleep st) :=
  ofOne (by simp [asm]; omega) 0x7c (by simp [asm]; omega) rfl rfl

theorem Laws.Words.tlbinvPage (st : BitVec 3) (a : BitVec 6) : Statement (.tlbinvPage st a) :=
  ofOne (by simp [asm]; omega) 0x7d (by simp [asm]; omega) rfl rfl

theorem Laws.Words.tlbinvCtx (st : BitVec 3) (a : BitVec 6) : Statement (.tlbinvCtx st a) :=
  ofOne (by simp [asm]; omega) 0x7d (by simp [asm]; omega) rfl rfl

theorem Laws.Words.tlbinvAll (st : BitVec 3) : Statement (.tlbinvAll st) :=
  ofOne (by simp [asm]; omega) 0x7d (by simp [asm]; omega) rfl rfl

theorem Laws.Words.halt (st : BitVec 3) : Statement (.halt st) :=
  ofOne (by simp [asm]; omega) 0x7e (by simp [asm]; omega) rfl rfl

theorem Laws.Words.blockEntry (c : CoreRef) : Statement (.blockEntry c) := ofNone rfl

theorem Laws.Words.variableLatencyCompletion (c : CoreRef) (id : Nat) : Statement (.variableLatencyCompletion c id) := ofNone rfl

theorem Laws.Words.blockReplay (c : CoreRef) : Statement (.blockReplay c) := ofNone rfl

theorem Laws.Words.sleepWake (c : CoreRef) : Statement (.sleepWake c) := ofNone rfl

theorem Laws.Words.taskTake (c : CoreRef) : Statement (.taskTake c) := ofNone rfl

theorem Laws.Words.stealRequest (c : CoreRef) : Statement (.stealRequest c) := ofNone rfl

theorem Laws.Words.stealAnswer (c : CoreRef) : Statement (.stealAnswer c) := ofNone rfl

theorem Laws.Words.stealBackoffExpiry (c : CoreRef) : Statement (.stealBackoffExpiry c) := ofNone rfl

theorem Laws.Words.stitchMessageArrival (i : Nat) : Statement (.stitchMessageArrival i) := ofNone rfl

theorem Laws.Words.stitchMessageRun (t : Nat) : Statement (.stitchMessageRun t) := ofNone rfl

theorem Laws.Words.remoteAccessArrival (i : Nat) : Statement (.remoteAccessArrival i) := ofNone rfl

theorem Laws.Words.consumingLoadServed (c : CoreRef) (id : Nat) : Statement (.consumingLoadServed c id) := ofNone rfl

theorem Laws.Words.storeBufferDrain (t i : Nat) : Statement (.storeBufferDrain t i) := ofNone rfl

theorem Laws.Words.homeSliceRead (c : CoreRef) (id bad : Nat) : Statement (.homeSliceRead c id bad) := ofNone rfl

theorem Laws.Words.homeSliceWrite (t i : Nat) : Statement (.homeSliceWrite t i) := ofNone rfl

theorem Laws.Words.homeSliceAtomic (c : CoreRef) (id : Nat) : Statement (.homeSliceAtomic c id) := ofNone rfl

theorem Laws.Words.undoLogSpaceFreed (t i : Nat) : Statement (.undoLogSpaceFreed t i) := ofNone rfl

theorem Laws.Words.zeroPendingBackground (chip frame : Nat) : Statement (.zeroPendingBackground chip frame) := ofNone rfl

theorem Laws.Words.zeroPendingTableFreed (t i : Nat) : Statement (.zeroPendingTableFreed t i) := ofNone rfl

theorem Laws.Words.channelRetireRequest (stack ch : Nat) : Statement (.channelRetireRequest stack ch) := ofNone rfl

theorem Laws.Words.pageWalk (t : Nat) (va : BitVec 64) : Statement (.pageWalk t va) := ofNone rfl

theorem Laws.Words.busyReread (c : CoreRef) (id : Nat) : Statement (.busyReread c id) := ofNone rfl

theorem Laws.Words.busyTimeout (c : CoreRef) (id : Nat) : Statement (.busyTimeout c id) := ofNone rfl

theorem Laws.Words.tlbinvComplete (c : CoreRef) : Statement (.tlbinvComplete c) := ofNone rfl

theorem Laws.Words.forcePage (frame : Nat) : Statement (.forcePage frame) := ofNone rfl

theorem Laws.Words.frameStatusRead (frame : Nat) : Statement (.frameStatusRead frame) := ofNone rfl

theorem Laws.Words.pinRetry (t x : Nat) : Statement (.pinRetry t x) := ofNone rfl

theorem Laws.Words.hallocComplete (c : CoreRef) (id : Nat) : Statement (.hallocComplete c id) := ofNone rfl

theorem Laws.Words.hfreeComplete (t h : Nat) : Statement (.hfreeComplete t h) := ofNone rfl

theorem Laws.Words.unitScrubDone (t level : Nat) : Statement (.unitScrubDone t level) := ofNone rfl

theorem Laws.Words.windowLineFill (c : CoreRef) (id : Nat) : Statement (.windowLineFill c id) := ofNone rfl

theorem Laws.Words.transferStart (t x : Nat) : Statement (.transferStart t x) := ofNone rfl

theorem Laws.Words.transferFinish (t x : Nat) : Statement (.transferFinish t x) := ofNone rfl

theorem Laws.Words.transferFault (t x cause : Nat) : Statement (.transferFault t x cause) := ofNone rfl

theorem Laws.Words.slowPathRetry (t x : Nat) : Statement (.slowPathRetry t x) := ofNone rfl

theorem Laws.Words.slowPageSkip (t x : Nat) : Statement (.slowPageSkip t x) := ofNone rfl

theorem Laws.Words.slowPathFinish (t x : Nat) : Statement (.slowPathFinish t x) := ofNone rfl

theorem Laws.Words.matrixStart (t : Nat) : Statement (.matrixStart t) := ofNone rfl

theorem Laws.Words.matrixCompletion (t fringe : Nat) : Statement (.matrixCompletion t fringe) := ofNone rfl

theorem Laws.Words.drainCompletion (t : Nat) : Statement (.drainCompletion t) := ofNone rfl

theorem Laws.Words.multicastReceive (i : Nat) : Statement (.multicastReceive i) := ofNone rfl

theorem Laws.Words.multicastAck (i : Nat) : Statement (.multicastAck i) := ofNone rfl

theorem Laws.Words.barrierArrival (i : Nat) : Statement (.barrierArrival i) := ofNone rfl

theorem Laws.Words.groupRequestArrival (i : Nat) : Statement (.groupRequestArrival i) := ofNone rfl

theorem Laws.Words.zephyrFillRequest (chip ctx : Nat) (req : BitVec 256) : Statement (.zephyrFillRequest chip ctx req) := ofNone rfl

theorem Laws.Words.zephyrFillComplete (chip : Nat) : Statement (.zephyrFillComplete chip) := ofNone rfl

theorem Laws.Words.kick (i : Nat) : Statement (.kick i) := ofNone rfl

theorem Laws.Words.slotLoaded (chip slot : Nat) : Statement (.slotLoaded chip slot) := ofNone rfl

theorem Laws.Words.packetFetch (chip slot : Nat) : Statement (.packetFetch chip slot) := ofNone rfl

theorem Laws.Words.recordPlacement (chip slot : Nat) : Statement (.recordPlacement chip slot) := ofNone rfl

theorem Laws.Words.slotPoll (chip slot : Nat) : Statement (.slotPoll chip slot) := ofNone rfl

theorem Laws.Words.unmapComplete (chip slot : Nat) : Statement (.unmapComplete chip slot) := ofNone rfl

theorem Laws.Words.queueDescriptorWrite (q : Nat) (d : BitVec 128) : Statement (.queueDescriptorWrite q d) := ofNone rfl

theorem Laws.Words.queueDestroy (q : Nat) : Statement (.queueDestroy q) := ofNone rfl

theorem Laws.Words.queueAclWrite (i : Nat) (e : BitVec 64) : Statement (.queueAclWrite i e) := ofNone rfl

theorem Laws.Words.schedulerScan (chip : Nat) : Statement (.schedulerScan chip) := ofNone rfl

theorem Laws.Words.standbyTakeover (chip : Nat) : Statement (.standbyTakeover chip) := ofNone rfl

theorem Laws.Words.cmdMap (c : CoreRef) (w : BitVec 64) : Statement (.cmdMap c w) := ofNone rfl

theorem Laws.Words.cmdUnmap (c : CoreRef) (w : BitVec 64) : Statement (.cmdUnmap c w) := ofNone rfl

theorem Laws.Words.cmdPrio (c : CoreRef) (w : BitVec 64) : Statement (.cmdPrio c w) := ofNone rfl

theorem Laws.Words.grel (c : CoreRef) (w : BitVec 64) : Statement (.grel c w) := ofNone rfl

theorem Laws.Words.journalHalfStore (c : CoreRef) (a : Nat) (w : BitVec 64) : Statement (.journalHalfStore c a w) := ofNone rfl

theorem Laws.Words.qeClear (c : CoreRef) : Statement (.qeClear c) := ofNone rfl

theorem Laws.Words.registerWrite (c : CoreRef) (a : Nat) (w : BitVec 64) : Statement (.registerWrite c a w) := ofNone rfl

theorem Laws.Words.kernelBoundary (k : Nat) : Statement (.kernelBoundary k) := ofNone rfl

theorem Laws.Words.completionStore (k : Nat) : Statement (.completionStore k) := ofNone rfl

theorem Laws.Words.gateAdmit (k : Nat) : Statement (.gateAdmit k) := ofNone rfl

theorem Laws.Words.ringSpaceFreed (c : CoreRef) (id : Nat) : Statement (.ringSpaceFreed c id) := ofNone rfl

theorem Laws.Words.contextCreate (r : BitVec 512) : Statement (.contextCreate r) := ofNone rfl

theorem Laws.Words.creationScrubDone (ctx : Nat) : Statement (.creationScrubDone ctx) := ofNone rfl

theorem Laws.Words.tableStreamRequest (ctx : Nat) (a : BitVec 53) : Statement (.tableStreamRequest ctx a) := ofNone rfl

theorem Laws.Words.quantumExpiry (ctx : Nat) : Statement (.quantumExpiry ctx) := ofNone rfl

theorem Laws.Words.preEmptRequest (ctx : Nat) : Statement (.preEmptRequest ctx) := ofNone rfl

theorem Laws.Words.stopWindowExpiry (ctx : Nat) : Statement (.stopWindowExpiry ctx) := ofNone rfl

theorem Laws.Words.stopRetry (ctx : Nat) : Statement (.stopRetry ctx) := ofNone rfl

theorem Laws.Words.stoplate (ctx : Nat) : Statement (.stoplate ctx) := ofNone rfl

theorem Laws.Words.contextPaused (ctx : Nat) : Statement (.contextPaused ctx) := ofNone rfl

theorem Laws.Words.saveAcknowledge (t : Nat) : Statement (.saveAcknowledge t) := ofNone rfl

theorem Laws.Words.finalCopy (ctx : Nat) : Statement (.finalCopy ctx) := ofNone rfl

theorem Laws.Words.restoreRequest (ctx vx0 vy0 : Nat) : Statement (.restoreRequest ctx vx0 vy0) := ofNone rfl

theorem Laws.Words.restoreVerified (ctx : Nat) (good : Bool) : Statement (.restoreVerified ctx good) := ofNone rfl

theorem Laws.Words.debugStop (ctx : Nat) : Statement (.debugStop ctx) := ofNone rfl

theorem Laws.Words.debugResume (ctx : Nat) : Statement (.debugResume ctx) := ofNone rfl

theorem Laws.Words.debugStep (t : Nat) : Statement (.debugStep t) := ofNone rfl

theorem Laws.Words.debugAccess (t sel i : Nat) (w : Option (BitVec 64)) : Statement (.debugAccess t sel i w) := ofNone rfl

theorem Laws.Words.destroyRequest (ctx : Nat) : Statement (.destroyRequest ctx) := ofNone rfl

theorem Laws.Words.driftIntervalExpiry (chip : Nat) : Statement (.driftIntervalExpiry chip) := ofNone rfl

theorem Laws.Words.driftRequest (p : Nat) : Statement (.driftRequest p) := ofNone rfl

theorem Laws.Words.driftIntervalSet (chip us : Nat) : Statement (.driftIntervalSet chip us) := ofNone rfl

theorem Laws.Words.drainWindowExpiry (chip : Nat) : Statement (.drainWindowExpiry chip) := ofNone rfl

theorem Laws.Words.driftFreeze (chip : Nat) : Statement (.driftFreeze chip) := ofNone rfl

theorem Laws.Words.quiesceComplete (chip : Nat) : Statement (.quiesceComplete chip) := ofNone rfl

theorem Laws.Words.imageComplete (chip : Nat) : Statement (.imageComplete chip) := ofNone rfl

theorem Laws.Words.routerApplyEntry (chip router : Nat) : Statement (.routerApplyEntry chip router) := ofNone rfl

theorem Laws.Words.forwardingEnd (chip : Nat) : Statement (.forwardingEnd chip) := ofNone rfl

theorem Laws.Words.forwardedArrival (chip : Nat) : Statement (.forwardedArrival chip) := ofNone rfl

theorem Laws.Words.driftResume (chip cycles : Nat) : Statement (.driftResume chip cycles) := ofNone rfl

theorem Laws.Words.testComplete (p : Nat) (response : List (BitVec 8)) (cycles : Nat) : Statement (.testComplete p response cycles) := ofNone rfl

theorem Laws.Words.castOff (p reason : Nat) : Statement (.castOff p reason) := ofNone rfl

theorem Laws.Words.routingRewrite (p : Nat) (tab : List Nat) : Statement (.routingRewrite p tab) := ofNone rfl

theorem Laws.Words.testPackageInstall (image : List (BitVec 8)) : Statement (.testPackageInstall image) := ofNone rfl

theorem Laws.Words.retentionEntry (p bank : Nat) : Statement (.retentionEntry p bank) := ofNone rfl

theorem Laws.Words.retentionExit (p bank corrected : Nat) : Statement (.retentionExit p bank corrected) := ofNone rfl

theorem Laws.Words.patrolScrub (p corrected : Nat) : Statement (.patrolScrub p corrected) := ofNone rfl

theorem Laws.Words.recoveryIntervalExpiry (ctx : Nat) : Statement (.recoveryIntervalExpiry ctx) := ofNone rfl

theorem Laws.Words.waveWindowExpiry (ctx : Nat) : Statement (.waveWindowExpiry ctx) := ofNone rfl

theorem Laws.Words.cut (ctx : Nat) : Statement (.cut ctx) := ofNone rfl

theorem Laws.Words.sealPoint (ctx : Nat) : Statement (.sealPoint ctx) := ofNone rfl

theorem Laws.Words.deltaMerge (ctx : Nat) : Statement (.deltaMerge ctx) := ofNone rfl

theorem Laws.Words.seallate (ctx : Nat) : Statement (.seallate ctx) := ofNone rfl

theorem Laws.Words.rollback (ctx : Nat) : Statement (.rollback ctx) := ofNone rfl

theorem Laws.Words.logRead (log n : Nat) : Statement (.logRead log n) := ofNone rfl

theorem Laws.Words.linkTrained (l lanes : Nat) : Statement (.linkTrained l lanes) := ofNone rfl

theorem Laws.Words.laneLost (l : Nat) : Statement (.laneLost l) := ofNone rfl

theorem Laws.Words.retrainTimer (l : Nat) : Statement (.retrainTimer l) := ofNone rfl

theorem Laws.Words.linkTrainRequest (l : Nat) : Statement (.linkTrainRequest l) := ofNone rfl

theorem Laws.Words.flitReceive (l : Nat) (good : Bool) : Statement (.flitReceive l good) := ofNone rfl

theorem Laws.Words.peerDataFlit (port : Nat) (flit : List (BitVec 8)) : Statement (.peerDataFlit port flit) := ofNone rfl

theorem Laws.Words.peerAckFlit (port : Nat) (flit : List (BitVec 8)) : Statement (.peerAckFlit port flit) := ofNone rfl

theorem Laws.Words.peerRefusalFlit (port : Nat) (flit : List (BitVec 8)) : Statement (.peerRefusalFlit port flit) := ofNone rfl

theorem Laws.Words.peerKeepAlive (port : Nat) (flit : List (BitVec 8)) : Statement (.peerKeepAlive port flit) := ofNone rfl

theorem Laws.Words.connectionTimeout (conn : Nat) : Statement (.connectionTimeout conn) := ofNone rfl

theorem Laws.Words.peerlost (conn : Nat) : Statement (.peerlost conn) := ofNone rfl

theorem Laws.Words.hostPostedWrite (port bar addr : Nat) (data : List (BitVec 8)) : Statement (.hostPostedWrite port bar addr data) := ofNone rfl

theorem Laws.Words.hostRead (port bar addr n : Nat) : Statement (.hostRead port bar addr n) := ofNone rfl

theorem Laws.Words.hostAtomicop (port bar addr op : Nat) (x y : BitVec 64) : Statement (.hostAtomicop port bar addr op x y) := ofNone rfl

theorem Laws.Words.powerSample (chip watts : Nat) : Statement (.powerSample chip watts) := ofNone rfl

theorem Laws.Words.capTick (chip : Nat) : Statement (.capTick chip) := ofNone rfl

theorem Laws.Words.freqSetWrite (chip mhz : Nat) : Statement (.freqSetWrite chip mhz) := ofNone rfl

theorem Laws.Words.senseSample (chip mv : Nat) : Statement (.senseSample chip mv) := ofNone rfl

theorem Laws.Words.regulatorRecalibration (chip : Nat) : Statement (.regulatorRecalibration chip) := ofNone rfl

theorem Laws.Words.gustAcknowledge (chip : Nat) : Statement (.gustAcknowledge chip) := ofNone rfl

theorem Laws.Words.gustSettle (chip : Nat) : Statement (.gustSettle chip) := ofNone rfl

theorem Laws.Words.thermalSample (chip : Nat) (readings : List (Nat × Int)) : Statement (.thermalSample chip readings) := ofNone rfl

theorem Laws.Words.thermalLevelDecay (chip : Nat) : Statement (.thermalLevelDecay chip) := ofNone rfl

theorem Laws.Words.alertClear (chip : Nat) : Statement (.alertClear chip) := ofNone rfl

theorem Laws.Words.tileHold (t : Nat) : Statement (.tileHold t) := ofNone rfl

theorem Laws.Words.tileGate (t : Nat) : Statement (.tileGate t) := ofNone rfl

theorem Laws.Words.wakeCause (t : Nat) : Statement (.wakeCause t) := ofNone rfl

theorem Laws.Words.inrushAdmit (chip : Nat) : Statement (.inrushAdmit chip) := ofNone rfl

theorem Laws.Words.wakeComplete (t : Nat) : Statement (.wakeComplete t) := ofNone rfl

theorem Laws.Words.powerOnReset : Statement (.powerOnReset) := ofNone rfl

theorem Laws.Words.bootImageFetched (image : List (BitVec 8)) : Statement (.bootImageFetched image) := ofNone rfl

theorem Laws.Words.bootRetry : Statement (.bootRetry) := ofNone rfl

theorem Laws.Words.controllerReady (chip : Nat) (ranges : List (Nat × Nat × Nat)) : Statement (.controllerReady chip ranges) := ofNone rfl

theorem Laws.Words.attestationRequest (io core : Nat) (nonce : BitVec 512) : Statement (.attestationRequest io core nonce) := ofNone rfl

theorem Laws.Words.senderTimeOut (c : CoreRef) (id : Nat) : Statement (.senderTimeOut c id) := ofNone rfl

theorem Laws.Words.tileHardFailure (p : Nat) : Statement (.tileHardFailure p) := ofNone rfl

theorem Laws.Words.waveRetry (ctx : Nat) : Statement (.waveRetry ctx) := ofNone rfl

theorem Laws.Words.firmwareReload (c : CoreRef) : Statement (.firmwareReload c) := ofNone rfl

end Sys2Proof
end

