-- ==== Sys2Proof/Laws/Route.lean ====
section
/-! SUPPORT. The reset table of a router leads every destination there (15 R249). -/

namespace Sys2Proof.Machine

/-- A router is where its number says. -/
theorem routerPos_routerAt {x y : Nat} (hx : x < 128) (hy : y < 136) : routerPos (routerAt x y) = (x, y) := by
  simp only [routerPos, routerAt, Prod.mk.injEq]
  omega

/-- Steps that are left to a destination column, X first. -/
def hopsLeft (d x y : Nat) : Nat :=
  (x - d % 128) + (d % 128 - x) + (17 * (d / 128) - y) + (y - (17 * (d / 128) + 16))

/-- Where every router has its reset table, none is out of service and no link is FENCED, a way reaches its destination. -/
theorem State.routeOk_reset (s : State) (d : Nat) (hd : d < 1024) (hr : ∀ q, s.route q d = resetRoute q d)
    (hn : ∀ q, s.routerDead q = false) (hl : ∀ l, (s.link l).st ≠ .fenced) (n : Nat) :
    ∀ x y turned, x < 128 → y < 136 → hopsLeft d x y < n → (turned = true → x ≤ d % 128) →
      s.routeOk d n (routerAt x y) turned = true := by
  induction n with
  | zero => intro x y t _ _ h; omega
  | succ n ih =>
    intro x y t hx hy h ht
    have hp := routerPos_routerAt hx hy
    simp only [hopsLeft] at h
    simp only [State.routeOk, hr, hn, resetRoute, hp, Bool.false_or]
    by_cases h1 : x < d % 128
    · have := ih (x + 1) y true (by omega) hy (by simp only [hopsLeft]; omega) (by omega)
      simp [h1, stepDir, hp, show ¬ 127 ≤ x by omega, this]
      split <;> simp [hl]
    · by_cases h2 : d % 128 < x
      · have tf : t = false := by cases t <;> simp_all; omega
        have := ih (x - 1) y false (by omega) hy (by simp only [hopsLeft]; omega) (by simp)
        simp [h1, h2, stepDir, hp, show x ≠ 0 by omega, this, tf]
        split <;> simp [hl]
      · by_cases h3 : y / 17 < d / 128
        · have := ih x (y + 1) true hx (by omega) (by simp only [hopsLeft]; omega) (by omega)
          simp [h1, h2, h3, stepDir, hp, show ¬ 135 ≤ y by omega, this]
          split <;> simp [hl]
        · by_cases h4 : d / 128 < y / 17
          · have := ih x (y - 1) true hx (by omega) (by simp only [hopsLeft]; omega) (by omega)
            simp [h1, h2, h3, h4, stepDir, hp, show y ≠ 0 by omega, this]
            split <;> simp [hl]
          · simp [h1, h2, h3, h4]
            omega

/-- And no two routers turn it west after a hop that is not. -/
theorem State.badTurn_reset (s : State) (d x y : Nat) (hx : x < 128) (hy : y < 136) (hr : ∀ q, s.route q d = resetRoute q d) :
    s.badTurn (routerAt x y) d = false := by
  have hp := routerPos_routerAt hx hy
  by_cases h2 : d % 128 < x
  · have north (z : Nat) (hz : z < 136) : resetRoute (routerAt x z) d = 4 := by
      simp only [resetRoute, routerPos_routerAt hx hz]
      simp [h2, show ¬ x < d % 128 by omega]
    have west : resetRoute (routerAt (x - 1) y) d ≠ 2 := by
      simp only [resetRoute, routerPos_routerAt (show x - 1 < 128 by omega) hy]
      rw [if_neg (by omega)]
      repeat' split
      all_goals decide
    have n : y ≠ 0 → resetRoute (routerAt x (y - 1)) d = 4 := fun h => north _ (by omega)
    have e : y < 135 → resetRoute (routerAt x (y + 1)) d = 4 := fun h => north _ (by omega)
    have x0 : x ≠ 0 := by omega
    simp only [State.badTurn, hr, List.any_cons, List.any_nil, List.getD_cons_succ, List.getD_cons_zero, stepDir, hp, if_neg x0]
    by_cases h0 : y = 0 <;> by_cases h5 : 135 ≤ y
    · omega
    · simp only [if_pos h0, if_neg h5]
      simp [e (by omega), west]
    · simp only [if_neg h0, if_pos h5]
      simp [n h0, west]
    · simp only [if_neg h0, if_neg h5]
      simp [n h0, e (by omega), west]
  · have : resetRoute (routerAt x y) d ≠ 4 := by
      simp only [resetRoute, hp]
      repeat' split
      all_goals decide
    simp [State.badTurn, hr, this]

theorem rangeFrom_length (n a : Nat) : (rangeFrom a n).length = n := by
  induction n generalizing a with
  | zero => rfl
  | succ n ih => simp [rangeFrom, ih]

theorem rangeFrom_getElem? (n a k : Nat) (h : k < n) : (rangeFrom a n)[k]? = some (a + k) := by
  induction n generalizing a k with
  | zero => omega
  | succ n ih =>
    cases k with
    | zero => simp [rangeFrom]
    | succ k => simp only [rangeFrom, List.getElem?_cons_succ]; rw [ih _ _ (by omega)]; congr 1; omega

/-- A router's reset table, written out. -/
def resetTable (p : Nat) : List Nat := (rangeFrom 0 1024).map (resetRoute p)

/-- It is one that R249 allows, where every other router has its own, none is out of service and no link is FENCED. -/
theorem State.resetTable_ok (s : State) {x y : Nat} (hx : x < 128) (hy : y < 136) (ht : ∀ q, (s.ptile q).table = none)
    (hd : s.detour = none) (hn : ∀ q, s.routerDead q = false) (hl : ∀ l, (s.link l).st ≠ .fenced) :
    let p := routerAt x y
    let s' := s.setPtile p { s.ptile p with table := some (resetTable p) }
    (resetTable p).length = 1024 ∧ (∀ e ∈ resetTable p, e ≤ 4) ∧
      ∀ d, d < 1024 → (resetTable p).getD d 15 = resetRoute p d ∧ s'.routeOk d nHops p false = true ∧ s'.badTurn p d = false := by
  intro p s'
  have get (d : Nat) (h : d < 1024) : (resetTable p).getD d 15 = resetRoute p d := by
    simp [resetTable, List.getD_eq_getElem?_getD, rangeFrom_getElem? _ _ _ h]
  have route (d : Nat) (h : d < 1024) (q : Nat) : s'.route q d = resetRoute q d := by
    have e : s'.detour = none := hd
    by_cases hq : q = p
    · subst hq
      have : (s'.ptile p).table = some (resetTable p) := by simp [s', State.setPtile, State.ptile]
      simp only [State.route, this, get d h]
    · have : (s'.ptile q).table = none := by
        have : s'.ptile q = s.ptile q := mget_mput_ne _ _ _ hq
        rw [this, ht]
      simp only [State.route, this, e]
  refine ⟨by simp [resetTable, rangeFrom_length], fun e he => ?_, fun d h => ⟨get d h, ?_, s'.badTurn_reset d x y hx hy (route d h)⟩⟩
  · obtain ⟨d, -, rfl⟩ := List.mem_map.mp he
    simp only [resetRoute]
    repeat' split
    all_goals omega
  · exact s'.routeOk_reset d h (route d h) hn hl nHops x y false hx hy (by simp only [hopsLeft, nHops]; omega) (by simp)

end Sys2Proof.Machine
end

