-- ==== Sys2Proof/Laws/Shapes.lean ====
section
/-! SUPPORT. What each shape of issue does with operands that are readable and valid, and with an invalid one. -/

namespace Sys2Proof.Machine

/-- The encoding checks pass. -/
theorem encCheck_none (k : CoreKind) (m : Bool) (i : Ins) (h1 : privBad k m i = false) (h2 : classBad k i.opc i.aux = false)
    (h3 : i.legal k = true) : encCheck k m i = none := by simp [encCheck, h1, h2, h3]

/-- No opcode below 0x7a and no register marked "sys": nothing here needs system mode. -/
theorem privBad_user (k : CoreKind) (m : Bool) (i : Ins) (h : i.opc < 0x7a) (h' : i.sysReg = false) : privBad k m i = false := by
  simp only [privBad, h', Bool.or_false]
  have : decide (0x7a ≤ i.opc) = false := by simp; omega
  simp [this]

/-- Issue on readable, valid operands of a user instruction permitted on this kind of core. -/
theorem issue_valid (i : Ins) (supp body : CoreRef → State → Act) (s : State) (h : s.ready i.srcs = true)
    (ho : i.opc < 0x7a) (hs : i.sysReg = false) (hc : classBad s.kind i.opc i.aux = false) (hl : i.legal s.kind = true)
    (hn : i.need.all (s.srcOk s.cur) = true) :
    issue i supp body s = .next (finish s.cur i.n i.st (body s.cur s)) := by
  rw [issue_ready _ _ _ s h (encCheck_none _ _ _ (privBad_user _ _ _ ho hs) hc hl), if_pos hn]

/-- The same with an invalid operand among those that suppress it (02 R38). -/
theorem issue_supp (i : Ins) (supp body : CoreRef → State → Act) (s : State) (h : s.ready i.srcs = true)
    (ho : i.opc < 0x7a) (hs : i.sysReg = false) (hc : classBad s.kind i.opc i.aux = false) (hl : i.legal s.kind = true)
    (hn : i.need.all (s.srcOk s.cur) = false) :
    issue i supp body s = .next (finish s.cur i.n i.st (supp s.cur s)) := by
  rw [issue_ready _ _ _ s h (encCheck_none _ _ _ (privBad_user _ _ _ ho hs) hc hl), if_neg (by simp [hn])]

/-- Issue of a system opcode, or of a register marked "sys", where system mode or the kind of core permits it. -/
theorem issue_sys (i : Ins) (supp body : CoreRef → State → Act) (s : State) (h : s.ready i.srcs = true)
    (hp : s.kind = .sysm ∨ (s.core s.cur).sysMode = true) (hc : classBad s.kind i.opc i.aux = false)
    (hl : i.legal s.kind = true) (hn : i.need.all (s.srcOk s.cur) = true) :
    issue i supp body s = .next (finish s.cur i.n i.st (body s.cur s)) := by
  rw [issue_ready _ _ _ s h (encCheck_none _ _ _ ?_ hc hl), if_pos hn]
  rcases hp with hp | hp
  · have : kindOf s.cur = .sysm := hp
    simp [privBad, this]
  · simp [privBad, hp]

/-- The end of an instruction that changed the current core alone. -/
theorem finish_done (s : State) (n : Nat) (st : BitVec 3) (f : Core → Core) :
    finish s.cur n st (.done (s.modCore s.cur f)) = (s.modCore s.cur f).moved n st := by
  simp [finish, State.moved]

/-- The same, where the registers are kept for a replay. -/
theorem finish_eff (s : State) (n : Nat) (st : BitVec 3) (f : Core → Core) :
    finish s.cur n st (.eff (s.modCore s.cur f)) = (s.modCore s.cur f).kept n st := by
  simp [finish, State.kept]

/-- Two scalar operands and a destination are legal and valid. -/
theorem State.two_of (s : State) (a b : BitVec 6) (d : BitVec 5) (hl : s.codes [a, b] d = true) (hg : s.given [a, b] = true) :
    (sLegal s.kind a && sLegal s.kind b && dLegal s.kind d) = true ∧ [Src.s a, .s b].all (s.srcOk s.cur) = true := by
  simp only [State.codes, State.given, List.all_cons, List.all_nil, Bool.and_true, Bool.and_eq_true] at hl hg
  refine ⟨by simp [hl.1.1, hl.1.2, hl.2], ?_⟩
  have h1 : (s.rdS s.cur a).ok = true := hg.1
  have h2 : (s.rdS s.cur b).ok = true := hg.2
  simp [State.srcOk, h1, h2]

/-- One scalar operand and a destination are legal and valid. -/
theorem State.one_of (s : State) (a : BitVec 6) (d : BitVec 5) (hl : s.codes [a] d = true) (hg : s.given [a] = true) :
    (sLegal s.kind a && dLegal s.kind d) = true ∧ [Src.s a].all (s.srcOk s.cur) = true := by
  simp only [State.codes, State.given, List.all_cons, List.all_nil, Bool.and_true, Bool.and_eq_true] at hl hg
  refine ⟨by simp [hl.1, hl.2], ?_⟩
  have h1 : (s.rdS s.cur a).ok = true := hg
  simp [State.srcOk, h1]

/-- A fixed-latency operation of two scalars on valid operands. -/
theorem int2_ready (opc l : Nat) (f : W64 → W64 → W64) (s : State) (st : BitVec 3) (a b : BitVec 6) (d : BitVec 5)
    (ho : opc < 0x7a) (hc : classBad s.kind opc false = false)
    (h : s.ready [.s a, .s b] = true) (hl : s.codes [a, b] d = true) (hg : s.given [a, b] = true) :
    int2 opc l f st a b d s = .next ((s.gives d l ⟨f (s.op a).v (s.op b).v, true⟩).moved 1 st) := by
  have k := s.two_of a b d hl hg
  unfold int2
  rw [issue_valid _ _ _ s h ho rfl hc k.1 k.2]
  exact congrArg _ (finish_done s 1 st _)

/-- A fixed-latency operation of one scalar on a valid operand. -/
theorem int1_ready (opc l : Nat) (f : W64 → W64) (s : State) (st : BitVec 3) (a : BitVec 6) (d : BitVec 5)
    (ho : opc < 0x7a) (hc : classBad s.kind opc false = false)
    (h : s.ready [.s a] = true) (hl : s.codes [a] d = true) (hg : s.given [a] = true) :
    int1 opc l f st a d s = .next ((s.gives d l ⟨f (s.op a).v, true⟩).moved 1 st) := by
  have k := s.one_of a d hl hg
  unfold int1
  rw [issue_valid _ _ _ s h ho rfl hc k.1 k.2]
  exact congrArg _ (finish_done s 1 st _)

/-- An operation with an immediate on a valid operand. -/
theorem intImm_ready (opc l : Nat) (f : W64 → W64) (s : State) (st : BitVec 3) (a : BitVec 6) (d : BitVec 5)
    (ho : opc < 0x7a) (hc : classBad s.kind opc false = false)
    (h : s.ready [.s a] = true) (hl : s.codes [a] d = true) (hg : s.given [a] = true) :
    intImm opc l f st a d s = .next ((s.gives d l ⟨f (s.op a).v, true⟩).moved 1 st) := by
  have k := s.one_of a d hl hg
  unfold intImm
  rw [issue_valid _ _ _ s h ho rfl hc k.1 k.2]
  exact congrArg _ (finish_done s 1 st _)

/-- A division on valid operands: its result is in flight. -/
theorem intVar_ready (f : W64 → W64 → SVal) (s : State) (st : BitVec 3) (a b : BitVec 6) (d : BitVec 5)
    (h : s.ready [.s a, .s b] = true) (hl : s.codes [a, b] d = true) (hg : s.given [a, b] = true) :
    intVar f st a b d s = .next ((s.later .s d (.s (f (s.op a).v (s.op b).v))).kept 1 st) := by
  have k := s.two_of a b d hl hg
  unfold intVar
  rw [issue_valid _ _ _ s h (show 0x10 < 0x7a by decide) rfl (by cases s.kind <;> rfl) k.1 k.2]
  exact congrArg _ (finish_eff s 1 st _)

/-- An operation of two FP32 scalars on valid operands: flags are raised, the result is delivered at latency 4. -/
theorem flt2_ready (opc : Nat) (f : Nat → Nat → FRes) (s : State) (st : BitVec 3) (a b : BitVec 6) (d : BitVec 5)
    (ho : opc < 0x7a) (hc : classBad s.kind opc false = false)
    (h : s.ready [.s a, .s b] = true) (hl : s.codes [a, b] d = true) (hg : s.given [a, b] = true) :
    flt2 opc f st a b d s = .next ((s.modCore s.cur (·.outF d 4 (f (s.op a).f32 (s.op b).f32))).moved 1 st) := by
  have k := s.two_of a b d hl hg
  unfold flt2
  rw [issue_valid _ _ _ s h ho rfl hc k.1 k.2]
  exact congrArg _ (finish_done s 1 st _)

/-- An operation of one FP32 scalar on a valid operand. -/
theorem flt1_ready (opc : Nat) (f : Nat → FRes) (s : State) (st : BitVec 3) (a : BitVec 6) (d : BitVec 5)
    (ho : opc < 0x7a) (hc : classBad s.kind opc false = false)
    (h : s.ready [.s a] = true) (hl : s.codes [a] d = true) (hg : s.given [a] = true) :
    flt1 opc f st a d s = .next ((s.modCore s.cur (·.outF d 4 (f (s.op a).f32))).moved 1 st) := by
  have k := s.one_of a d hl hg
  unfold flt1
  rw [issue_valid _ _ _ s h ho rfl hc k.1 k.2]
  exact congrArg _ (finish_done s 1 st _)

/-- A vector instruction with a vector result: the worker alone has it, no lane suppresses it. -/
theorem vecOp_ready (opc l n : Nat) (srcs : List (BitVec 6)) (leg : Bool) (f : CoreRef → State → VVal × BitVec 5) (s : State)
    (st : BitVec 3) (d : BitVec 5) (ho : opc < 0x7a) (hk : s.kind = .worker) (h : s.ready (srcs.map Src.v) = true)
    (hl : srcs.all vLegal = true) (hd : dvLegal d = true) (he : leg = true) :
    vecOp opc l n srcs leg f st d s =
      .next ((s.modCore s.cur (fun x => (x.raise (f s.cur s).2).outV d l (f s.cur s).1)).moved n st) := by
  unfold vecOp
  rw [issue_valid _ _ _ s h ho rfl (by rw [hk]; rfl) (by simp [hl, hd, he]) rfl]
  exact congrArg _ (finish_done s n st _)

/-- A vector instruction with a scalar result. -/
theorem vecToS_ready (opc l : Nat) (srcs : List (BitVec 6)) (leg : Bool) (f : CoreRef → State → SVal × BitVec 5) (s : State)
    (st : BitVec 3) (d : BitVec 5) (ho : opc < 0x7a) (hk : s.kind = .worker) (h : s.ready (srcs.map Src.v) = true)
    (hl : srcs.all vLegal = true) (hd : dLegal s.kind d = true) (he : leg = true) :
    vecToS opc l srcs leg f st d s =
      .next ((s.modCore s.cur (fun x => (x.raise (f s.cur s).2).outS d l (f s.cur s).1)).moved 1 st) := by
  unfold vecToS
  rw [issue_valid _ _ _ s h ho rfl (by rw [hk]; rfl) (by simp [hl, hd, he]) rfl]
  exact congrArg _ (finish_done s 1 st _)

end Sys2Proof.Machine
end

