-- ==== Sys2Proof/Tests/Slice0.lean ====
section
/-! SUPPORT. Tests: words written from the encoding tables, terms that are not well formed, one step of an instruction of each
family, and states that meet the hypotheses of the statements. -/

namespace Sys2Proof.Tests

set_option Elab.async false

open Sys2Proof Sys2Proof.Machine

/-! ### Small states -/

/-- A valid scalar that has been readable for long. -/
def sv (n : W64) : Cell SVal := ⟨⟨n, true⟩, 0, none⟩

/-- s0 = 7, s1 = 3, s2 invalid, s3 = 0, s4 = 0x100; p0 names handle 1 of tile (0, 0), p1 the tile to its right; v0 holds the
lane numbers, v1 nothing; y0 is a yarn of stream 2 with no known digits. -/
def regs : Regs := { Regs.clear with
  norm := { Bank.clear with s := vset (vset (vset (vset Bank.clear.s 0 (sv 7)) 1 (sv 3)) 3 (sv 0)) 4 (sv 0x100) },
  p := vset (vset Regs.clear.p 0 (sv 0x0000010000000000)) 1 (sv 0x0001010000000000),
  v := vset Regs.clear.v 0 ⟨vecMk (fun i => ⟨BitVec.ofNat 32 i, true⟩), 0, none⟩,
  y := vset Regs.clear.y 0 ⟨⟨0x00020000000000000000000000000000, true⟩, 0, none⟩ }

/-- The machine after reset with one core at the first word of a block at 0x1000. -/
def run (c : CoreRef) (words : List W32) (f : Core → Core) : State :=
  { State.reset.modCore c (fun x => f { x with
      phase := .running, r := regs, blk := ⟨0x1000, 0xb600000000000000 + BitVec.ofNat 64 (words.length * 2 ^ 48), words, 0, 0⟩ }) with
    cur := c }

def words : List W32 := [0, 0, 0, 0, 0]
def worker : State := run (.worker 0) words id
def feeder : State := run (.feeder 0) words id
def system : State := run (.sys 0 0) words id

/-- The cores whose turn it is in these three. -/
def three : List State := [worker, feeder, system]

/-! ### Words written bit by bit from the encoding tables -/

/-- STALL 2, opcode, A s0 (16), B s1 (17), D s3 (4) and FN of format R (03 R49): 010 0010000 010000 010001 00100 00001 is SUB. -/
theorem test_word_sub : decodeWords 0b01000100000100000100010010000001 none = .instr (.sub 2 16 17 4) 1 := by decide

/-- 19 R304's example: `br done`, five units ahead. -/
theorem test_word_br : decodeWords 0x007f0005 none = .instr (.br 0 5) 1 := by decide

/-- 19 R306's example. -/
theorem test_word_loop : decodeWords 0x0193c800 (some 6) = .instr (.loop 0 19 25 6) 2 := by decide

/-- 19 R305's examples. -/
theorem test_word_ret_call : decodeWords 0x015f0002 none = .instr (.ret 0 31) 1 ∧
    decodeWords 0x01540001 none = .instr (.callThroughRegister 0 20) 1 := by decide

/-- 19 R316-R319's examples. -/
theorem test_word_pointers : decodeWords 0x0c000240 none = .instr (.pset 0 0 18) 1 ∧
    decodeWords 0x0c629810 none = .instr (.pinc 0 34 19 16) 1 ∧ decodeWords 0x0d214a80 none = .instr (.poff 0 33 18 20) 1 ∧
    decodeWords 0x0d610062 none = .instr (.pget 0 33 3 2) 1 := by decide

/-- 21 R363's example: MSEND through p3, class 1, template twelve units ahead. -/
theorem test_word_msend : decodeWords 0x1da30100 (some 12) = .instr (.msend 0 35 1 12) 2 := by decide

/-- 22 R387-R389: ERET, INTEN s1, INTDIS s1 and SLEEP. -/
theorem test_word_system : decodeWords 0x1e800000 none = .instr (.eret 0) 1 ∧ decodeWords 0x1ed10000 none = .instr (.inten 0 17) 1 ∧
    decodeWords 0x1ed10001 none = .instr (.intdis 0 17) 1 ∧ decodeWords 0x1f000000 none = .instr (.sleep 0) 1 := by decide

/-! ### Terms that are not well formed -/

theorem test_wf_amo : (Instr.amo 0 16 1 9 0 0 0 17).wf = false ∧ (Instr.amo 0 16 1 8 0 0 0 17).wf = true := by decide
theorem test_wf_cores : (Instr.blockEntry (.worker 16384)).wf = false ∧ (Instr.taskTake (.sys 64 0)).wf = false ∧
    (Instr.sleepWake (.sys 0 2)).wf = false ∧ (Instr.firmwareReload (.mgmt 4 0)).wf = false ∧
    (Instr.blockEntry (.feeder 16383)).wf = true := by decide
theorem test_wf_tiles : (Instr.storeBufferDrain 16384 0).wf = false ∧ (Instr.hfreeComplete 0 256).wf = false ∧
    (Instr.unitScrubDone 0 3).wf = false ∧ (Instr.castOff 17408 0).wf = false := by decide
theorem test_wf_panel : (Instr.slotLoaded 64 0).wf = false ∧ (Instr.slotLoaded 0 64).wf = false ∧
    (Instr.channelRetireRequest 128 0).wf = false ∧ (Instr.channelRetireRequest 0 32).wf = false ∧ (Instr.cut 256).wf = false ∧
    (Instr.logRead 257 1).wf = false ∧ (Instr.logRead 256 1).wf = true ∧ (Instr.linkTrained 324 0).wf = false ∧
    (Instr.hostRead 4 0 0 8).wf = false ∧ (Instr.queueDestroy 65536).wf = false ∧ (Instr.attestationRequest 0 4 0).wf = false := by
  decide

/-! ### Witnesses: encoding, issue, traps and frames -/

theorem test_witness_DecodeEncode : (Instr.add 0 17 0 3).wf = true ∧ encode (.add 0 17 0 3) ≠ [] := by decide
theorem test_witness_EncodeDecode : ∃ i, decodeWords 0x06401000 (some 0xffffffff) = .instr i 2 := ⟨_, rfl⟩

theorem test_witness_UnassignedOpcodes :
    (∀ p ∈ [((.worker 0 : CoreRef), Decoded.unassigned 0x7f, (0x1fc00000 : W32)), (.sys 0 0, .unassigned 0x0a, 0x02800000),
        (.feeder 0, .reserved 0x10, 0x0400001a)],
      let s := run p.1 [p.2.2] id
      s.agenda = [] ∧ s.stuck = false ∧ (s.core s.cur).phase = .running ∧ s.ready [] = true ∧ (s.core s.cur).blk.decoded = some p.2.1) ∧
    0x1fc00000 / 2 ^ 22 % 128 ∈ [0x7f] := by decide +kernel

theorem test_witness_StepRunsDecoded :
    let s := run (.worker 0) [0x04110060] id
    s.agenda = [] ∧ s.stuck = false ∧ (s.core s.cur).phase = .running ∧
    (s.core s.cur).blk.decoded = some (.instr (.add 0 17 0 3) 1) ∧ coreExists (.worker 0) = true ∧ encode .powerOnReset = [] := by
  decide +kernel

theorem test_witness_StepKeepsMemory : State.reset.Canonical ∧ ∃ t, step State.reset = .next t := ⟨rfl, _, rfl⟩
theorem test_witness_MemoryReadAfterWrite : memWf (memWriteN [] 4 [1, 0, 2]) = true ∧ 3 < 4 ∧ 4 + 3 ≤ 7 := by decide +kernel

theorem test_witness_PrivilegeAndClass : (∀ s ∈ three, s.ready [] = true) ∧ worker.kind ≠ .sysm ∧
    (worker.core worker.cur).phase = .running ∧ system.kind = .sysm ∧ feeder.kind ≠ .worker := by decide +kernel

theorem test_witness_IllegalOperands : worker.ready [] = true ∧ (29 : BitVec 5).toNat = 29 ∧ 48 < (49 : BitVec 6).toNat ∧
    12 ≤ (12 : BitVec 5).toNat ∧ 8 ≤ (8 : BitVec 5).toNat ∧ (0 : BitVec 11).toNat = 0 ∧ 14 < (15 : BitVec 11).toNat ∧
    31 < (32 : BitVec 6).toNat ∧ 5 < (6 : BitVec 3).toNat := by decide +kernel

/-- The worker with s0 readable from slot 2 on, s1 awaited, and cr.check as given. -/
def early (b : Bool) : State := worker.modCore (.worker 0) (fun x => { x with check := b, r := { x.r with norm := { x.r.norm with
      s := vset (vset x.r.norm.s 0 ⟨⟨7, true⟩, 2, none⟩) 1 ⟨⟨0, false⟩, 0, some 0⟩ } } })

theorem test_witness_EarlyAndPendingReads : ∀ b ∈ [false, true], (early b).ready [] = true ∧ (early b).codes [16, 19] 1 = true ∧
    ((early b).core (early b).cur).srcPend (.s 16) = false ∧ ((early b).core (early b).cur).srcEarly (.s 16) = true ∧
    ((early b).core (early b).cur).checking = b ∧ ((early b).core (early b).cur).srcPend (.s 17) = true := by decide +kernel

theorem test_witness_InvalidOperandsSuppress : ∀ s ∈ three, s.ready [.s 16, .s 18, .s 17] = true ∧ s.codes [16, 18, 17] 1 = true ∧
    s.given [16, 18, 17] = false ∧ s.given [18, 17] = false ∧ (s.op 18).ok = false ∧ worker.kind ≠ .sysm := by decide +kernel

theorem test_witness_Delivery : (31 : BitVec 5) = 31 ∧ (16 : BitVec 5) ≠ 31 := by decide

/-- A kernel whose only task runs. -/
def kernel : Kernel :=
  { ctx := 1, q := 0, seq := 0, cls := false, float := false, immed := false, wentry := 0x1000, fentry := 0, bx := 0, by' := 0, bw := 1,
    bh := 1, tpt := 1, arg := 5, cword := 0x100, cvalue := 1, scope := 0, prio := 0, group := 0xffff, st := .running, left := 1, placed := 1,
    skind := 0, scode := 0, fflags := 0, yund := false, trapAt := none, trapCode := 0, trapWord := 0, ntrap := 0, boundaryDone := false, xl := none,
    trs := [], xlBad := none }

def task : TaskRec := ⟨0, 0, true, false, 0⟩

/-- The worker at a task of that kernel. -/
def tasked : State := { run (.worker 0) words (fun x => { x with task := some task }) with kernels := [(0, kernel)] }

theorem test_witness_TrapsTaken : (kindOf (.worker 0) ≠ .sysm ∧ (tasked.core tasked.cur).blk.widx < 254 ∧
    (tasked.core tasked.cur).task = some task ∧ mfind tasked.kernels task.kern = some kernel) ∧
    kindOf (.sys 0 0) = .sysm ∧ (system.core (.sys 0 0)).inh = false ∧
    ((run (.sys 0 0) words (fun x => { x with inh := true })).core (.sys 0 0)).inh = true := by decide +kernel

theorem test_witness_RegisterFrames : (∀ s ∈ three, coreExists s.cur = true ∧ (s.core s.cur).sel ≠ .msg ∧
    (s.core s.cur).replayTo ≤ (s.core s.cur).blk.widx) ∧ ∃ t, exec (.add 0 16 17 1) worker = .next t := ⟨by decide +kernel, _, rfl⟩

theorem test_witness_AccessFrames : (coreExists tasked.cur = true ∧ tasked.kind ≠ .sysm ∧ (tasked.core tasked.cur).phase = .running ∧
    (tasked.core tasked.cur).sel ≠ .msg ∧ (tasked.core tasked.cur).replayTo ≤ (tasked.core tasked.cur).blk.widx) ∧
    ∃ t, exec (.nop 0) tasked = .next t := ⟨by decide +kernel, _, rfl⟩

/-! ### Witnesses: integer, pointers, float and vectors -/

theorem test_witness_IntegerResults : ∀ s ∈ three, s.ready [.s 16, .s 17] = true ∧ s.codes [16, 17] 1 = true ∧
    s.given [16, 17] = true ∧ (s.op 17).v ≠ 0 ∧ s.ready [.s 16, .s 19] = true ∧ s.codes [16, 19] 1 = true ∧
    s.given [16, 19] = true ∧ (s.op 19).v = 0 := by decide +kernel

theorem test_witness_ImmediateAndValidityResults : ∀ s ∈ three, s.ready [.s 16] = true ∧ s.codes [16] 31 = true ∧
    s.given [16] = true ∧ s.codes [18] 1 = true ∧ s.given [18] = false ∧ s.ready [] = true ∧ dLegal s.kind 28 = true ∧
    (11 : BitVec 5).toNat < 12 ∧ 12 ≤ (12 : BitVec 5).toNat := by decide +kernel

/-- What an instruction answers at the current core. -/
def after (i : Instr) (s : State) : Option Core :=
  match exec i s with
  | .next t => some (t.core s.cur)
  | _ => none

/-- R310's table: −7 divided by 3 truncates toward zero, and the remainder has the dividend's sign. -/
theorem test_div_truncates :
    let s := run (.worker 0) words (fun x => { x with r := { x.r with norm := { x.r.norm with s := vset (vset x.r.norm.s 0 (sv (-7))) 1 (sv 3) } } })
    ((after (.div 0 16 17 1) s).map (·.flights.map (·.res)), (after (.rem 0 16 17 1) s).map (·.flights.map (·.res))) =
      (some [some (.s ⟨-2, true⟩)], some [some (.s ⟨-1, true⟩)]) := by decide +kernel

theorem test_witness_PointerResults : (worker.ready [.s 32] = true ∧ worker.kind ≠ .sysm ∧ worker.codes [32] 17 = true ∧
    worker.given [32] = true ∧ (worker.op 32).v.toNat / 2 ^ 32 % 256 = 0) ∧ (feeder.ready [.s 32, .s 16] = true ∧
    feeder.codes [32, 16] 24 = true ∧ feeder.given [32, 16] = true) ∧ (4 : BitVec 5).toNat < 5 := by decide +kernel

/-- 02 R31's example: p2 at the end of its handle in column 15 of a partition 16 wide walks to the row below. -/
theorem test_postinc_walk : postinc 0x000f090300000ff0 16 (some 4096) 16 = ⟨0x0100090300000000, true⟩ := by decide +kernel

theorem test_witness_RoundingAndSpecialCases : (0 : Int) < 1 ∧ 0x7f800000 < 0x7fc00001 % 2 ^ 31 ∧ 0x7f800001 / 2 ^ 22 % 2 = 0 ∧
    (0x7f7fffff : Nat) < 0x7f800000 := by decide

theorem test_witness_FloatResults : ∀ s ∈ three, s.ready [.s 16, .s 17] = true ∧ s.codes [16, 17] 1 = true ∧ s.given [16, 17] = true ∧
    s.ready [.s 20] = true ∧ sLegal s.kind 20 = true ∧ (s.op 20).ok = true ∧ (7 : BitVec 5).toNat < 8 := by decide +kernel

theorem test_witness_VectorIntegerResults : worker.kind = .worker ∧ worker.ready [.v 16, .v 32] = true ∧ vLegal 16 = true ∧
    vLegal 32 = true ∧ dvLegal 8 = true := by decide +kernel

theorem test_witness_VectorFloatResults : worker.kind = .worker ∧ worker.ready [.v 16, .v 17] = true ∧ vLegal 17 = true ∧
    worker.ready [.v 18] = true ∧ vLegal 18 = true ∧ dvLegal 31 = true := by decide +kernel

theorem test_witness_VectorMoveAndReduceResults : worker.kind = .worker ∧ worker.ready [.v 16, .v 17] = true ∧
    worker.ready [.v 16, .s 16] = true ∧ (worker.op 16).ok = true ∧ dLegal worker.kind 1 = true ∧ dvLegal 1 = true ∧
    ((worker.opV 16).toList.filter (·.ok)).map (·.v) ≠ [] ∧ ((worker.opV 17).toList.filter (·.ok)).map (·.v) = [] := by decide +kernel
/-! ### Witnesses: control and system -/

/-- The core after the first word of `run`, with some loops on its stack. -/
def looped (n : Nat) : State := run (.feeder 0) words (fun x => x) |>.modCore (.feeder 0) (fun x =>
  { x with r := { x.r with norm := { x.r.norm with loops := List.replicate n ⟨0, 0x2000, 0x3000⟩ } } })

theorem test_witness_BranchesAndLoops : (∀ s ∈ three, s.ready [] = true ∧ s.ready [.s 16] = true ∧ sLegal s.kind 16 = true ∧
    (s.op 16).ok = true ∧ (s.op 16).v.toNat % 8 ≠ 0 ∧ s.ready [.s 18] = true ∧ (s.op 18).ok = false ∧ s.ready [.s 20] = true ∧
    (s.op 20).ok = true ∧ (s.op 20).v.toNat % 8 = 0) ∧
    (let b := (worker.core worker.cur).blk
     b.hdr + BitVec.ofInt 64 (8 * (4 : BitVec 32).toInt) = b.next ∧ b.hdr + BitVec.ofInt 64 (8 * (6 : BitVec 32).toInt) ≠ b.next) ∧
    (looped 4).ready [.s 16] = true ∧ 4 ≤ ((looped 4).core (looped 4).cur).bank.loops.length ∧
    ((looped 3).core (looped 3).cur).bank.loops.length < 4 ∧ ((looped 0).op 16).v.toNat % 2 ^ 32 ≠ 0 ∧
    ((looped 0).op 19).v.toNat % 2 ^ 32 = 0 ∧ (25 : BitVec 5).toNat = 25 := by decide +kernel

/-- 19 R304's example: a CALL in a block at 0x1000 with LEN 5 writes 0x1020 to s15. -/
theorem test_call_link : (after (.call 0 6) worker).map (fun x => (vget ic x.r.norm.s 15).val) = some ⟨0x1020, true⟩ ∧
    (after (.call 0 6) worker).map (·.phase) = some (.entering 0x1030 (.branch 0x1000 0)) := by decide +kernel

theorem test_witness_ExitWaitTrap : (tasked.ready [] = true ∧ tasked.kind ≠ .sysm ∧ (tasked.core tasked.cur).groups = [] ∧
    (tasked.core tasked.cur).task = some task) ∧ (∀ s ∈ three, s.ready [] = true ∧ (s.core s.cur).flights = [] ∧
    s.buffered s.cur = false ∧ s.accOut s.cur = false ∧ s.ready [.s 16] = true ∧ sLegal s.kind 16 = true ∧ (s.op 16).ok = true ∧
    s.clock s.cur < (s.op 16).v.toNat ∧ (s.op 19).v.toNat ≤ s.clock s.cur) ∧ 1 ≤ (14 : BitVec 11).toNat ∧
    (∃ t, exec (.div 0 16 17 1) worker = .next t ∧ t.ready [] = true ∧ (t.core t.cur).flights ≠ []) :=
  ⟨by decide +kernel, by decide +kernel, by decide, _, rfl, by decide +kernel, by decide +kernel⟩

theorem test_witness_ControlRegisters : (∀ s ∈ three, s.ready [.s 16] = true ∧ sLegal s.kind 16 = true ∧ (s.op 16).ok = true ∧
    s.ready [] = true ∧ dLegal s.kind 31 = true ∧ s.flagsOpen s.cur = false ∧ (s.op 18).ok = false) ∧ worker.kind ≠ .sysm ∧
    system.kind = .sysm ∧ system.cur = .sys 0 0 ∧ (system.op 16).v.getLsbD 0 = true := by decide +kernel

/-- A system core in its handler, and a tile core in the save handler. -/
def handling : State := run (.sys 0 0) words (fun x => { x with inh := true, retBlk := 0x4000 })
def saving : State := (run (.worker 0) words id).modCore (.worker 0) (fun x => { x with phase := .saving (some 0x4000) })

theorem test_witness_SystemResults : handling.ready [] = true ∧ handling.kind = .sysm ∧ (handling.core handling.cur).inh = true ∧
    (system.core system.cur).inh = false ∧ system.ready [.s 16] = true ∧ sLegal system.kind 16 = true ∧ (system.op 16).ok = true ∧
    (system.chip 0).active = 0 ∧ (system.core (.sys 0 1)).inh = false ∧ saving.ready [] = true ∧ saving.kind ≠ .sysm ∧
    (saving.core saving.cur).phase = .saving (some 0x4000) := by decide +kernel

/-! ### Witnesses: memory -/

/-- A tensor descriptor of one row of sixteen FP32 elements. -/
def descriptor : BitVec 512 := BitVec.ofNat 512 (5 * 2 ^ 455 + 16 * 2 ^ 416 + 2 ^ 384 + 2 ^ 352 + 2 ^ 320 + 16 * 2 ^ 184 + 2 ^ 168)

/-- A page table at 0x2000 whose first entry leads to 0x4000, where a leaf of 8 GiB maps every right; a descriptor at 0x10000. -/
def pages : Mem := memWriteN (memWriteN [(0x2000, 0x01), (0x2001, 0x40)] 0x4000 [0x3f]) 0x10000 (natBytes 64 descriptor.toNat)

/-- A plain handle of the given level, format, rows and columns. -/
def plain (level fmt rows cols : Nat) : Handle :=
  { st := .allocated, level := level, fmt := fmt, kind := 0, rows := rows, cols := cols, data := [(16, 5)], full := [1], inval := [],
    base := 0, lines := [], pins := [], dirty := [], copy := [] }

def ctx1 : Ctx := { Ctx.init0 with root := 0x2000, width := 16, height := 16, st := .running }

/-- A tile core of a context with memory and handles; s5-s8 point to handles 2-5, s9 = 8, s11 names one tile, s12 = 0x10000. -/
def userScalars (v : Vector (Cell SVal) 16) : Vector (Cell SVal) 16 :=
  vset (vset (vset (vset (vset (vset (vset v 5 (sv 0x20000000000)) 6 (sv 0x30000000000)) 7 (sv 0x40000000000)) 8 (sv 0x50000000000)) 9
    (sv 8)) 11 (sv 0x01010000)) 12 (sv 0x10000)

def userTile (t : VTile) : VTile :=
  { t with ctx := some 1, handles := [(1, plain 0 5 4 64), (2, plain 1 5 8 64), (3, plain 0 10 4 128), (4, plain 2 10 128 64),
      (5, plain 0 10 1 64)] }

def user (c : CoreRef) (f : Core → Core) : State :=
  let s := run c words (fun x => f { x with r := { x.r with norm := { x.r.norm with s := userScalars x.r.norm.s } } })
  { s.modTile 0 userTile with ctxs := [(1, ctx1)], mem := pages }

def both : List State := [user (.worker 0) id, user (.feeder 0) id]

/-- What the checks of an address answer. -/
def passes (r : State × GChk) : Bool := match r.2 with
  | .ok _ z => !z
  | _ => false
def fails (r : State × GChk) : Option Nat := match r.2 with
  | .bad code _ => some code
  | _ => none

theorem test_witness_Translation : (2 : Nat) ^ 53 ≤ (0x20000000000000 : W64).toNat ∧
    (let s := user (.worker 0) id
     let g := s.agentOf s.cur
     s.tlbFind g 0x100 = none ∧ (match s.walk 0x100 3 (s.ctx g.ctx).root with
      | .leaf lv a e => lv == 2 && a == 0x4000 && rightsOk e ⟨true, true, false, true⟩ && !pbit e 63 && e % 256 == (memRead s.mem a).toNat
      | _ => false) = true ∧ s.writable g.ctx 0x4000 = true ∧
     (match s.walk 0x200000000 3 (s.ctx g.ctx).root with
      | .absent => true
      | _ => false) = true ∧
     (match ({ s with mem := memWriteN [] 0x2001 [1] } : State).walk 0x100 3 0x2000 with
      | .busy => true
      | _ => false) = true ∧
     (match (s.translate g 0x100 ⟨true, true, false, true⟩) with
      | (t, .ok pa _) => pa == 0x100 && (t.tlbFind g 0x100).isSome && (memRead t.mem 0x4000).toNat == 0xff
      | _ => false) = true) := by decide +kernel

theorem test_witness_GlobalLoads : ∀ s ∈ both, s.ready [.s 20] = true ∧ s.kind ≠ .sysm ∧ (s.op 20).ok = true ∧
    (s.core s.cur).acqPending = false ∧ dLegal s.kind 1 = true ∧ lsize 3 = some (8, false) ∧ vsize 2 = some (4, false) ∧
    passes (s.gcheck (s.agentOf s.cur) (s.needOf s.cur true false) 8 8 (s.op 20).v) = true ∧
    fails (s.gcheck (s.agentOf s.cur) (s.needOf s.cur true false) 8 8 (s.op 17).v) = some ALIGN ∧ s.ready [.s 20, .s 25] = true ∧
    passes (s.gchecks (s.agentOf s.cur) (s.needOf s.cur true false) 4 4
      ((List.range 16).map (fun i => BitVec.ofNat 64 ((s.op 20).v.toNat + i * (s.op 25).v.toNat)))) = true ∧
    fails (s.gchecks (s.agentOf s.cur) (s.needOf s.cur true false) 4 4
      ((List.range 16).map (fun i => BitVec.ofNat 64 ((s.op 20).v.toNat + i * (s.op 17).v.toNat)))) = some ALIGN ∧
    (s.core s.cur).watches = [] ∧
    (let u := user s.cur (fun x => { x with watches := [⟨1, 0x100, 8, rangeFrom 0x100 8, 0, some ⟨5, true⟩⟩] })
     (u.core u.cur).watches.find? (fun k => k.d == 1 && k.a == (u.op 20).v && k.n == 8) =
       some ⟨1, 0x100, 8, rangeFrom 0x100 8, 0, some ⟨5, true⟩⟩) := by decide +kernel

theorem test_witness_GlobalStores : ∀ s ∈ both, s.ready [.s 20, .s 16] = true ∧ sLegal s.kind 16 = true ∧ (s.op 16).ok = true ∧
    passes (s.gcheck (s.agentOf s.cur) (s.needOf s.cur false true) 8 8 (s.op 20).v) = true ∧ (s.core s.cur).openAcc = false ∧
    fails (s.gcheck (s.agentOf s.cur) (s.needOf s.cur false true) 8 8 (s.op 17).v) = some ALIGN ∧
    s.notifyOf (rangeFrom (s.op 20).v.toNat 8) = [] ∧ s.tagged s.cur < 32 ∧ s.relReady s.cur 5 = true ∧
    s.ready [.s 20, .v 16] = true ∧ anyLane (s.opV 16) = true ∧ s.ready [.s 20, .v 17] = true ∧
    (∀ k ∈ List.range 16, ((s.opV 17).lane k).ok = false) ∧ s.ready [.s 20, .y 16] = true ∧ (s.opY 16).ok = true := by decide +kernel

/-- A system core whose s4 lies above its journal. -/
def firmware : State := run (.sys 0 0) words (fun x => x) |>.modCore (.sys 0 0) (fun x =>
  { x with r := { x.r with norm := { x.r.norm with s := vset x.r.norm.s 4 (sv 0x10000) } } })

theorem test_witness_SystemMemory : firmware.ready [.s 20, .s 16] = true ∧ firmware.kind = .sysm ∧ (firmware.op 20).ok = true ∧
    firmware.cmdWaits 0 0 = false ∧ firmware.ownBusy firmware.cur = false ∧ (firmware.core firmware.cur).flights = [] ∧ (firmware.op 20).v.toNat < 2 ^ 53 ∧ (firmware.op 20).v.toNat % 8 = 0 ∧
    placeOf firmware.cur 0x10000 = .plain ∧ firmware.inJournal firmware.cur 0x10000 = false ∧ dLegal firmware.kind 1 = true ∧
    (firmware.op 16).ok = true ∧ sLegal firmware.kind 16 = true ∧ atomLegal 10 4 false = true := by decide +kernel

/-- The same core with a pointer to the second granule, which is full, or to the first. -/
def pointing (c : CoreRef) (off : Nat) : State := (user c id).modCore c (fun x =>
  { x with r := { x.r with p := vset x.r.p 0 (sv (0x10000000000 + BitVec.ofNat 64 off)) } })

theorem test_witness_PointerAccesses : ∀ c ∈ [(.worker 0 : CoreRef), .feeder 0], (∀ o ∈ [0, 16],
    let s := pointing c o
    let p := (s.op 32).v
    s.ready [.s 32, .s 16] = true ∧ s.kind ≠ .sysm ∧ (s.op 32).ok = true ∧ pWALK p ≤ 3 ∧ s.pcheck s.cur p 8 8 .fe = none ∧
    s.pcheck s.cur p 8 8 .loc = none ∧ s.pcheck s.cur p 2048 1 .loc = some HNDL ∧ (s.core s.cur).acqPending = false ∧
    (s.core s.cur).openAcc = false ∧ s.ptrTile s.cur p = tileOf s.cur ∧ s.bankHeld (tileOf s.cur) ⟨1, o, o + 8⟩ true = false ∧
    (match mfind s.home.handles 1 with
      | some h => h.kind != 1 && h.st == .allocated && !h.lineAbsent o && h.allFull o 8 == (o == 16)
      | none => false) = true ∧
    s.home.consumeAhead s.home.order 1 o 8 = false ∧ s.relReady s.cur 5 = true ∧ (s.op 16).ok = true ∧ (s.op 18).ok = false) ∧
    (let s := user c id
     s.chanHeld s.cur (s.ptrTile s.cur (s.op 33).v) 0 = false ∧ s.ptrTile s.cur (s.op 33).v ≠ tileOf s.cur ∧ s.pcheck s.cur (s.op 33).v 8 8 .loc = none) := by decide +kernel

theorem test_witness_Atomics : (∀ s ∈ both, s.ready [.s 20, .s 16, .s 17] = true ∧ s.given [20, 16, 17] = true ∧
    s.codes [20, 16, 17] 1 = true ∧ passes (s.gcheck (s.agentOf s.cur) (s.needOf s.cur true true) 8 8 (s.op 20).v) = true ∧
    fails (s.gcheck (s.agentOf s.cur) (s.needOf s.cur true true) 8 8 (s.op 17).v) = some ALIGN ∧ s.tagged s.cur < 32 ∧
    (s.ctxOfTile (tileOf s.cur)).repro = false ∧ s.ready [.s 32, .s 16] = true ∧ s.given [32, 16] = true ∧
    s.codes [32, 16] 1 = true ∧ s.pcheck s.cur (s.op 32).v 8 8 .amol = none ∧ s.pcheck s.cur (s.op 32).v 2048 1 .amol = some HNDL ∧
    s.ptrTile s.cur (s.op 32).v = tileOf s.cur ∧ s.pcheck s.cur (s.op 33).v 8 8 .amol = none ∧
    s.ptrTile s.cur (s.op 33).v ≠ tileOf s.cur) ∧ ((8 : Nat) = 4 ∨ (8 : Nat) = 8) := by decide +kernel

theorem test_witness_Fences : ∀ s ∈ both, s.ready [] = true ∧ s.relReady s.cur 5 = true ∧ (s.core s.cur).openAcc = false ∧
    (s.core s.cur).acqPending = false ∧ s.ready [.s 20] = true ∧
    (let u := user s.cur (fun x => { x with flights := [{ Flight.base with kind := .await }] })
     u.ready [] = true ∧ u.relReady u.cur 0 = false ∧ (u.core u.cur).openAcc = true) ∧
    (let u := s.modTile 0 (fun t => { t with sbuf := [⟨[(0x100, 1)], !isFeeder s.cur, 0, 9, [], false, false, false, none, 8, none, 0, []⟩] })
     u.ready [] = true ∧ u.relReady u.cur 5 = false ∧ (u.core u.cur).openAcc = false) := by decide +kernel

/-- A core with one access held, number 4, besides what else it has in flight. -/
def heldBy (c : CoreRef) (op : HeldOp) (rel : Option Nat) (l : List Flight) : State := (user c id).modCore c (fun x =>
  { x with flights := l ++ [{ Flight.base with id := 4, kind := .held ⟨op, rel, 0⟩ }], nextId := 5 })
  |>.modTile 0 (fun t => { t with order := 1 })

/-- One held access of each kind that the statement names. -/
def heldOps : List HeldOp :=
  [.st [(0x100, 7)] 1 false [] 0, .ld (rangeFrom 0x100 8) false, .atom ⟨0x100, 8, 0, 1, 0, 9, false, none⟩,
    .bank 1 16 (.store [(16, 9)] 1 false), .bank 1 16 (.load 8 0), .acc 1 1 0 (.load 8 0), .acc 1 1 0 (.store [(0, 1)] 1 false),
    .msg 1 ⟨0, 0, 0, [], [], none, .worker 0, 0⟩, .grp 1 ⟨3, 0, 0, 0⟩]

theorem test_witness_HeldAccesses : ∀ c ∈ [(.worker 0 : CoreRef), .feeder 0],
    (∀ op ∈ heldOps, let s := heldBy c op none []
      coreExists c = true ∧ (s.core c).flight? 4 ≠ none ∧ s.movingC c = false ∧ s.heldReady c 4 ⟨op, none, 0⟩ = true ∧ s.msgLoad 1 < 16 ∧
      (s.core c).acqPending = true ∧ s.heldReady c 4 ⟨op, some 5, 0⟩ = true ∧
      (let u := heldBy c op none [{ Flight.base with kind := .await, acq := some 2 }]
       u.heldReady c 4 ⟨op, none, 0⟩ = false)) ∧
    (let s := heldBy c (.ld (rangeFrom 0x100 8) false) none []
     s.ready [.s 20, .s 16] = true ∧ s.kind ≠ .sysm ∧ (s.op 20).ok = true ∧
     passes (s.gcheck (s.agentOf s.cur) (s.needOf s.cur true false) 8 8 (s.op 20).v) = true ∧
     passes (s.gcheck (s.agentOf s.cur) (s.needOf s.cur false true) 8 8 (s.op 20).v) = true ∧
     s.notifyOf (rangeFrom (s.op 20).v.toNat 8) = []) ∧
    (let s := heldBy c (.acc (absTile ctx1 1 0) 1 0 (.load 8 0)) none []
     s.pcheck s.cur (s.op 32).v 8 8 .loc = none ∧ s.ptrTile s.cur (s.op 32).v = tileOf s.cur ∧
     s.home.engineHolds ⟨pH (s.op 32).v, pOFF (s.op 32).v, pOFF (s.op 32).v + 8⟩ false = false ∧
     s.pcheck s.cur (s.op 33).v 8 8 .loc = none ∧ s.ptrTile s.cur (s.op 33).v ≠ tileOf s.cur ∧
     s.chanHeld s.cur (s.ptrTile s.cur (s.op 33).v) 0 = true) ∧
    (let s := heldBy c (.grp (absTile ctx1 0 0) ⟨3, 0, 0, 0⟩) none []
     (s.op 19).v.toNat ≤ 4095 ∧ (s.op 16).v.toNat ≤ 1023 ∧ s.chanHeld s.cur (s.homeOf s.cur (s.op 19).v.toNat) 0 = true) := by
  decide +kernel

/-! ### Witnesses: yarns, handles, barriers and groups -/

/-- The worker with s0 = n and y1 a yarn of stream 3 with no known digits. -/
def drawing (n : W64) : State := worker.modCore (.worker 0) (fun x => { x with r := { x.r with
  norm := { x.r.norm with s := vset x.r.norm.s 0 (sv n) }, y := vset x.r.y 1 ⟨⟨0x00030000000000000000000000000000, true⟩, 0, none⟩ } })

theorem test_honest (s : State) (y : YVal) (h : y.ok = true) (hs : (y.sel != 0xffff) = true) (hn : y.n = 0) (hb : y.bits = 0) :
    s.honest y = true := by
  have h0 := (zf128 (s.ctxOfTile (tileOf s.cur)).key 0x59 y.sel y.pos 0).isLt
  have h1 := (zf128 (s.ctxOfTile (tileOf s.cur)).key 0x59 y.sel y.pos 1).isLt
  have hd : s.digits y / 2 ^ 256 = 0 := by
    simp only [State.digits]
    omega
  simp only [State.honest, h, hs, hn, hb, Nat.sub_zero, hd, Nat.zero_mul]
  rfl

theorem test_streams_differ : zf128 0 0x59 2 0 0 ≠ zf128 0 0x59 3 0 0 := by
  simp [zf128, Zf.rounds, Zf.round, keyWord]

theorem test_witness_YarnResults : (∀ s ∈ [drawing 0xffff, drawing 7], s.ready [.s 16, .s 17, .y 16, .y 17] = true ∧
    s.kind = .worker ∧ s.given [16, 17] = true ∧ s.given [18, 17] = false ∧ yLegal 16 = true ∧ (s.opY 18).ok = false ∧
    s.ready [.y 18] = true) ∧ (drawing 0xffff).home.ytab = 0 ∧ ((drawing 7).op 16).v.toNat = 7 ∧
    ((drawing 0xffff).op 16).v.toNat = 0xffff := by decide +kernel

theorem test_witness_StochasticRounding :
    (match Fmt.fp32.val 7, Fmt.fp32.val 0x7fc00001, Fmt.fp32.val 0x7f800000, Fmt.fp32.val 0xcf000001 with
      | .fin false m e, .nan _, .inf false, .fin true n f =>
        (m * 2 ^ e.toNat : Nat) % 2 ^ (-e).toNat != 0 && decide (-(n * 2 ^ f.toNat : Int) / 2 ^ (-f).toNat < -2 ^ 31)
      | _, _, _, _ => false) = true ∧ (0x3f800000 % 2 ^ 16 = 0 ∧ 0x3f800001 % 2 ^ 16 ≠ 0 ∧ 0x3f800001 / 2 ^ 16 % 2 ^ 15 < 0x7f7f ∧
    0x7f7f0001 / 2 ^ 16 % 2 ^ 15 = 0x7f7f) := by decide +kernel

theorem test_witness_Yarns : ((drawing 7).honest ((drawing 7).opY 16) = true ∧ (drawing 7).honest ((drawing 7).opY 17) = true ∧
    ((drawing 7).opY 16).sel ≠ ((drawing 7).opY 17).sel) :=
  ⟨test_honest _ _ rfl rfl rfl rfl, test_honest _ _ rfl rfl rfl rfl, by decide⟩

theorem test_high (a b c d : BitVec 128) (h : a.toNat * 2 ^ 128 + b.toNat = c.toNat * 2 ^ 128 + d.toNat) : a = c := by
  have hb := b.isLt
  have hd := d.isLt
  exact BitVec.eq_of_toNat_eq (by omega)

theorem test_witness_YarnsDiffer : (drawing 7).digits ((drawing 7).opY 16) ≠ (drawing 7).digits ((drawing 7).opY 17) := by
  intro h
  simp only [State.digits, show ((drawing 7).ctxOfTile (tileOf (drawing 7).cur)).key = 0 by decide +kernel,
    show ((drawing 7).opY 16).sel = 2 by decide +kernel, show ((drawing 7).opY 16).pos = 0 by decide +kernel,
    show ((drawing 7).opY 17).sel = 3 by decide +kernel, show ((drawing 7).opY 17).pos = 0 by decide +kernel] at h
  exact test_streams_differ (test_high _ _ _ _ h)

/-- A core about to make a window of one page with the descriptor in s0, and one that waits in HFREE. -/
def descWord : W64 := BitVec.ofNat 64 (5 * 2 ^ 58 + 4 * 2 ^ 32 + 64 * 2 ^ 16)
def describing : State := (user (.worker 0) id).modCore (.worker 0) (fun x => { x with r := { x.r with norm := { x.r.norm with
  s := vset (vset x.r.norm.s 0 (sv descWord)) 1 (sv 0x2000) } } })
def freeing (n : Nat) : State := user (.worker 0) (fun x => { x with began := some n })

theorem test_witness_HandleResults : (describing.ready [.s 16] = true ∧ describing.kind ≠ .sysm ∧ describing.codes [16] 1 = true ∧
    (describing.op 16).ok = true ∧ describing.home.numberFree 9 = true ∧ describing.home.numberFree 1 = false ∧
    (⟨0, 5, 0, 4, 64⟩ : Desc).good = true ∧ (⟨0, 5, 0, 0, 64⟩ : Desc).good = false ∧
    descOf (describing.op 16).v = ⟨0, 5, 0, 4, 64⟩ ∧ unitsFor 0 1024 ≤ describing.home.freeUnits 0) ∧
    (let s := describing.modTile 0 (fun t => { t with handles := [(1, plain 0 5 1024 1024)] })
     s.ready [] = true ∧ s.home.numberFree 9 = true ∧ s.home.freeUnits 0 < unitsFor 0 1024) := by decide +kernel

theorem test_witness_HandleResults_windows : (describing.op 17).v.toNat % 8192 = 0 ∧ (describing.op 19).v.toNat % 8192 = 0 ∧
    (describing.op 20).v.toNat % 8192 ≠ 0 ∧ (match describing.winPages describing.cur (describing.op 17).v 1 with
      | (t, frames, none) => frames.length == 1 && decide (8192 / 4096 + t.home.scrubbing 0 ≤ t.home.freeUnits 0) && !t.pinRefused frames
      | _ => false) = true ∧
    describing.home.scrubbed ⟨9, 0, 2, describing.home.order⟩ = true ∧
    (let t := describing.home
     ({ t with scrub := [t.freeUnits 0, 0, 0] } : VTile).scrubbed ⟨9, 0, 2, t.order⟩ = false ∧
     ({ t with scrub := [t.freeUnits 0, 0, 0] } : VTile).freeUnits 0 = t.freeUnits 0) ∧
    (describing.core describing.cur).began = none ∧ (describing.handleIn 0 1).isSome = true ∧ describing.handleIn 0 9 = none ∧
    (∀ n ∈ [255, 256], (freeing n).ready [.s 16] = true ∧ ((freeing n).core (freeing n).cur).began = some n) := by decide +kernel

/-- A core whose s0 names a barrier and s1 holds a word, with the barrier as given. -/
def barred (c : CoreRef) (n w : W64) (b : Barrier) : State := (user c id).modCore c (fun x =>
    { x with r := { x.r with norm := { x.r.norm with s := vset (vset x.r.norm.s 0 (sv n)) 1 (sv w) } } })
  |>.modTile 0 (fun t => { t with bars := mput t.bars n.toNat b })

theorem test_witness_BarrierResults :
    (∀ c ∈ [((.worker 0 : CoreRef), (255 : W64)), (.feeder 0, 256)],
      let s := barred c.1 c.2 0x40000000008 ⟨false, 0, 0, 0, 0, 0, 0, []⟩
      let e := (s.op 17).v.toNat
      s.ready [.s 16, .s 17] = true ∧ s.codes [16, 17] 1 = true ∧ s.given [16, 17] = true ∧ (s.op 16).v.toNat / 2 ^ 9 % 2 ^ 7 = 0 ∧
      isFeeder s.cur = decide (256 ≤ (s.op 16).v.toNat % 512) ∧ e / 2 ^ 43 = 0 ∧ e / 2 ^ 32 = 1024 ∧
      (s.home.bar ((s.op 16).v.toNat % 512)).init = false ∧ (s.core s.cur).acqPending = false ∧ s.relReady s.cur 1 = true) ∧
    (let b : Barrier := ⟨true, 5, 2, 0, 8, 1, 8, []⟩
     let s := barred (.worker 0) 3 4 b
     s.home.bar 3 = b ∧ (b.phase.toNat + 2 ^ 32 - 4) % 2 ^ 32 = 1 ∧ b.phase.toNat % 2 ≠ 4 % 2 ∧ b.cnta + 1 = b.basea ∧ b.expb ≤ b.cntb ∧
     b.expb + 4 ≤ 2 ^ 32 - 1 ∧ b.cntb < b.expb + 4) ∧
    (let b : Barrier := ⟨true, 5, 2, 0, 8, 0, 4, []⟩
     b.cnta + 1 ≠ b.basea ∧ b.cntb ≤ b.expb ∧ (b.phase.toNat + 2 ^ 32 - 5) % 2 ^ 32 = 0 ∧ b.phase.toNat % 2 = 5 % 2) ∧
    (⟨true, 0, 0, 8, 8, 0, 0, []⟩ : Barrier).cnta = (⟨true, 0, 0, 8, 8, 0, 0, []⟩ : Barrier).basea := by decide +kernel

/-- A member, as number 3, of the group 0, whose record stands at tile 0. -/
def member : State := (user (.worker 0) (fun x => { x with groups := [⟨0, 3, 0⟩] })).modTile 0
  (fun t => { t with groups := [(0, { Group.init0 with map := 8, count := 1, gph := [(3, 0)] })] })

theorem test_witness_GroupResults : member.ready [.s 19, .s 16] = true ∧ member.codes [19, 16] 1 = true ∧ member.given [19, 16] = true ∧
    (member.op 19).v.toNat ≤ 4095 ∧ (member.op 16).v.toNat ≤ 1023 ∧ 4095 < (member.op 21).v.toNat ∧ member.ready [.s 21] = true ∧
    (member.core member.cur).memberOf 0 = some 3 ∧ (member.core member.cur).memberOf 7 = none ∧ member.relReady member.cur 2 = true ∧
    member.chanHeld member.cur (member.homeOf member.cur 0) 0 = false ∧ 0 < ctx1.width ∧ 0 < ctx1.height ∧ ((member.tile 0).grp 0).map.getLsbD 3 = true ∧ ((member.tile 0).grp 0).map.getLsbD 1023 = false ∧
    (member.core (.feeder 0)).memberOf 0 = none ∧ (member.core (.feeder 0)).groups.length < 4 ∧
    ((member.tile 0).grp 0).count ≠ 0 ∧ member.mayBeMember member.cur 0 = true ∧ member.mayBeMember member.cur 7 = false ∧
    (let s := member.modCore (.worker 0) (fun x => { x with r := { x.r with norm := { x.r.norm with
       s := vset (vset x.r.norm.s 4 (sv 0x8000)) 5 (sv 0x8007) } } })
     s.ready [.s 20, .s 16] = true ∧ s.codes [20, 16] 1 = true ∧ s.given [20, 16] = true ∧ (s.op 20).v.toNat = 2 ^ 15 + 0 ∧
     (s.op 21).v.toNat = 2 ^ 15 + 7 ∧ (s.core s.cur).acqPending = false ∧ s.mayBeMember s.cur 0 = true ∧ s.mayBeMember s.cur 7 = false)
    := by decide +kernel

/-! ### Witnesses: engines, messages, launches and DONE -/

/-- A core with s0 at a global address or second pointer, s1 a byte count and s2 the number of one transfer waited for. -/
def moving (c : CoreRef) (g n : W64) : State := (user c id).modCore c (fun x => { x with r := { x.r with norm := { x.r.norm with
  s := vset (vset (vset x.r.norm.s 0 (sv g)) 1 (sv n)) 2 (sv 0) } } })

theorem test_witness_TransferResults : ∀ c ∈ [(.worker 0 : CoreRef), .feeder 0],
    (let s := moving c 0x10000000200 64
     let ptr (q : W64) : Option Nat := s.engPtr (tileOf s.cur) q (fun _ => true) (fun _ => 64) (fun _ => 8)
     s.ready [.s 32, .s 16, .s 17, .s 18] = true ∧ s.codes [32, 16, 17, 18] 1 = true ∧ s.given [32, 16, 17, 18] = true ∧
     ptr (s.op 32).v = none ∧ ptr (s.op 16).v = none ∧ ptr (s.op 33).v ≠ none ∧ pOFF (s.op 32).v + 64 ≤ pOFF (s.op 16).v ∧
     s.home.boardFull = false ∧ s.home.chanFull 3 = false ∧ (s.op 20).v.toNat % 8 = 0) ∧
    (let s := moving c 0x01010000 12
     boxTiles (s.ctxOfTile 0) (s.op 16).v ≠ none ∧ boxTiles (s.ctxOfTile 0) 0 = none ∧ (s.op 17).v.toNat % 8 ≠ 0) ∧
    (let s := moving c 0x10000 0
     let p := (s.op 32).v
     s.ready [.s 32, .s 16, .s 17, .s 18] = true ∧ s.given [32, 16, 17, 18] = true ∧
     s.engPtr (tileOf s.cur) p (fun _ => true) (fun _ => 0) (fun _ => 1) = none ∧ s.engHold s.cur = false ∧
     passes (s.gcheck (s.agentOf s.cur) (s.needOf s.cur true true) 8 8 (s.op 16).v) = true ∧
     fails (s.gcheck (s.agentOf s.cur) (s.needOf s.cur true false) 8 8 0x1000000000000) = some PAGE ∧
     (match s.gcheck (s.agentOf s.cur) (s.needOf s.cur true false) 64 64 (s.op 16).v with
      | (t, .ok pas false) =>
        let w := lineBits (pas.map (memRead t.mem))
        let h := t.engH (tileOf s.cur) p
        descGood w 0 && h.fmt == dFmt w && decide (dRow w ≤ rowBytes h.fmt h.cols) &&
          decide (pOFF p + (dTile1 w - 1) * rowBytes h.fmt h.cols + dRow w ≤ h.extent) && pOFF p % dUnit w == 0 &&
          !t.home.boardFull && !t.home.chanFull 0
      | _ => false) = true ∧ descGood 0 0 = false ∧
     (0 + 2 ^ 32 - (vget 0 s.home.chNext 0).toNat) % 2 ^ 32 < 2 ^ 31) ∧
    (let s := (moving c 0 0).modTile 0 (fun t => { t with chNext := vset t.chNext 0 2, chDone := vset t.chDone 0 1 })
     2 ^ 31 ≤ (0 + 2 ^ 32 - (vget 0 s.home.chNext 0).toNat) % 2 ^ 32 ∧ ((vget 0 s.home.chDone 0).toNat + 2 ^ 32 - 0) % 2 ^ 32 = 1 ∧
     ((vget 0 s.home.chDone 0).toNat + 2 ^ 32 - 1) % 2 ^ 32 = 0) := by decide +kernel

theorem test_witness_MatrixResults :
    (let s := user (.worker 0) id
     s.ready [.v 16] = true ∧ s.kind = .worker ∧ vLegal 16 = true) ∧
    (let s := moving (.worker 0) 0x10000000000 8
     let here := tileOf s.cur
     s.ready [.s 21, .s 22, .s 23, .s 24, .s 17] = true ∧ s.codes [21, 22, 23, 24, 17] 0 = true ∧ s.given [21, 22, 23, 24, 17] = true ∧
     s.home.boardFull = false ∧ s.home.matFull = false ∧
     s.engPtr here (s.op 21).v Handle.isAcc (fun _ => 256 * 8) (fun _ => 256) = none ∧
     s.engPtr here (s.op 22).v (fun h => h.level == 0 && h.fmt == ctxFmt 0 && decide (ctxDepth 0 ≤ h.rowB))
       (fun h => 4 * h.rowB) (fun h => h.rowB) = none ∧
     s.engPtr here (s.op 23).v (fun h => h.level == 2 && h.fmt == ctxFmt 0) (fun h => 128 * h.rowB) (fun h => h.rowB) = none ∧
     pOFF (s.op 23).v / (s.engH here (s.op 23).v).rowB % 8 = 0 ∧
     s.engPtr here (s.op 22).v (fun _ => true) (fun _ => 4 * 4) (fun _ => 4) = none ∧
     s.engPtr here (s.op 16).v (fun h => h.level == 0 && drainFmt h.fmt && decide (64 ≤ h.cols))
       (fun h => (4 - 1) * h.rowB + rowBytes h.fmt 64) (fun h => elemBytes h.fmt) = none ∧
     s.engPtr here (s.op 16).v (fun h => h.level == 0 && h.fmt == 5) (fun _ => 4 * 8) (fun _ => 4) = none ∧
     s.engPtr here (s.op 24).v (fun h => h.level == 0 && h.fmt == 10) (fun _ => 5 * 8 / 8) (fun _ => 1) = none ∧
     pH (s.op 16).v ≠ pH (s.op 24).v ∧ 4 ≤ ctxRows 0 ∧ ctxRows 0 < 257 ∧ (257 : Nat) % 8 ≠ 0) := by decide +kernel

/-- A tile core of a context whose s0 names the tile at row 15 and column 15, s1 the one below it. -/
def sendScalars (v : Vector (Cell SVal) 16) : Vector (Cell SVal) 16 :=
  vset (vset (vset (vset v 0 (sv 0x0f0f000000000000)) 1 (sv 0x100f000000000000)) 2 (sv 8)) 3 (sv 0x10000)

def sending (c : CoreRef) : State := (user c id).modCore c (fun x =>
  { x with r := { x.r with norm := { x.r.norm with s := sendScalars x.r.norm.s } } })

/-- The same with a queue of that context, enabled or off. -/
def launching (c : CoreRef) (en : Bool) : State :=
  { sending c with queues := [(8, ⟨0x40000, 6, 1, 0, true, 0, 0, en, false⟩)] }

theorem test_witness_MessageLaunchDone : ∀ c ∈ [(.worker 0 : CoreRef), .feeder 0],
    (let s := sending c
     s.ready [.s 16, .s 20, .s 19, .s 18, .s 17, .s 16] = true ∧ s.kind ≠ .sysm ∧ sLegal s.kind 16 = true ∧ (s.op 16).ok = true ∧
     pVX (s.op 16).v < (s.ctxOfTile 0).width ∧ (s.op 16).v.toNat / 2 ^ 56 < (s.ctxOfTile 0).height ∧
     (s.ctxOfTile 0).height ≤ (s.op 17).v.toNat / 2 ^ 56 ∧
     (match s.fetchN s.cur ((s.core s.cur).blk.hdr + BitVec.ofInt 64 (8 * (12 : BitVec 32).toInt)) 2 with
      | (t, .ok l) => l.length == 16 && !(t.core t.cur).acqPending && !(t.core t.cur).openAcc &&
          !t.chanHeld t.cur (t.ptrTile s.cur (s.op 16).v) 1 && decide (t.msgLoad (t.ptrTile s.cur (s.op 16).v) < 16)
      | _ => false) = true) ∧
    (∀ b ∈ [true, false],
      let s := launching c b
      s.ready [.s 19, .s 18] = true ∧ s.codes [19, 18] 0 = true ∧ s.given [19, 18] = true ∧ (s.core s.cur).phase = .running ∧
      (s.op 19).v.toNat % 64 = 0 ∧ (s.op 18).v.toNat % 2 ^ 16 = 8 ∧
      (match mfind s.queues 8 with
        | some u => u.en == b && s.ctxOfCore s.cur == some u.ctxn
        | none => false) = true ∧ mfind s.queues 65535 = none ∧ (s.core s.cur).acqPending = false ∧
      (s.core s.cur).flights.any Flight.isOpenLoad = false ∧
      (match s.gcheck (s.agentOf s.cur) (s.needOf s.cur true false) 64 64 (s.op 19).v with
        | (t, .ok _ false) => decide (t.tagged s.cur < 32)
        | _ => false) = true) ∧
    (let s := sending c
     s.ready [.s 19, .s 18] = true ∧ s.codes [19, 18] 0 = true ∧ s.given [19, 18] = true ∧
     fails (s.gcheck (s.agentOf s.cur) (s.needOf s.cur false true) 8 8 (s.op 16).v) = some PROT) ∧
    (∀ b ∈ [true, false],
     let s := { sending c with memMap := if b then [⟨0, 0x400000000, 0⟩] else [] }
     (match s.gcheck (s.agentOf s.cur) (s.needOf s.cur false true) 8 8 (s.op 19).v with
      | (t, .ok (pa :: pas) false) => !(t.core t.cur).acqPending && t.relReady t.cur 5 && t.writable 1 pa && t.inHbm pa == b &&
          !t.undoFull 1 (linesOf (pa :: pas)) && !t.immediateK none && decide ((t.chip (t.gateChip none 0)).gate.length < 1024)
      | _ => false) = true) := by decide +kernel

/-- A feeder in a stitch message, and a core in the replay of a block whose first word's effect was released. -/
def stitching : State := run (.feeder 0) words (fun x =>
  { x with sel := .msg, msgRun := some ({ src := 1, cls := 1, seq := 0, tpl := [], pay := [], kern := none, c := .worker 1, at' := 0 }, x.blk) })
def replaying : State := run (.worker 0) words (fun x => { x with replayTo := 1, replay := [⟨0, none, none⟩] })

theorem test_witness_MessagesAndReplay : (coreExists stitching.cur = true ∧ stitching.kind = .feeder ∧
    (stitching.core stitching.cur).sel = .msg ∧ (stitching.core stitching.cur).msgRun.isSome = true ∧
    stitching.stopped stitching.cur = false ∧ (stitching.core stitching.cur).held = false) ∧
    (coreExists replaying.cur = true ∧ (replaying.core replaying.cur).phase = .running ∧ replaying.stopped replaying.cur = false ∧
    (replaying.core replaying.cur).held = false ∧ (replaying.core replaying.cur).sel ≠ .msg ∧
    (replaying.core replaying.cur).blk.widx < (replaying.core replaying.cur).replayTo ∧
    ((replaying.core replaying.cur).replay.find? (fun k => k.word == (replaying.core replaying.cur).blk.widx)).isSome = true ∧
    (16 : BitVec 6).toNat ≤ 31 ∧ replaying.codes [16, 16] 1 = true) := by decide +kernel

/-! ### Witnesses: the events of cores -/

/-- A tile core of the context that is at the entry of the block at 0x20000, whose header is given. -/
def entering (head : W64) (how : Entry) (f : Core → Core) : State :=
  { user (.worker 0) (fun x => f { x with phase := .entering 0x20000 how }) with mem := memWriteN pages 0x20000 (natBytes 8 head.toNat) }

def tagAt (s : State) : Option Nat := match s.fetch8 (.worker 0) 0x20000 with
  | (_, .ok l) => some (leNat l / 2 ^ 48)
  | _ => none

/-- A bank with counter k0 = n. -/
def counting (n : SVal) : Bank := { Bank.clear with k := vset Bank.clear.k 0 (Cell.mk0 n) }

theorem test_witness_BlockEntry :
    (let x := fun (n : SVal) => (vget ic (counting n).k 0).val
     (x ⟨1, true⟩).ok = true ∧ (x ⟨1, true⟩).v.toNat ≤ 1 ∧ 1 < (x ⟨2, true⟩).v.toNat ∧ (x iz).ok = false) ∧
    (∀ p ∈ [((0xb601000000000000 : W64), 0xb601), (0xb5fe000000000000, 0xb5fe), (0xb500000000000000, 0xb500), (0xb6ff000000000000, 0xb6ff),
        (0x0101000000000000, 0x0101)], ∀ how ∈ [Entry.fall, .branch 0x1000 0, .start, .interrupt, .direct],
      let s := entering p.1 how (fun x => x)
      coreExists (.worker 0) = true ∧ (s.core (.worker 0)).phase = .entering 0x20000 how ∧ (s.core (.worker 0)).held = false ∧
      (s.core (.worker 0)).bank.resolve 0x20000 (s.core (.worker 0)).bank.loops = ((s.core (.worker 0)).bank, 0x20000) ∧
      (s.core (.worker 0)).sel ≠ .msg ∧ (s.core (.worker 0)).bank.loopWaits 0x20000 = false ∧
      tagAt s = some p.2 ∧ (s.core (.worker 0)).stepOnce = false ∧ s.pauseWanted 0 = false) ∧
    (let s := (run (.sys 0 0) words (fun x => { x with phase := .entering 0x20000 .fall, mc := true }))
     (s.fetch8 (.sys 0 0) 0x20000).1 = s ∧ s.irq (.sys 0 0) = some 3 ∧
     (run (.sys 0 0) words (fun x => { x with phase := .entering 0x20000 .fall })).irq (.sys 0 0) = none) := by decide +kernel

/-- A core with results in flight: a scalar, a vector and a yarn. -/
def delivering : State := user (.worker 0) (fun x => { x with flights := [{ Flight.base with id := 4, res := some (.s ⟨7, true⟩) },
  { Flight.base with id := 5, res := some (.v vz), kern := some 0 }, { Flight.base with id := 6, res := some (.y yz) }] })

theorem test_witness_DeliveryReplayWaking :
    (∀ id ∈ [4, 5, 6], (match (delivering.core (.worker 0)).flight? id with
      | some f => f.res.isSome && f.kind == .plain && f.acq == none
      | none => false) = true) ∧
    (delivering.core (.worker 0)).task.map (·.kern) = none ∧ delivering.movingC (.worker 0) = false ∧
    mfind ({ delivering with kernels := [(0, kernel)] } : State).kernels 0 = some kernel ∧
    (∀ n ∈ [0, 3], let s := user (.worker 0) (fun x => { x with shadow := some x.r, replayTo := n })
      (s.core (.worker 0)).phase = .running ∧ (s.core (.worker 0)).shadow.isSome = true ∧ (s.core (.worker 0)).replayTo = n ∧
      (s.core (.worker 0)).sel ≠ .msg ∧ (s.tile 0).ctx = some 1 ∧ (s.ctx 1).st = .running) ∧
    (let s := run (.sys 63 0) words (fun x => { x with phase := .sleeping 0x1000, ien := 4, qe := true })
     coreExists (.sys 63 0) = true ∧ (s.core (.sys 63 0)).phase = .sleeping 0x1000 ∧ (s.core (.sys 63 0)).ien.getLsbD 2 = true ∧
     (s.core (.sys 63 0)).qe = true) ∧
    (let s := { run (.sys 0 0) words (fun x => { x with phase := .sleeping 0x1000, ien := 1, timecmp := 5 }) with time := 5 }
     (s.core (.sys 0 0)).ien.getLsbD 0 = true ∧ (s.core (.sys 0 0)).timecmp.toNat ≤ s.time) := by decide +kernel

/-- An idle worker whose tile, or whose neighbour, holds two task records. -/
def idling (own other : List TaskRec) (st : Steal) : State :=
  { ((user (.worker 0) (fun x => { x with phase := .idle, steal := st })).modTile 0 (fun t => { t with wdq := own })).modTile 1
      (fun t => { t with wdq := other }) with kernels := [(0, kernel), (1, { kernel with group := 7 })], time := 1000 }
def quietSteal : Steal := ⟨0, 0, 0, 0, none, false⟩

theorem test_witness_TaskEntryAndStealing :
    (∀ k ∈ [0, 1], let s := idling [⟨0, 0, true, false, 0⟩, ⟨k, 1, true, false, 1⟩, ⟨0, 2, true, false, 1⟩] [] quietSteal
      s.canStart (.worker 0) = true ∧ (mfind s.kernels k).isSome = true ∧ (s.core (.worker 0)).groups = [] ∧
      (s.tile 0).deque false = [⟨0, 0, true, false, 0⟩] ++ ⟨k, 1, true, false, 1⟩ :: [⟨0, 2, true, false, 1⟩]) ∧
    (let s := idling [] [] quietSteal
     s.canStart (.worker 0) = true ∧ (s.ctxOfTile 0).repro = false ∧ (s.core (.worker 0)).steal.since + 1000 ≤ s.time ∧
     (s.tile 0).deque false = [] ∧ (victim (ctxTiles (s.ctxOfTile 0)) 0 0 256 1 0).isSome = true ∧
     ({ s with ctxs := [(1, { ctx1 with repro := true })] } : State).canStart (.worker 0) = true) ∧
    (let s := idling [] [⟨0, 0, true, false, 0⟩] ⟨0, 0, 1, 7, some 1, false⟩
     s.canStart (.worker 0) = true ∧ (s.core (.worker 0)).steal.victim = some 1 ∧ s.moving 1 = false ∧ ∀ r ∈ (s.tile 1).deque false, r.float = false) ∧
    (let s := idling [] [⟨0, 0, true, false, 1⟩, ⟨0, 1, true, true, 0⟩] ⟨0, 0, 1, 7, some 1, false⟩
     (s.tile 1).deque false = [⟨0, 0, true, false, 1⟩] ++ ⟨0, 1, true, true, 0⟩ :: []) ∧
    (let s := idling [] [] ⟨0, 0, 8, 8, none, true⟩
     (s.core (.worker 0)).steal.backoff = true ∧ (s.core (.worker 0)).steal.since + 1000 ≤ s.time) := by decide +kernel

/-! ### Witnesses: the events of channels and memory -/

/-- One item at the head of its channel from tile 1 to tile 0. -/
def item (b : NetBody) : NetItem :=
  { src := 1, dst := 0, cls := 1, seq := 0, c := .worker 1, id := 4, body := b, kern := none, at' := 0, flit := none, hop := 0, parked := false }

/-- The machine with that item under way, awaited by a flight of the sender. -/
def arriving (b : NetBody) : State :=
  { (user (.worker 0) id).modCore (.worker 1) (fun x => { x with flights := [{ Flight.base with id := 4, kind := .await }] }) with
    net := [item b] }

def aMsg : Msg := { src := 1, cls := 1, seq := 0, tpl := [0, 0, 0, 0], pay := [iz, iz, iz, iz, iz], kern := none, c := .worker 1, at' := 0 }

/-- It is ready, and lands where `seen` is false. -/
def there (s : State) (b : NetBody) (seen : Bool) : Bool :=
  s.itemReady 0 == some (item b) && (s.physOf 0).isSome && (s.driftAt 0).isNone && (s.tile 0).power == .busy &&
    (s.tile 0).seen (item b) == seen

/-- A message handler's state: an idle feeder with one message, or one held at issue with a result still to come. -/
def queued (f : Core → Core) : State := (user (.feeder 0) f).modTile 0 (fun t => { t with msgs := [aMsg] })

/-- A load, a consuming load, a store and an atomic of tile 1 at an offset of a handle of tile 0. -/
def ops : List RemOp := [.load 8 0, .load 8 2, .store [(16, 1)] 1 true, .atomic ⟨0, 8, 0, 1, 0, 0, false, none⟩]

theorem test_witness_MessageAndRemoteEvents :
    (there (arriving (.msg aMsg)) (.msg aMsg) false = true ∧
     there ((arriving (.msg aMsg)).modTile 0 (fun t => { t with chIn := [(9, 1)] })) (.msg aMsg) true = true ∧
     ({ arriving (.msg aMsg) with cols := [(0, Vector.replicate 16 31)] } : State).physOf 0 = none ∧
     ({ arriving (.msg aMsg) with cols := [(0, Vector.replicate 16 31)] } : State).itemReady 0 = some (item (.msg aMsg))) ∧
    (let s := queued (fun x => { x with phase := .idle })
     (s.tile 0).msgs = aMsg :: [] ∧ (s.tile 0).feeder.msgRun = none ∧ (s.tile 0).feeder.phase = .idle ∧ s.queuesOnly 0 = false) ∧
    (let s := queued (fun x => { x with blocked := true, awaits := true })
     let x := (s.tile 0).feeder
     x.phase = .running ∧ x.blocked = true ∧ x.awaits = true ∧ x.msgRun = none ∧ s.queuesOnly 0 = false ∧
     (queued (fun x => { x with phase := .entering 0x20000 .fall })).queuesOnly 0 = false) ∧
    (∀ op ∈ ops, ∀ o ∈ [(0, 1008), (1, 16), (1, 1017), (9, 0), (4, 0)],
      let b := NetBody.acc o.1 o.2 op
      there (arriving b) b false = true ∧ (arriving b).netHeld 0 = false ∧ ((arriving b).core (.worker 1)).flight? 4 ≠ none) ∧
    (let v := (arriving (.msg aMsg)).tile 0
     (match mfind v.handles 1, mfind v.handles 4 with
      | some h, some g => h.st == .allocated && h.kind == 0 && h.level == 0 && decide (1016 + 8 ≤ h.extent) && decide (h.extent < 1017 + 8) &&
          h.allFull 16 8 && !h.allFull 0 8 && !v.consumeAhead v.order 1 16 8 && g.level == 2
      | _, _ => false) = true) ∧
    (let w : WaitE := ⟨.worker 1, 4, 1, 16, 8, true, 1⟩
     let s := (arriving (.msg aMsg)).modTile 0 (fun t => { t with waits := [⟨.worker 2, 4, 1, 0, 8, true, 0⟩, w] })
     coreExists w.c = true ∧ s.waitTile w.c w.id = some 0 ∧ s.frozen 0 = false ∧ (s.core w.c).flight? w.id ≠ none ∧
     (s.tile 0).consumeAhead 1 1 16 8 = false ∧ s.sleeps 0 1 16 8 = false) := by decide +kernel

def aXfer : Xfer :=
  { xid := 0, ch := 3, kind := 1, feeder := false, dir := 0, post := false, bar := 3, hnd := 1, off := 0, hnd2 := 0, off2 := 0, gaddr := 0,
    total := 8, doneb := 8, rbox := 0, origin := [], desc := 0, st := .running, cause := 0, sent := true, acks := 1, pins := [],
    foot := ⟨[], []⟩, kern := none, order := 0, after := 0 }

/-- A held store behind one flight: each reason for which it may not be performed, and none. -/
theorem test_witness_HeldAccesses_waits : ∀ c ∈ [(.worker 0 : CoreRef), .feeder 0],
    (let st : HeldOp := .st [(0x100, 7)] 1 false [] 0
     let s := heldBy c st none [{ Flight.base with kind := .await }]
     (((s.core c).before 4).any (fun f => f.isRead && f.isAccess) = true ∧ st.writes = true) ∧
     ((((heldBy c st none [{ Flight.base with kind := .held ⟨st, none, 0⟩ }]).core c).before 4).flatMap (·.writePas)).contains 0x100 = true) ∧
    (let s := heldBy c (.bank 1 16 (.load 8 0)) none [{ Flight.base with kind := .held ⟨.bank 1 16 (.load 8 0), none, 0⟩ }]
     ((s.core c).before 4).any (fun f => f.heldHandle == some 1) = true) ∧
    (let far : HeldOp := .acc 1 1 0 (.load 8 0)
     let s := heldBy c far none [{ Flight.base with kind := .held ⟨far, none, 0⟩ }]
     far.chan = some (1, 0) ∧ (s.tile (tileOf c)).chanBefore (1, 0) 1 = true) ∧
    (let s := (heldBy c (.bank 1 16 (.load 8 0)) none []).modTile 0 (fun t => { t with xfers := [{ aXfer with order := 1, foot := ⟨[⟨1, 0, 16⟩], [⟨1, 0, 16⟩]⟩ }] })
     ((s.core c).before 4) = [] ∧ (s.tile (tileOf c)).engineBefore 2 ⟨1, 0, 24⟩ false = true ∧
     (s.tile (tileOf c)).engineBefore 0 ⟨1, 0, 24⟩ true = false) ∧
    (let s := (heldBy c (.st [(0x100, 7)] 1 false [] 0) (some 5) []).modTile 0 (fun t => { t with
        sbuf := [⟨[(0x100, 1)], !isFeeder c, 0, 9, [], false, false, false, none, 8, none, 0, []⟩] })
     wide 5 = true ∧ (s.tile (tileOf c)).sbuf.any (fun e => e.feeder != isFeeder c && decide (e.ord ≤ 0)) = true) := by decide +kernel

/-- The machine where tile 0 has a group 7 with two members, of which the sender of the item is number 1. -/
def grouped (b : NetBody) (arr : List Nat) : State :=
  ((arriving b).modTile 0 (fun t => { t with
    groups := [(7, { Group.init0 with map := 3, count := 2, gph := [(0, 0), (1, 0)], arr := arr })] })).modCore (.worker 1)
      (fun x => { x with groups := [⟨7, 1, 0⟩] })

theorem test_witness_ArrivalEvents :
    (∀ h ∈ [1, 9], let b := NetBody.mcast h 0 [1, 2, 3, 4, 5, 6, 7, 8] 3 true 3 0
      there (arriving b) b false = true ∧ (arriving b).netHeld 0 = false ∧
      (match mfind ((arriving b).tile 0).handles h with
        | some x => x.takes 0 (.load 8 0)
        | none => h == 9) = true) ∧
    (∀ c ∈ [false, true], let b := NetBody.mack 3 3 0 c
      there (arriving b) b false = true ∧ (∀ n ∈ [1, 2],
        ((arriving b).modTile 0 (fun t => { t with xfers := [{ aXfer with acks := n }] })).tile 0 |>.xfers.find?
          (fun y => y.kind == 1 && y.ch == 3 && y.xid == 0) |>.isSome)) ∧
    (let x : Barrier := ⟨true, 0, 2, 8, 8, 1, 8, []⟩
     x.init = true ∧ x.cnta + 1 = x.basea ∧ x.expb ≤ x.cntb) ∧
    (let x : Barrier := ⟨true, 0, 2, 8, 8, 1, 7, []⟩
     x.cnta < x.basea ∧ ¬ (x.cnta + 1 = x.basea ∧ x.expb ≤ x.cntb)) ∧
    (∀ k ∈ [0, 4, 5, 6, 7], ∀ gen ∈ [0, 1], let b := NetBody.grp ⟨k, 7, gen, 0⟩
      there (grouped b []) b false = true ∧ coreExists (item b).c = true ∧ ((grouped b []).core (.worker 1)).flight? 4 ≠ none ∧
      ((grouped b []).core (.worker 1)).memberAt gen 7 = if gen = 0 then some 1 else none) ∧
    (let s := arriving (.grp ⟨0, 7, 0, 1023⟩)
     let g := (s.tile 0).grp 7
     g.map.getLsbD 1023 = false ∧ (s.core (.worker 1)).memberAt 0 7 = none ∧
     (s.core (.worker 1)).groups.countP (fun e => e.gen == 0) < 4 ∧ g.wait = [] ∧ g.gwait = []) ∧
    (let g := ((grouped (.msg aMsg) []).tile 0).grp 7
     let g' := ((grouped (.msg aMsg) [0]).tile 0).grp 7
     g.map.getLsbD 0 = true ∧ 1 ∉ g.arr ∧ g.count ≠ 0 ∧ ¬ (∀ e ∈ g.gph, e.1 = 1 ∨ e.1 ∈ g.arr) ∧ (∀ e ∈ g'.gph, e.1 = 1 ∨ e.1 ∈ g'.arr) ∧
     tokOpen g.phase 0 = true ∧ tokOpen g.phase 0xffffffff = false ∧ g.phase.getLsbD 0 ≠ (1 : W64).getLsbD 0) := by decide +kernel

/-- A core of tile 0 with one flight of a kind, number 4, and a store at address 0x100 in the tile's buffer. -/
def flying (k : FKind) : State :=
  user (.worker 0) (fun x => { x with flights := [{ Flight.base with id := 4, kind := k, kern := some 0 }], task := some task })
def aStore (sent stuck : Bool) (kick : List Nat) : SBEntry :=
  ⟨[(0x100, 1)], false, 4, 9, kick, false, sent, stuck, none, 8, none, 0, []⟩
def storing (e : SBEntry) : State := (flying .await).modTile 0 (fun t => { t with sbuf := [e] })

theorem test_witness_HomeSliceEvents :
    (∀ e ∈ [aStore false false [], aStore true false [], aStore true true [8]], let s := storing e
      (s.tile 0).sbuf[0]? = some e ∧
      s.undoFull 1 (linesOf (e.bytes.map (·.1))) = false ∧ e.zp = false ∧ s.writable 1 ((e.bytes.map (·.1)).headD 0) = true) ∧
    (aStore true true []).sent = true ∧
    (let e : SBEntry := { aStore true false [] with bytes := [(0x100, 1), (0x108, 2)] }
     e.bytes.filter (fun b => !(b.1 / max e.u 1 == (e.bytes.headD (0, 0)).1 / max e.u 1)) = [(0x108, 2)] ∧
     ∀ o ∈ [e].take 0, ∀ a ∈ o.bytes, ∀ b ∈ e.bytes, a.1 ≠ b.1) ∧
    (let s := flying (.load ((rangeFrom 0x100 8).map (fun a => ⟨a, none⟩)) false)
     (s.core (.worker 0)).flight? 4 ≠ none ∧ s.earlier (.worker 0) 4 (rangeFrom 0x100 8) = false ∧ s.memShut (s.coreRouter (.worker 0)) (rangeFrom 0x100 8) = false ∧
     s.movingC (.worker 0) = false ∧ (s.unitAt 0x100).all (fun u => !(s.hbmCh u.1 u.2).retired) = true) ∧
    (let a : AtomReq := ⟨0x100, 8, 0, 1, 0, 9, false, none⟩
     let s := flying (.atomic a)
     (s.core (.worker 0)).flight? 4 ≠ none ∧ (mget [] (s.chip 0).tags (agentNo (.worker 0))).find? (fun t => t.1 == 9) = none ∧
     (s.core (.worker 0)).readBefore 4 = false ∧ s.sbufAhead (.worker 0) 4 (rangeFrom 0x100 8) = false ∧
     s.undoFull 1 (linesOf (rangeFrom 0x100 8)) = false ∧ s.writable 1 0x100 = true ∧ (s.homeChip 0x100).getD 0 = 0 ∧
     s.movingC (.worker 0) = false ∧ 0 < a.n ∧ a.zp = false ∧
     (mget [] ((s.modChip 0 (fun x => { x with tags := [(agentNo (.worker 0), [(9, 5)])] })).chip 0).tags (agentNo (.worker 0))).find?
       (fun t => t.1 == 9) = some (9, 5)) := by decide +kernel

/-- A line's record, and a state whose undo log holds as many of them as it can. -/
def aRecord : UndoE := ⟨1, 5, 0, []⟩
def undoing : State :=
  { (user (.worker 0) id).modChip 1 (fun x => { x with undo := List.replicate undoCap aRecord }) with
    ctxs := [(1, { ctx1 with points := [⟨5, .pending, 0, [], [], none⟩] })], memMap := [⟨0, 0x400000000, 0⟩] }

theorem test_witness_UndoFull : undoing.undoFull 1 [1] = true := by
  have h1 : undoing.logsUndo 1 = true := rfl
  have hh : undoing.homeChip 256 = some 1 := by decide +kernel
  have hu : (undoing.chip 1).undo = List.replicate undoCap aRecord := rfl
  simp [State.undoFull, State.undoNeeds, h1, hh, hu, List.any_replicate, aRecord]

/-! ### Witnesses: translation, handles and engines -/

def aFrame (z : List Nat) : ZpE := ⟨[0x4000], 8192, z⟩
def zeroing (z : List Nat) : State := { (user (.worker 0) id).modChip 0 (fun x => { x with zp := [(0, aFrame z)] }) with
  memMap := [⟨0, 0x400000000, 0⟩] }

/-- Two handles: one that is being freed, and a window over the page at 0. -/
def windowed (st : HState) (k : FKind) : State := (flying k).modTile 0 (fun t => { t with
  handles := [(1, { plain 0 5 4 64 with st := .freeing }), (7, { plain 0 0 8 1024 with st := st, kind := 1, pins := [0] })],
  waits := [⟨.worker 1, 4, 1, 0, 8, false, 0⟩] })

theorem test_witness_PageAndHandleEvents :
    (∀ z ∈ [[], [0, 1], List.range 32], let s := zeroing z
      mfind (s.chip 0).zp 0 = some (aFrame z) ∧ z.Pairwise (· < ·) ∧ (∀ l ∈ z, 0 / 256 ≤ l)) ∧
    (∀ k, k < (aFrame (List.range 32)).len / 256 → 0 / 256 + k ∈ List.range 32) ∧
    (zeroing [0, 1]).zpAt (256 * (0 / 256 + 2)) = some (0, 0, aFrame [0, 1]) ∧
    (∀ e ∈ (zeroing []).chips, e.2.zp.length < 4096) ∧
    (worker.hbmCh 127 31).retired = false ∧
    (({ worker with hbm := [(32 * 127 + 31, ⟨[], true⟩)] } : State).hbmCh 127 31).retired = true ∧
    (let s := user (.worker 0) id
     (s.tile 0).ctx = some 1 ∧ s.tlbFind { ctx := 1, tile := some 0, chip := chipOf 0 } 0x100 = none ∧
     (match s.walk 0x100 3 (s.ctx 1).root with
      | .leaf _ a e => !pbit e 63 && s.writable 1 a
      | _ => false) = true) ∧
    (let s := flying (.busy [0x100] none)
     passes (s.gchecks (s.agentOf (.worker 0)) (s.needOf (.worker 0) true false) 8 1 [0x100]) = true ∧
     [(0x100 : W64)].find? ({ s with mem := memWriteN [] 0x2001 [1] }.isBusy (.worker 0)) = some 0x100 ∧
     (s.core (.worker 0)).task.map (·.kern) = some 0 ∧ s.movingC (.worker 0) = false) ∧
    (let s := flying (.tlbinv 1 2 0)
     ((s.core (.worker 0)).flights.find? (fun f => match f.kind with
        | .tlbinv _ _ _ => true
        | _ => false)).isSome = true ∧ s.usesOld 1 2 0 = false) ∧
    (let s := flying (.halloc 9 descWord 0)
     let v := s.tile 0
     v.held 0 + v.scrubbing 0 + unitsFor 0 (descOf descWord).extent ≤ unitTotal 0 ∧ s.movingC (.worker 0) = false ∧
     ∀ b ∈ v.allocs, b.level = (descOf descWord).level → 0 ≤ b.ord) ∧
    (let s := windowed .allocated .await
     match mfind (s.tile 0).handles 1 with
      | some x => x.st == .freeing && !s.handleBusy 0 1 && decide (x.level < (s.tile 0).scrub.length)
      | none => false) = true ∧
    (∀ st ∈ [HState.allocated, .stale], let s := windowed st (.window 7 64)
      (mfind (s.tile 0).handles 7).map (fun x => (x.st, x.isStale)) = some (st, st == .stale) ∧ s.zpAt 0 = none ∧ s.moving 0 = false) := by decide +kernel

/-- A tile with one transfer; handle 1 of it has 1,024 bytes. -/
def transferring (x : Xfer) : State := (user (.worker 0) id).modTile 0 (fun t => { t with xfers := [x] })
def aCopy (dir total doneb : Nat) (st : XSt) (g : W64) : Xfer :=
  { aXfer with kind := 0, dir := dir, hnd2 := 1, off2 := 512, total := total, doneb := doneb, gaddr := g, st := st, sent := false, acks := 0 }

theorem test_witness_EngineEvents :
    (let k := aCopy 2 64 0 .queued 0
     let s := transferring k
     (s.tile 0).xfer? 0 = some k ∧ s.frozen 0 = false ∧ (s.ctxOfTile 0).fault = false ∧ s.asleep 0 = false ∧
     s.xferHeld 0 k = false ∧ ∀ f ∈ (s.tile 0).feet, f.1 < k.order → f.2.clash k.foot = false) ∧
    (let k := aCopy 2 64 60 .running 0
     let s := transferring k
     k.doneb < k.total ∧ (mfind (s.tile 0).handles k.hnd).isSome = true ∧ (mfind (s.tile 0).handles k.hnd2).isSome = true) ∧
    (let k := aCopy 0 64 0 .running 0x100
     k.hopLen 16 = 16 ∧ (match (transferring k).xferXls 0 k false ((rangeFrom 0 16).map (fun i => some (k.gaddr + BitVec.ofNat 64 i))) with
      | (_, _, (_, false, .moved)) => true
      | _ => false) = true) ∧
    (let k := aCopy 2 64 64 .running 0
     let r := ((transferring k).xferMove 0 k 65).2
     r.st = .running ∧ r.total ≤ r.doneb) ∧
    (let k := { aXfer with sent := false, rbox := 0x01010000 }
     (boxTiles ((transferring k).ctxOfTile 0) (k.rbox.setWidth 64)).isSome = true) ∧
    ((transferring (aCopy 0 64 0 .slow 0x1ffffff00000)).xferBad 0 (aCopy 0 64 0 .slow 0x1ffffff00000)).map (·.1) = some 1 ∧
    (let k := aCopy 0 64 64 .slow 0
     k.total ≤ k.doneb ∧ k.post = false ∧ k.ch < 4) := by decide +kernel

/-- A worker's tile with one matrix and one drain command of the running task. -/
def aCmd (kind : Nat) (run : Bool) : MCmd :=
  { kind := kind, fmt := FmtCtx.none, ah := 2, aoff := 0, bh := 4, boff := 0, ch := 1, coff := 0, ih := 0, ioff := 0, m := 1, zero := true,
    rm := 0, post := false, bar := 0, running := run, foot := ⟨[], []⟩, gen := 0, kern := some 0, order := 5, after := 0,
    did := 0, flags := 0 }
def multiplying (run : Bool) : State := (flying .await).modTile 0 (fun t => { t with mq := [aCmd 0 run], dq := [aCmd 2 false] })

theorem test_witness_MatrixEvents : (∀ b ∈ [true, false], let s := multiplying b
    s.mcmdHeld 0 (aCmd 0 b) = false ∧ s.asleep 0 = false ∧ s.mcmdHeld 0 (aCmd 2 false) = false ∧ (s.tile 0).mq = aCmd 0 b :: [] ∧ (s.tile 0).dq = aCmd 2 false :: [] ∧ s.frozen 0 = false ∧ (s.ctxOfTile 0).fault = false ∧
    (s.tile 0).heldBack 5 ⟨[], []⟩ = false ∧ (s.tile 0).worker.task.isSome = true ∧ (s.tile 0).worker.gen = (aCmd 0 b).gen ∧ (s.tile 0).ctx = some 1 ∧
    (s.ctx 1).st = .running ∧ (mfind (s.tile 0).handles 1).isSome = true ∧ (s.physOf 0).isSome = true) ∧
    (let q : BitVec 256 := BitVec.ofNat 256 (2 ^ 171 + 5 * 2 ^ 155)
     let f (lo k : Nat) : Nat := q.toNat / 2 ^ lo % 2 ^ k
     f 0 62 = 0 ∧ f 155 16 ≠ 0xffff ∧ f 171 32 ≠ 0 ∧ f 203 53 % 16 = 0 ∧ f 62 53 % 8 = 0 ∧ f 115 40 + f 171 32 ≤ 2 ^ 40) ∧
    (worker.chip 63).zeph = none := by decide +kernel

/-- An MDRAIN of two rows that stops after its first (15 R239): one row is left, a row's bytes further on. -/
theorem test_drain_stops_at_a_row :
    (((((multiplying false).modTile 0 (fun t => { t with dq := [{ aCmd 2 false with m := 2 }] })).drainHead 0
      (fun s m => s.drainRows 0 m 1)).tile 0).dq.map (fun m => (m.m, m.did, m.aoff))) = [(1, 1, 256)] := by decide +kernel

/-- A fill with nothing left writes its completion word. -/
def filling : State := (user (.worker 0) id).modChip 0 (fun x => { x with zeph := some ⟨1, 0x200, 0, 5, 0, 0x100, none⟩ })

theorem test_witness_ZephyrEvents : (∀ z : Zephyr, z.count = 0 → filling.zephyrFill 0 z 1 = (filling, z, .ok)) ∧
    (match filling.sysWrite 1 0 42000 ⟨false, true, false, true⟩ 0x100 (natBytes 8 1) with
      | (_, .ok) => true
      | _ => false) = true := ⟨fun _ h => by simp [State.zephyrFill, h], by decide +kernel⟩

/-! ### Witnesses: queues, slots, the scheduler and kernels -/

def aQueue (en : Bool) : Queue := ⟨0x40000, 6, 1, 1, false, 0, 0, en, false⟩

/-- A packet: version 1, one primary task of the entry block at 0x1000 on the tile at (0, 0), no group. -/
def aPacket : List Byte :=
  [1, 0, 0, 0, 0, 0, 0, 0, 0, 0x10, 0, 0, 0, 0, 0, 0, 0, 0, 0, 0, 0, 0, 0, 0, 0, 0, 1, 1, 1, 0, 0, 0] ++ List.replicate 26 0 ++
    [0xff, 0xff, 0, 0, 0, 0]

/-- The queue 8 with WIDX = w, in a slot of chiplet 0, and the packet at index 0. -/
def slotted (st : SlotSt) (w : Nat) (f : Slot → Slot) : State :=
  { (user (.worker 0) id).modChip 0 (fun x => { x with slots := [(0, f ⟨st, 8, 1, 0, false, false⟩)] }) with
    queues := [(8, aQueue true)], mem := memWriteN (memWriteN pages 0x40000 (natBytes 1 w)) 0x40040 aPacket }

def kicked (en : Bool) (st : Option SlotSt) : State :=
  { (match st with
      | some k => slotted k 1 id
      | none => user (.worker 0) id) with queues := [(8, aQueue en)], kicks := [⟨8, 0, 0⟩] }

def placingKernel : Kernel := { kernel with q := 8, st := .placing, placed := 0 }

theorem test_witness_SlotAndQueueEvents :
    (∀ en ∈ [true, false], let s := kicked en none
      s.kicks[0]? = some ⟨8, 0, 0⟩ ∧ mfind s.queues 8 = some (aQueue en) ∧ (s.ctx 1).live = true ∧ s.slotFor 8 = none) ∧
    (match (kicked true (some .idle)).slotFor 8 with
      | some (h, n, x) => h == 0 && n == 0 && x.st == .idle
      | none => false) = true ∧
    (∀ st ∈ [SlotSt.mapping, .active, .idle, .unmapping], ∀ w ∈ [0, 1], let s := slotted st w id
      (mfind (s.chip 0).slots 0).map (·.st) = some st ∧ s.againOf 8 (aQueue true) = none ∧ s.placingOf 8 = none ∧
      (s.ctx 1).fault = false ∧ s.serialBusy 8 (aQueue true) = false ∧ s.logged 0 < 2 ^ 20 ∧
      (match s.ringRead 8 (aQueue true) with
        | (t, .ok, v, r) => v == w && r == 0 && (match t.pktRead 8 (aQueue true) 0 with
          | (u, .ok, l) => leNat ((l.drop 4).take 4) == 0 && pkStatus (aQueue true) (u.ctx 1) l == 0 &&
            pkStatus (aQueue true) (u.ctx 1) (List.replicate 64 0) != 0 &&
            (match u.sysWrite 1 (u.queueHome (aQueue true)) (slotAgent 8) ⟨false, true, false, false⟩ (0x40000 + 8) (natBytes 8 1) with
              | (v, .ok) => (v.ctx 1).st != .failed
              | _ => false)
          | _ => false)
        | _ => false) = true) ∧
    ({ slotted .active 1 id with queues := [(8, { aQueue true with ser := true })], kernels := [(0, { kernel with q := 8 })] } :
      State).serialBusy 8 { aQueue true with ser := true } = true ∧
    (let s := { slotted .active 1 id with kernels := [(0, placingKernel)] }
     (s.ctx 1).fault = false ∧ (s.ctx 1).live = true ∧ s.placingOf 8 = some (0, placingKernel) ∧ (s.tile (s.placeTile placingKernel)).room placingKernel = true ∧
     s.outranked 0 0 placingKernel = false ∧ s.driftOf (s.placeTile placingKernel) = none) ∧
    (let d : Nat → BitVec 128 := fun en => BitVec.ofNat 128 (0x1000 * 2 ^ 81 + 6 * 2 ^ 76 + 2 ^ 68 + en * 2 ^ 57)
     (∀ s ∈ [kicked false none, kicked false (some .idle)], (mfind s.queues 8).map (·.en) = some false) ∧
     (kicked false none).mapped 8 = false ∧ (kicked false (some .idle)).mapped 8 = true ∧ worker.queueOk (d 1) = false ∧ (user (.worker 0) id).queueOk (d 1) = true ∧ (queueOf (d 1)).en = true ∧ (queueOf (d 0)).en = false ∧
     (user (.worker 0) id).queueOk (d 0) = true) ∧
    (let w : W64 := BitVec.ofNat 64 (2 ^ 60 + 63 * 2 ^ 48 + 8)
     let s := kicked true none
     w.toNat / 2 ^ 60 = 1 ∧ w.toNat / 2 ^ 48 % 64 = 63 ∧ w.toNat / 2 ^ 54 % 2 ^ 6 = 0 ∧ w.toNat / 2 ^ 43 % 2 ^ 5 = 0 ∧
     w.toNat / 2 ^ 16 % 2 ^ 24 = 0 ∧ mfind (s.chip 0).slots 63 = none ∧ s.queueHome (aQueue true) = 0 ∧ s.mapped 8 = false ∧
     (0x1000000000010000 : W64).toNat / 2 ^ 16 % 2 ^ 24 ≠ 0) ∧
    (let g : GateE := ⟨1, 3, 0x100, 7, none⟩
     let s := { (user (.worker 0) id).modChip 0 (fun x => { x with gate := [g] }) with
       ctxs := [(1, { ctx1 with points := [⟨4, .pending, 0, [], [], none⟩, ⟨3, .sealed, 0, [], [], none⟩] })] }
     (BitVec.ofNat 64 (2 ^ 32 + 3) : W64).toNat / 2 ^ 40 = 0 ∧ (s.chip 0).gate = [g] ∧ s.writable 1 0x100 = true ∧
     (s.ctx 1).points.any (fun a => a.num == 3 && (a.st == RpSt.sealed || a.st == RpSt.merged)) = true ∧
     (s.ctx 1).points.any (fun a => a.num == 4 && (a.st == RpSt.sealed || a.st == RpSt.merged)) = false) := by decide +kernel

/-- The scheduler's core of chiplet 0 with a pending queue, or as the core that takes over. -/
def scheduling (f : Core → Core) : State := { ((user (.worker 0) id).modCore (.sys 0 0) (fun x => f { x with phase := .running })).modChip 0
  (fun x => { x with pkb := [(8, 0)], slots := [(0, ⟨.active, 9, 0, 0, false, false⟩)] }) with queues := [(8, aQueue true)] }

theorem test_witness_SchedulerEvents :
    (let s := scheduling id
     (s.core (.sys 0 0)).alive = true ∧ (s.chip 0).active = 0 ∧ s.oldestSealed 0 = none ∧ (s.chip 0).pkb = [(8, 0)] ∧
     mfind (s.chip 0).slots 1 = none ∧ (∀ m, m < 1 → mfind (s.chip 0).slots m ≠ none) ∧ s.queueHome (aQueue true) = 0 ∧
     (s.ctx 1).live = true ∧ s.mapped 8 = false) ∧
    (let s := scheduling (fun x => { x with mc := true, mcause := 1 <<< 55 })
     let s1 := s.setCore (.sys 0 0) { s.core (.sys 0 0) with mc := false, mcause := 0 }
     (s.core (.sys 0 0)).mcause.getLsbD 55 = true ∧ (s.core (.sys 0 0)).mc = true ∧ s1.jhead (.sys 0 0) = none) ∧
    (∀ a ∈ [(8 : Nat), 65528], 0 ≤ a ∧ a < 65536 ∧ a % 8 = 0 ∧ (a - 0) % 16 = 8) ∧
    (((run (.sys 0 1) words (fun x => { x with half := [(8, 5)] })).core (.sys 0 1)).half |> (mfind · (0 + 8))) = some 5 ∧
    (0 - 0) % 16 ≠ 8 ∧ kindOf (.mgmt 3 3) = .sysm ∧ coreExists (.mgmt 3 3) = true ∧ (4 : W64).getLsbD 2 = true := by decide +kernel

def record (kind slot queue : Nat) : List Byte := natBytes 8 (5 * 2 ^ 32 + 1) ++ natBytes 8 (kind * 2 ^ 56 + slot * 2 ^ 48 + queue * 2 ^ 32)

/-- A journal with one decision to map that is not done. -/
def journalled : State := run (.sys 0 0) words id |>.modChip 0 (fun x => { x with aon := memWriteN [] 0 (record 1 3 8) })

theorem test_witness_Takeover : journalled.jhead (.sys 0 0) = some 0 ∧
    (journalled.jback (.sys 0 0) 4096 0 []).map jKind = [1] := by decide +kernel

/-- The kernel 0 of the context at its boundary, whose completion goes to 0x100. -/
def bounded (done : Bool) (f : Kernel → Kernel) : State :=
  { user (.worker 0) id with kernels := [(0, f { kernel with st := .boundary, boundaryDone := done })] }

theorem test_witness_KernelEvents :
    (let s := bounded false id
     (mfind s.kernels 0).isSome = true ∧ (s.ctx 1).st = .running ∧ (s.ctx 1).fault = false ∧ (s.kernXl 0 { kernel with st := .boundary }).2 = none ∧
     (s.kernXl 0 { kernel with st := .boundary }).1.kernelOpen 0 (ctxTiles (s.ctx 1)) = false) ∧
    (let s := (bounded false id).modTile 0 (fun t => { t with worker := { t.worker with flights := [{ Flight.base with kind := .await, kern := some 0 }] } })
     (s.kernXl 0 { kernel with st := .boundary }).1.kernelOpen 0 (ctxTiles (s.ctx 1)) = true) ∧ kernel.trapAt = none ∧
    (let s := bounded true id
     (s.ctx 1).fault = false ∧ kernel.cword ≠ 0 ∧ kernel.xl = none ∧ kernel.skind < 3 ∧ kernel.immed = false ∧ s.doneWaits 0 = none ∧
     (s.complXl 0 1 (s.gateChip (some 0) 0) 0x1ffffff00000).2 = .page ∧
     (match s.complXl 0 1 (s.gateChip (some 0) 0) (kernel.cword + 8) with
      | (t, .ok p false) => p == 0x108 && (t.complXl 0 1 (s.gateChip (some 0) 0) kernel.cword).2 == .ok 0x100 false
      | _ => false) = true) ∧
    (∀ b ∈ [true, false], let s := { bounded true (fun k => { k with xl := some (0x108, 0x100, false) }) with
        memMap := if b then [⟨0, 0x400000000, 0⟩] else [] }
      s.inHbm 0x100 = b ∧ s.undoFull 1 (linesOf (rangeFrom 0x108 8 ++ rangeFrom 0x100 8)) = false ∧ s.writable 1 0x108 = true ∧
      s.writable 1 0x100 = true ∧ (s.chip (s.gateChip (some 0) 0)).gate.length + 2 ≤ 1024 ∧
      ((s.modChip (s.gateChip (some 0) 0) (fun x => { x with gate := List.replicate 1023 ⟨1, 3, 0x100, 7, none⟩ })).chip
        (s.gateChip (some 0) 0)).gate.length = 1023) ∧
    (let s := flying (.gate 0x100 7)
     (s.doneWaits 0).isSome = true ∧ (s.chip (s.gateChip (some 0) 0)).gate.length < 1024) := by decide +kernel

theorem test_witness_KernelEvents_launch : ∀ i ∈ [0, 1, 65], let l : LaunchReq := ⟨8, i, List.replicate 64 0, false, 9⟩
    let s := { flying (.launch l) with queues := [(8, aQueue true)] }
    coreExists (.worker 0) = true ∧ ((s.core (.worker 0)).flight? 4).map (·.id) = some 4 ∧ s.relAt (.worker 0) 4 5 = true ∧
    (∀ g ∈ (s.core (.worker 0)).flights, g.id < 4 → g.isAccess = false) ∧ l.kick = false ∧ l.pk.length = 64 ∧
    (match s.launchXls (.worker 0) (aQueue true) [(true, true, 0x40000)] with
      | (t, none, [(p, false)]) => !t.undoFull 1 (linesOf (rangeFrom p 8)) && t.writable 1 p
      | _ => false) = true ∧
    (match s.launchXls (.worker 0) (aQueue true) [(true, false, 0x40000 + 8), (false, true, (aQueue true).slotVa (l.idx - 1))] with
      | (t, none, [(p, false), (q, false)]) => decide (l.idx - 1 < memReadLE t.mem p 8 + 2 ^ 6) == (l.idx != 65) &&
          !t.undoFull 1 (linesOf (rangeFrom q 64)) && t.writable 1 q
      | _ => false) = true := by decide +kernel

/-! ### Witnesses: contexts -/

/-- A machine whose chiplets are all ready, with no context. -/
def booted : State := { State.reset with chips := (rangeFrom 0 64).map (fun h => (h, { Chip.init0 with ready := true })) }

/-- A creation of context 1 on 16 by 16 tiles at (0, 0). -/
def creation (n : Nat) : BitVec 512 :=
  BitVec.ofNat 512 (7 * 2 ^ 256 + 100000 * 2 ^ 219 + 4 * 2 ^ 182 + 16 * 2 ^ 126 + 16 * 2 ^ 118 + n * 2 ^ 110 + 2 ^ 36 * 2 ^ 15)

/-- The context 1 in a state. -/
def contexted (st : CtxSt) (f : Ctx → Ctx) : State := { user (.worker 0) id with ctxs := [(1, f { ctx1 with st := st })] }

theorem test_witness_ContextLife :
    booted.bootDone = true ∧ booted.createStatus (creation 1) = 0 ∧ booted.createStatus (creation 1 + 1) = 2 ∧
    ((contexted .running id).ctx 1).st ≠ .destroyed ∧
    (∀ st ∈ [CtxSt.creating, .restoring, .stopping, .saving, .running, .saved, .failed, .debugging, .destroyed], let s := contexted st id
      (s.ctx 1).st = st ∧ (s.ctx 1).destroyReq = false ∧ (∀ e ∈ s.queues, e.2.ctxn ≠ 1)) ∧ ((contexted .running id).ctx 1).resident = true ∧
    (let s := contexted .saved id
     let y := fun v => { s.ctx 1 with vx0 := v, vy0 := 112 }
     partOk (y 112) = true ∧ partOk (y 113) = false ∧ partOk (y 128) = false ∧ s.chipsTaken (y 112) = false ∧ s.degraded (y 112) = false) ∧
    (let s := contexted .restoring (fun x => { x with image := [(5, VTile.init0)] })
     (s.ctx 1).image = [(5, VTile.init0)] ∧ (s.ctx 1).destroyReq = false) := by decide +kernel

/-- Requests and restores: what waits and what is left, by context state. -/
theorem test_witness_ContextLife_requests :
    (∀ st ∈ [CtxSt.creating, .restoring, .running, .saved], let s := contexted st id
      (s.ctx 1).waitSave = false ∧ (s.ctx 1).waitDebug = false ∧ (s.ctx 1).out = false) ∧
    (let s := { contexted .restoring (fun x => { x with slots := [], image := [] }) with mem := [] }
     s.slotsLoad (s.ctx 1).save 0 (s.ctx 1).slots (s.ctx 1).image = some []) ∧
    (∀ b ∈ [true, false], let s := { contexted .running id with kernels := [(0, kernel)], mem := if b then memWriteN [] 0x2001 [1] else pages }
      let u := { s.setCtx 1 { s.ctx 1 with destroyReq := true } with reply := [0] }.destroyStart 1
      u.kernels.any (fun e => e.2.ctx == 1 && e.2.st != .complete) = b) := by decide +kernel

/-- What is written can be read back. -/
theorem test_readBack (l : List Byte) : ∀ (m : Mem) (a : Nat), memWf m = true → memReadN (memWriteN m a l) a l.length = l := by
  induction l with
  | nil => intro m a _; rfl
  | cons b l ih =>
    intro m a h
    simp only [List.length_cons, memReadN, memWriteN, ih _ _ (memWrite_wf a b h)]
    rw [memRead_writeN_out l _ _ _ (Or.inl (by omega)), memRead_write_self a b h]

/-- A slot of no bytes, with the digest d after it. -/
def oneSlot (d : BitVec 512) : State := { State.reset with mem := memWriteN [] (slotAt 0 0) (natBytes 64 d.toNat) }

theorem test_oneSlot (d : BitVec 512) : BitVec.ofNat 512 (memReadLE (oneSlot d).mem (slotAt 0 0 + 0) 64) = d := by
  have h := test_readBack (natBytes 64 d.toNat) [] (slotAt 0 0) rfl
  rw [natBytes_length] at h
  simp only [oneSlot, memReadLE, Nat.add_zero, h, leNat_natBytes]
  have := d.isLt
  exact BitVec.eq_of_toNat_eq (by simp only [BitVec.toNat_ofNat]; omega)

theorem test_witness_ContextLife_slots (v : VTile) :
    (oneSlot (Config.sha3 [])).slotsLoad 0 0 [(0, Config.sha3 [])] [(5, v)] = some [(5, v)] ∧
    (oneSlot (Config.sha3 [] + 1)).slotsLoad 0 0 [(0, Config.sha3 [])] [(5, v)] = none := by
  have h := test_oneSlot (Config.sha3 [])
  have g := test_oneSlot (Config.sha3 [] + 1)
  have n : Config.sha3 [] ≠ Config.sha3 [] + 1 := fun e => by bv_omega
  simp only [State.slotsLoad, State.slotLoad, memReadN, h, g, ne_eq, not_true_eq_false, if_false, if_true, n, not_false_eq_true, and_self]

/-- Every tile of the context 1 quiet, its cores as given. -/
def pausing (st : CtxSt) (f : Ctx → Ctx) (w : Core → Core) (v : VTile → VTile) : State :=
  (contexted st f).modTile 0 (fun t => v { t with worker := w t.worker })

theorem test_witness_StopSaveDebug :
    (let s := pausing .running (fun x => { x with quantum := 5 }) id id
     (s.ctx 1).st = .running ∧ (s.ctx 1).cutting = false ∧ (s.ctx 1).stopFor = none ∧ (s.ctx 1).quantum ≠ 0) ∧
    (contexted .running id |>.ctx 1).quantum = 0 ∧
    (∀ b ∈ [true, false], let f := fun x : Ctx => { x with stopFor := some b }
      (let s := pausing (if b then .stopping else .running) f id id
       (s.ctx 1).stopOpen = true ∧ (s.ctx 1).destroyReq = false ∧ s.allQuiet (s.ctx 1) = false) ∧
      (let s := pausing (if b then .stopping else .running) f (fun x => { x with phase := .paused 0x4000 }) id
       (s.ctx 1).stopOpen = true ∧ s.allQuiet (s.ctx 1) = true ∧ (∀ d ∈ ctxTiles (s.ctx 1), s.driftOf d = none)) ∧
      (let s := pausing .running (fun x => { x with stopFor := some b, stopRetry := true }) id id
       (s.ctx 1).stopRetry = true ∧ (s.ctx 1).st = .running ∧ (s.ctx 1).cutting = false)) ∧
    (let s := pausing .saving id (fun x => { x with phase := .paused 0x4000 }) (fun t => t)
     let v := s.tile 0
     v.ctx = some 1 ∧ (s.ctx 1).st = .saving ∧ v.quiet = true ∧ v.mq = [] ∧ v.dq = [] ∧ (∀ k ∈ v.scrub, k = 0) ∧ v.allocs = [] ∧ (∀ h ∈ v.handles, h.2.st ≠ .freeing)) ∧
    (let s := { contexted .saving id with tiles := (ctxTiles ctx1).map (fun d => (d, { VTile.init0 with ctx := some 1, acked := true })) }
     (s.ctx 1).st = .saving ∧ (s.ctx 1).destroyReq = false ∧ (∀ d ∈ ctxTiles (s.ctx 1), (s.tile d).acked = true ∧ s.settled d = true) ∧
     (∀ d ∈ ctxTiles (s.ctx 1), ((s.physOf d).map (fun p => (s.ptile p).castDue)) ∈ [none, some 0])) ∧
    (let s := pausing .debugging id (fun x => { x with phase := .paused 0x4000 }) id
     (s.tile 0).ctx = some 1 ∧ (s.ctx 1).st = .debugging ∧ (s.tile 0).worker.phase = .paused 0x4000 ∧ (s.tile 0).feeder.phase = .idle ∧
     (match mfind (s.tile 0).handles 1 with
      | some y => decide (1016 + 8 ≤ y.extent)
      | none => false) = true) := by decide +kernel

/-- Stops that wait, a slice that has passed, and the pauses of a debug stop. -/
theorem test_witness_StopSaveDebug_waits :
    (let s := { contexted .running (fun x => { x with quantum := 5 }) with time := 5000 }
     (s.ctx 1).slice + 1000 * (s.ctx 1).quantum ≤ s.time ∧ 4999 < (s.ctx 1).slice + 1000 * (s.ctx 1).quantum ∧
     (contexted .debugging id |>.ctx 1).stopFor ≠ some true) ∧
    (∀ b ∈ [true, false], let s := contexted .debugging (fun x => { x with waitSave := b })
      (s.ctx 1).destroyReq = false ∧ (s.ctx 1).waitSave = b ∧ (s.ctx 1).waitDebug = false ∧ (s.ctx 1).cutting = false ∧
      (s.ctx 1).stopFor = none ∧ (∀ d ∈ ctxTiles (s.ctx 1), s.driftOf d = none)) ∧
    (let s := contexted .running (fun x => { x with points := [⟨4, .cutting, 0, [], [], none⟩] })
     (s.ctx 1).cutting = true ∧ (s.ctx 1).stopFor ≠ some false) ∧
    (let s := contexted .running (fun x => { x with stopRetry := true, stopFor := some true })
     (s.ctx 1).destroyReq = false ∧ (s.ctx 1).waitSave = false ∧ (s.ctx 1).waitDebug = false) ∧
    (let s := { contexted .saving id with tiles := (ctxTiles ctx1).map (fun d => (d, { VTile.init0 with ctx := some 1, acked := true })) }
     s.placingLeft 1 = false ∧ memWf s.mem = true ∧ ∀ d ∈ ctxTiles (s.ctx 1), (s.tile d).quiet = true) := by decide +kernel

/-! ### Witnesses: drifts, tiles and recovery -/

/-- A chiplet whose columns have their spares, with a drift of the tile at row 3 of column 2 in some phase, or none. -/
def aDrift (p : DPhase) (f : Drift → Drift) : Drift :=
  f ⟨2, 2, 3, 50, 258, virtTile 0 3 2, p, [], [], [], false, false, 0, 0⟩
def drifting (d : Option Drift) (f : VTile → VTile) : State :=
  ((contexted .running id).modChip 0 (fun x => { x with drift := d, interval := 50000 })).modTile (virtTile 0 3 2) (fun t =>
    f { t with ctx := some 1 })

theorem test_witness_TileEvents :
    (let s := drifting none id
     s.spareOf 0 2 = some 258 ∧ s.servesRow 50 = some 3 ∧ (s.chip 0).drift = none ∧ (colTiles 0 2).any s.isCast = false ∧
     (s.ptile 258).st = .spare ∧ (s.ptile 50).st = .serving ∧ (s.ctxOfTile (virtTile 0 3 2)).st = .running ∧
     (s.ctxOfTile (virtTile 0 3 2)).cutting = false ∧ (s.ctxOfTile (virtTile 0 3 2)).fault = false ∧
     (s.tile (virtTile 0 3 2)).ctx.isSome = true ∧ (s.chip 0).interval ≠ 0 ∧ (s.driftOrder 50 3 4).isSome = true ∧
     (s.ptile 258).reserved = false ∧ (s.chip 0).driftWait = [] ∧ (s.chip 0).driftDue = false ∧
     s.time < (s.chip 0).driftAt + (s.chip 0).interval ∧ (s.driftOrder 50 3 4).isSome = true ∧
     (({ s with time := 50000 } : State).chip 0).driftAt + 50000 ≤ 50000) ∧
    (∀ p ∈ [DPhase.drain, .quiesce, .copy, .remap], ((drifting (some (aDrift p id)) id).chip 0).drift = some (aDrift p id)) ∧
    (let busy := drifting (some (aDrift .drain id)) (fun t => { t with worker := { t.worker with phase := .running } })
     let still := drifting (some (aDrift .quiesce id)) id
     (busy.tile (virtTile 0 3 2)).quiet = false ∧ (still.tile (virtTile 0 3 2)).quiet = true ∧ still.quiesced (virtTile 0 3 2) = true) ∧
    (let x := { item (.msg aMsg) with dst := virtTile 0 3 2 }
     let d := aDrift .remap (fun d => { d with applied := [nRouters], held := [x], direct := [x] })
     nRouters ∈ d.applied ∧ (aDrift .remap id).knows 5 = false ∧ (aDrift .remap id).knows nRouters = false ∧ d.endSent = false ∧
     d.resumed = false ∧ (drifting (some d) id |>.tile d.tile).seen x = false ∧ (drifting (some d) id).landReady x = true ∧ x.dst = d.tile) ∧
    (let s := (drifting none id).modCtx 1 (fun x => { x with points := [⟨4, .cutting, 0, [], [], none⟩] })
     (s.ctxOfTile (virtTile 0 3 2)).cutting = true) ∧
    (aDrift .remap id).kind ≠ 3 ∧ (aDrift .remap id).old ≠ (aDrift .remap id).new ∧
    (let s := (drifting none id).setPtile 258 { (drifting none id).ptile 258 with st := .castOff }
     (colTiles 0 2).any s.isCast = true ∧ s.spareOf 0 2 = none ∧ (s.tile (virtTile 0 3 2)).ctx = some 1 ∧ (s.ctx 1).stopFor = none ∧
     (s.ctx 1).cutting = false ∧ (s.ptile 50).castDue = 0 ∧ (s.ptile 50).st = .serving) ∧
    (let s := drifting (some (aDrift .drain id)) id
     s.driftOrder 50 3 4 = none ∧ (s.ptile 50).st = .serving ∧ (colTiles 0 2).any s.isCast = false) ∧
    (let s := drifting none (fun t => { t with xfers := [{ aXfer with order := 1 }] })
     s.virtOf 50 = some (virtTile 0 3 2) ∧ (s.tile (virtTile 0 3 2)).feet ≠ [] ∧ (drifting none id).rewrites = []) ∧
    (∀ st ∈ [PState.testing, .cooling], (((drifting none id).setPtile 258 { (drifting none id).ptile 258 with st := st }).ptile 258).st = st) ∧
    (∀ i ∈ (drifting none id).net, (drifting none id).physOf i.src ≠ some 50) ∧
    (([] : List Nat).length ≠ 1024) ∧ 3 ∈ ({ PTile.init0 50 with retention := [3] }).retention := by decide +kernel

/-- A tile under test, whose response has the digest asked for. -/
theorem test_witness_TileTest : let s := { worker.setPtile 258 { PTile.init0 258 with st := .testing } with pkg := some ⟨1, 100, Config.sha3 []⟩ }
    (s.ptile 258).st = .testing ∧ s.pkg = some ⟨1, 100, Config.sha3 []⟩ ∧ 100 < 101 := ⟨rfl, rfl, by decide⟩

/-- A context with points, the newest as given. -/
def pointed (st : RpSt) (f : Ctx → Ctx) (w : Core → Core) : State :=
  pausing .running (fun x => f { x with points := [⟨4, st, 0, [], [], none⟩, ⟨3, .sealed, 0, [(0, VTile.init0)], [], none⟩] }) w id

theorem test_witness_RecoveryEvents :
    (let s := { pointed .pending id id with time := 20000000 }
     let x := s.ctx 1
     x.st = .running ∧ x.fault = false ∧ x.stopOpen = false ∧ x.copying = false ∧ x.waveRetry = false ∧
     x.resumed + 20 * 1000000 ≤ s.time ∧ x.destroyReq = false ∧ x.waitSave = false ∧ x.waitDebug = false) ∧
    ((pointed .pending (fun x => { x with early := true }) id).ctx 1).early = true ∧
    ((pointed .pending (fun x => { x with waveRetry := true }) id).ctx 1).waveRetry = true ∧
    (let s := pointed .cutting id id
     s.allQuiet (s.ctx 1) = false) ∧
    (let s := pointed .cutting id (fun x => { x with phase := .paused 0x4000 })
     ∀ d ∈ ctxTiles (s.ctx 1), s.quiesced d = true ∧ s.driftOf d = none) ∧
    ((pointed .copying id id).ctx 1).copying = true ∧
    (((pointed .pending id id).ctx 1).points.reverse.find? (fun q => q.st == .sealed)).isSome = true ∧
    (let s := pointed .pending (fun x => { x with fault := true }) id
     (s.ctx 1).fault = true ∧ (s.ctx 1).destroyReq = false ∧ (∀ h ∈ ctxChips (s.ctx 1), (s.chip h).failWait = []) ∧
     (s.ctx 1).lostPoints = false ∧ (s.ctx 1).waitSave = false ∧ (s.ctx 1).waitDebug = false ∧ (∀ d ∈ ctxTiles (s.ctx 1), s.driftOf d = none ∧ (s.physOf d).isSome = true) ∧
     (s.ctx 1).immEpoch = none ∧ (∀ e ∈ s.queues, e.2.ctxn ≠ 1) ∧
     ((s.ctx 1).points.find? (fun q => q.st == .sealed || q.st == .merged)).map (·.num) = some 3) ∧
    ((pointed .pending (fun x => { x with fault := true, immEpoch := some 4 }) id).ctx 1).immEpoch = some 4 ∧
    ((pointed .pending (fun x => { x with fault := true, lostPoints := true }) id).ctx 1).lostPoints = true ∧
    (let s := pausing .running (fun x => { x with fault := true, points := [⟨0, .pending, 0, [], [], none⟩] }) id id
     ∀ q ∈ (s.ctx 1).points, q.st ≠ .sealed ∧ q.st ≠ .merged) := by decide +kernel

/-! ### Witnesses: links, ports, power and start-up -/

def linked (l : Nat) (st : LinkSt) : State := { worker with links := [(l, ⟨st, 8, 7, 6, 6, 6, 0⟩)], net := [{ item (.msg aMsg) with flit := some (l, 6) }] }

theorem test_witness_LinkAndPortEvents :
    (∀ l ∈ [0, 255, 256, 259, 260, 323], ∀ st ∈ [LinkSt.training, .retraining, .up, .degraded, .fenced],
      ((linked l st).link l).st = st ∧ (linked l st).net = [] ++ { item (.msg aMsg) with flit := some (l, 6) } :: []) ∧
    acrossOf 1 = some 1 ∧ acrossOf 3 = none ∧ (({ worker with links := (List.range 256).map (fun l => (l, ⟨.up, 16, 0, 0, 0, 0, 0⟩)) } : State).linkSt 38 .fenced 0).tableExists = true ∧
    (let c : Conn := ⟨5, 0, 0, 0, 0, [(0, [])], none, [], 0, none⟩
     let s := { linked 260 .fenced with conns := [(255, c)] }
     mfind s.conns 255 = some c ∧ (s.link (260 + c.port)).st = .fenced ∧ c.unacked ≠ []) ∧ worker.aclFor 5 8 = none ∧
    (∀ b ∈ [none, some (1, 0x4000)], let s := { user (.worker 0) id with
        links := [(256, ⟨.up, 16, 0, 0, 0, 0, 0⟩)], bar2 := b.elim [] (fun e => [(0, e)]) }
      (s.link (256 + 0)).carries = true ∧ mfind s.bar2 (0x100 / 2 ^ 33) = b ∧
      (match s.portWrite 1 (portChip 0) 45000 ⟨false, true, false, false⟩ 0x4100 [1, 2] with
        | (_, .ok) => true
        | _ => false) = true ∧
      (match s.portRead 1 (portChip 0) 45000 0x4100 8 with
        | (t, .ok, _) => (match t.sysWrite 1 (portChip 0) 45000 ⟨true, true, false, false⟩ 0x4100 (natBytes 8 7) with
          | (_, .ok) => true
          | _ => false)
        | _ => false) = true) := by decide +kernel

/-- A panel whose edges are up: one of them FENCED leaves a table, both of a corner's do not; the writes of a port that wait. -/
theorem test_witness_LinkAndPortEvents_waits :
    (let s : State := { worker with links := (List.range 256).map (fun l => (l, ⟨.up, 16, 0, 0, 0, 0, 0⟩)) }
     ((s.linkSt 1 .fenced 0).linkSt 2 .fenced 0).tableExists = false) ∧
    worker.postedWait 0 = false ∧ ({ worker with posted := [⟨0, 2, 0, 1, 0x100, [1]⟩] } : State).postedWait 0 = true ∧
    (let s := contexted .running id
     (s.ctx 1).out = false ∧ 0 ∈ ctxChips (s.ctx 1)) := by decide +kernel

theorem test_witness_PowerAndStartUpEvents :
    (let p := (worker.chip 63).pw
     p.gust = .quiet ∧ p.trip = false ∧ p.integ.pk ≤ p.pklim ∧ p.integ.avg ≤ p.avglim) ∧
    (let p := (worker.chip 63).pw
     { p with act := 1000, set := 900 }.set < { p with act := 1000, set := 900 }.act ∧ { p with pklim := 0, integ := { p.integ with pk := 1 } }.pklim < 1 ∧
     5 + 50 < { p with setmv := 600, low := 3 }.setmv ∧ { p with setmv := 600 }.setmv ≤ 550 + 50) ∧
    (∀ g ∈ [Gust.notified, .ready], let s := { worker.modChip 0 (fun x => { x with pw := { x.pw with gust := g } }) with time := 100000 }
      (s.chip 0).pw.gust = g ∧ (s.chip 0).pw.gustAt + 100000 ≤ s.time) ∧
    (∀ q, q < 272 → (worker.ptile (272 * 63 + q)).temp < 1680) ∧
    (let s := contexted .running id
     (s.ctx 1).resident = true ∧ 0 ∈ ctxChips (s.ctx 1) ∧ mfind s.ctxs 1 ≠ none) ∧
    (let s := State.reset.modChip 0 (fun x => { x with pw := { x.pw with gen := true } })
     (s.tile 5).power = .busy ∧ s.tileIdle 5 = true ∧ (s.chip (chipOf 5)).pw.gen = true) ∧
    (∀ p ∈ [TPower.hold 0, .gated, .waking 0], let s := { State.reset.modTile 5 (fun t => { t with power := p }) with time := 20000 }
      (s.tile 5).power = p ∧ s.tileIdle 5 = true ∧ 0 + 20000 ≤ s.time) ∧
    (let x := (State.reset.modChip 0 (fun x => { x with inrush := [0, 1, 2, 3, 4, 5, 6, 7, 8] })).chip 0
     x.inrush.take 8 = [0, 1, 2, 3, 4, 5, 6, 7] ∧ x.inrush.drop 8 = [8]) ∧
    State.reset.boot.step = 1 ∧ imageOk [] = false ∧
    (let s := { State.reset with boot := { State.reset.boot with step := 5 } }
     (s.chip 0).ready = false ∧ (∀ q, q < 272 → (s.chip 0).defect.cast.getLsbD q = false) ∧ (s.core (.mgmt 3 3)).phase = .unloaded ∧
     (∀ m ∈ s.memMap, overlap m.base m.len 0 256 = false)) ∧
    ((worker.setCore (.mgmt 3 3) (Core.init .running)).core (.mgmt 3 3)).phase = .running := by decide +kernel

/-- A flit from a peer that has our own identity, on port 0, of a connection that expects number 1. -/
def connected : State := { worker with
  links := [(260, ⟨.up, 8, 0, 0, 0, 0, 0⟩)], conns := [(7, ⟨Config.selfPeer % 2 ^ 16, 0, 0, 0, 1, [], none, [], 0, none⟩)] }

theorem test_witness_PeerEvents (ty seq : Nat) (h : ty ≤ 3) : let l := mkFlit ty Config.selfPeer 7 seq 0 0 []
    (connected.link (260 + 0)).carries = true ∧ flitGood l = true ∧ flitF l 120 8 = ty ∧ flitF l 88 16 = Config.selfPeer % 2 ^ 16 ∧
    flitF l 80 8 = 7 ∧ (mfind connected.conns 7).map (·.peer) = some (flitF l 104 16) ∧ flitF l 56 24 = seq % 2 ^ 24 := by
  obtain ⟨a, b, c, d, e, f⟩ := mkFlit_good ty Config.selfPeer 7 seq 0 0 [] h
  exact ⟨rfl, a, b, d, e, by rw [c]; rfl, f⟩

theorem test_witness_PeerWrite (w : Nat × Nat × Bool × List Byte) :
    (connected.peerDo 7 5 w).2.1 ≠ .wait ∧ connected.peerCode 5 w.1 w.2.1 0 false ≠ 0 := ⟨by
  simp [State.peerDo, show connected.queues = [] from rfl, mfind], by simp [State.peerCode, State.aclFor, show connected.acl = [] from rfl]⟩

/-! ### Witnesses: the core that takes over -/

/-- The scheduler's core as the one that takes over, with or without PEER, its journal at j holding nothing, or one decision to map
queue 8 to slot 3. -/
def taking (j : Nat) (rec peer : Bool) : State :=
  (scheduling (fun x => { x with mc := true, mcause := if peer then 1 <<< 55 else 0, jbase := BitVec.ofNat 64 j })).modChip 0 (fun x =>
    { x with aon := if rec then memWriteN [] j (record 1 3 8) else [] })

/-- That core with MC taken and its halves dropped, before the program keeps MCAUSE. -/
def taken (j : Nat) (rec : Bool) : State :=
  let s := taking j rec true
  s.setCore (.sys 0 0) { s.core (.sys 0 0) with mc := false, half := [] }

theorem test_taken : ∀ j ∈ [0, 0x200000], ∀ b ∈ [true, false], ∀ p ∈ [true, false],
    let s := taking j b p
    let x := s.core (.sys 0 0)
    x.alive = true ∧ x.mc = true ∧ x.inh = false ∧ x.mcause.getLsbD 55 = p ∧ (s.chip 0).pkb = [(8, 0)] ∧
    mfind (s.chip 0).slots 1 = none ∧ mfind (s.chip 0).slots 3 = none ∧ (s.chip 0).active = 0 ∧ (s.ctx 1).resident = true ∧
    s.mapped 8 = false ∧ s.queueHome (aQueue true) = 0 := by decide +kernel

theorem test_taken_journal : ∀ j ∈ [0, 0x200000], (∀ b ∈ [true, false], (taken j b).logsUndo 256 = false ∧
      ((taken j b).core (.sys 0 0)).jbase.toNat = j) ∧ (taken j false).jhead (.sys 0 0) = none ∧
    (taken j true).jhead (.sys 0 0) = some 0 ∧
    ((taken j true).jback (.sys 0 0) 4096 0 []).map (fun r => (jKind r, r.1 / 2 ^ 48 % 256, r.1 / 2 ^ 32 % 65536)) = [(1, 3, 8)] := by
  decide +kernel

/-- What MCAUSE is kept beside leaves the journal as it is, wherever the program keeps it. -/
theorem test_witness_SchedulerEvents_takeover : ∃ j ∈ [0, 0x200000], ∀ b,
    let s1 := ((taken j b).tkPut (.sys 0 0) 0 0 8 ((taking j b true).core (.sys 0 0)).mcause.toNat).modCore (.sys 0 0)
      (fun x => { x with mcause := 0 })
    s1.jhead (.sys 0 0) = (taken j b).jhead (.sys 0 0) ∧ ∀ i l, s1.jback (.sys 0 0) 4096 i l = (taken j b).jback (.sys 0 0) 4096 i l := by
  obtain ⟨j, hj, hl, hd⟩ : ∃ j ∈ [0, 0x200000], j + 65536 ≤ 2 ^ 31 ∧
      (Config.takeoverAt 0 + 0 + 8 ≤ j ∨ j + 65536 ≤ Config.takeoverAt 0 + 0) := by
    by_cases h : Config.takeoverAt 0 < 2 ^ 20
    · exact ⟨0x200000, by simp, by omega, by omega⟩
    · exact ⟨0, by simp, by omega, by omega⟩
  refine ⟨j, hj, fun b => ?_⟩
  obtain ⟨hu, hc⟩ := (test_taken_journal j hj).1 b (by cases b <;> simp)
  have h := State.journal_congr (.sys 0 0) ((taken j b).jrec_tkPut 0 0 0 8 ((taking j b true).core (.sys 0 0)).mcause.toNat 0 hu
    (by rw [hc]; exact hl) (by rw [hc]; exact hd))
  exact ⟨h.1, fun i l => h.2 4096 i l⟩

/-! ### Witnesses: waits and answers of memory -/

/-- The system core with one access to its own memory that has issued, behind what is given. -/
def owning (op : OwnOp) (l : List Flight) : State := firmware.modCore (.sys 0 0) (fun x =>
  { x with flights := l ++ [{ Flight.base with id := 4, kind := .held ⟨.own 0x10000 8 op, none, 0⟩ }], nextId := 5 })

theorem test_witness_SystemMemory_held : ∀ op ∈ [OwnOp.ld, .st (natBytes 8 7) [] 0, .atom ⟨0, 8, 0, 1, 0, 9, false, none⟩],
    (let s := owning op []
     coreExists (.sys 0 0) = true ∧ kindOf (.sys 0 0) = .sysm ∧ ((s.core (.sys 0 0)).flight? 4).map (·.res) = some none ∧
     placeOf (.sys 0 0) 0x10000 = .plain ∧ s.heldReady (.sys 0 0) 4 ⟨.own 0x10000 8 op, none, 0⟩ = true ∧ s.ownBusy (.sys 0 0) = false) ∧
    (let s := owning op [{ Flight.base with id := 3, kind := .held ⟨.own 0x10000 8 (.st (natBytes 8 1) [] 0), none, 0⟩ }]
     s.heldReady (.sys 0 0) 4 ⟨.own 0x10000 8 op, none, 0⟩ = false) := by decide +kernel

/-- The entry that is to be performed, its home slice behind a link that still trains, open, or with a full undo log. -/
theorem test_witness_HomeSliceEvents_shut :
    (let s := { storing (aStore true false []) with memMap := [⟨0, 0x400000000, 0⟩] }
     (s.tile 0).sbuf[0]? = some (aStore true false []) ∧ s.memShut (s.routerOf 0) [0x100] = true ∧
     ({ s with links := (List.range 256).map (fun l => (l, ⟨.up, 16, 0, 0, 0, 0, 0⟩)) } : State).memShut (s.routerOf 0) [0x100] = false) ∧
    (storing (aStore true false [])).memShut ((storing (aStore true false [])).routerOf 0) [0x100] = false ∧
    (let s := flying (.atomic ⟨0x100, 8, 0, 1, 0, 9, false, none⟩)
     s.memShut (s.coreRouter (.worker 0)) (rangeFrom 0x100 8) = false) := by decide +kernel

/-- A load that met a BUSY entry at time 0, a table that is full for a core with and without it. -/
theorem test_witness_Translation_waits :
    (∀ t ∈ [999999, 1000000], let f : Flight := { Flight.base with id := 4, kind := .busy [0x100] none, kern := some 0, since := some 0 }
      let s := { user (.worker 0) (fun x => { x with flights := [f], task := some task }) with mem := memWriteN [] 0x2001 [1], time := t }
      ((s.core (.worker 0)).flight? 4).map (·.since) = some (some 0) ∧ [(0x100 : W64)].find? (s.isBusy (.worker 0)) = some 0x100 ∧
      f.lda = false ∧ (s.core (.worker 0)).task.map (·.kern) = some 0 ∧ (s.time < 0 + 1000000 ↔ t = 999999)) ∧
    ((user (.worker 0) id).core (.worker 0)).flights = [] ∧
    ((flying (.busy [0x100] none)).core (.worker 0)).flights.length = 1 ∧
    (∀ e ∈ (flying (.busy [0x100] none)).chips, e.2.zp.length < 4096) ∧
    (let s := windowed .allocated (.window 7 0)
     (mfind (s.tile 0).handles 7).map (fun x => x.lineAbsent 0) = some true ∧ s.earlier (.worker 0) 4 ((s.tile 0).winPas 7 0 8) = false ∧
     s.memShut (s.coreRouter (.worker 0)) [0] = false) ∧
    (let s := (user (.worker 0) id)
     s.undoFull 1 (linesOf [0x4000]) = false ∧ s.writable 1 0x4000 = true) ∧
    (∀ b ∈ [true, false], let l : List Flight := if b then [] else [{ Flight.base with kind := .await, acq := some 2 }]
      let s := heldBy (.worker 0) (.atom ⟨0x100, 8, 0, 1, 0, 9, false, none⟩) none l
      s.heldReady (.worker 0) 4 ⟨.atom ⟨0x100, 8, 0, 1, 0, 9, false, none⟩, none, 0⟩ = b ∧
      s.heldReady (.worker 0) 4 ⟨.ld (rangeFrom 0x100 8) false, none, 0⟩ = b) := by decide +kernel

/-- A transfer at a page that is not there yet, before and after 1 ms, and at one that will never be. -/
def paging (st : XSt) (t : Nat) : State :=
  { transferring (aCopy 0 64 0 st 0x100) with mem := memWriteN [] 0x2001 [1], busy := [(xferAgent 0 aXfer, (0, 0))], time := t }

theorem test_witness_TransferEvents_pages :
    (∀ st ∈ [XSt.running, .slow], ∀ t ∈ [999999, 1000000], let k := aCopy 0 64 0 st 0x100
      (paging st t).xferBad 0 k = some (0, 0x100) ∧ (paging st t).xferOver 0 k 0x100 = (t == 1000000) ∧ (paging st t).frozen 0 = false ∧
      ((paging st t).ctxOfTile 0).fault = false) ∧
    ((transferring (aCopy 0 64 0 .running 0x1ffffff00000)).xferBad 0 (aCopy 0 64 0 .running 0x1ffffff00000)) = some (1, 0x1ffffff00000) ∧
    (let k := aCopy 0 64 0 .slow 0x100
     ((paging .slow 1000000).skipMoves 0 0 65 k []).2.2 = [0x100] ∧ (k.total ≤ k.doneb + 65)) ∧
    (let k := aCopy 0 64 0 .running 0x100
     let r := (transferring k).xferXls 0 k false ((rangeFrom 0 16).map (fun i => some (k.gaddr + BitVec.ofNat 64 i)))
     r.1.memShut (r.1.routerOf 0) (r.2.2.1.filterMap id) = false) := by decide +kernel

/-- A fill whose completion word waits, beside the one that goes on. -/
theorem test_witness_ZephyrEvents_status :
    (let s := filling.modChip 0 (fun x => { x with zeph := some ⟨1, 0x200, 0, 5, 0, 0x100, some 2⟩ })
     ((s.chip 0).zeph.map (·.status)) = some (some 2)) ∧
    (filling.chip 0).zeph = some ⟨1, 0x200, 0, 5, 0, 0x100, none⟩ ∧
    (let s := { filling with mem := memWriteN [] 0x2001 [1] }
     (match s.sysWrite 1 0 42000 ⟨false, true, false, true⟩ 0x100 (natBytes 8 1) with
      | (_, a) => a == .wait) = true) ∧
    (let z : Zephyr := ⟨1, 0x200, 2, 5, 0, 0x100, none⟩
     0 < z.count ∧ (match filling.zephyrFill 0 { z with count := 0 } 1 with
       | (_, _, r) => r == .ok) = true) := by decide +kernel

/-! ### Witnesses: waits and answers of queues, kernels and contexts -/

/-- A store to CMD about slot 0. -/
def cmd (op prio queue : Nat) : W64 := BitVec.ofNat 64 (op * 2 ^ 60 + prio * 2 ^ 40 + queue)

theorem test_witness_SlotEvents_more :
    (let s := kicked true (some .unmapping)
     (s.slotFor 8).map (fun e => e.2.2.st) = some .unmapping ∧ (s.ctx 1).live = true) ∧
    (let s := { slotted .active 1 id with ctxs := [(1, { ctx1 with st := .failed })] }
     (s.ctx 1).st = .failed ∧ (s.ctx 1).fault = false ∧ s.againOf 8 (aQueue true) = none ∧ s.placingOf 8 = none ∧
     (match s.ringRead 8 (aQueue true) with
      | (t, .ok, 1, 0) => (match t.pktRead 8 (aQueue true) 0 with
        | (u, .ok, l) => pkStatus (aQueue true) (u.ctx 1) l != 0 || leNat ((l.drop 4).take 4) == 0
        | _ => false)
      | _ => false) = true) ∧
    (∀ p ∈ [(0, true), (5, false)], let s := slotted .active 1 id
      let s := { s with mem := memWriteN s.mem 0x40040 (List.replicate 4 0 ++ natBytes 4 p.1 ++ List.replicate 56 0) }
      (match s.ringRead 8 (aQueue true) with
       | (t, .ok, 1, 0) => (match t.pktRead 8 (aQueue true) 0 with
         | (u, .ok, l) => (leNat ((l.drop 4).take 4) == 0) == p.2 && pkStatus (aQueue true) (u.ctx 1) l != 0
         | _ => false)
       | _ => false) = true) := by decide +kernel

theorem test_witness_QueueAndSlotCommands_more :
    (∀ st ∈ [SlotSt.mapping, .active, .idle, .unmapping], let s := slotted st 1 id
      s.ownBusy (.sys 0 1) = false ∧ (mfind (s.chip 0).slots 0).map (fun y => (y.st, y.q, y.prio)) = some (st, 8, 1)) ∧
    (∀ c ∈ [(1, 8), (1, 9), (2, 8), (3, 8)], ∀ p ∈ [0, 1], let w := (cmd c.1 p c.2).toNat
      w / 2 ^ 60 = c.1 ∧ w / 2 ^ 48 % 64 = 0 ∧ w / 2 ^ 40 % 8 = p ∧ w % 2 ^ 16 = c.2 ∧ w / 2 ^ 54 % 2 ^ 6 = 0 ∧ w / 2 ^ 43 % 2 ^ 5 = 0 ∧
      w / 2 ^ 16 % 2 ^ 24 = 0) ∧
    (let s := kicked false none
     mfind (s.chip 0).slots 0 = none ∧ (mfind s.queues 8).map (·.en) = some false) ∧
    ((kicked true none).ctx 1).resident = true ∧
    (let g : GateE := ⟨1, 3, 0x100, 7, none⟩
     let s := { (user (.worker 0) id).modChip 0 (fun x => { x with gate := [g, { g with pa := 0x108 }] }) with
       ctxs := [(1, { ctx1 with points := [⟨4, .pending, 0, [], [], none⟩, ⟨3, .merged, 0, [], [], none⟩] })] }
     (s.chip 0).gate = [g, { g with pa := 0x108 }] ∧ s.writable 1 0x108 = true ∧ g.tag ≤ 3) := by decide +kernel

/-- A kernel at its boundary whose status word is at an address that no page maps. -/
theorem test_witness_KernelEvents_more :
    (let k : Kernel := { kernel with st := .boundary, cword := 0x1ffffff00000 }
     let s := { user (.worker 0) id with kernels := [(0, k)] }
     (s.kernXl 0 k).1.kernelOpen 0 (ctxTiles (s.ctx 1)) = false ∧ (s.kernXl 0 k).2.isSome = true ∧
     (let k' : Kernel := { k with xlBad := some (5, PAGE) }
      k'.xlBad = some (5, PAGE) ∧ k'.st = .boundary ∧ k'.boundaryDone = false)) ∧
    (let s := { bounded true (fun k => { k with xl := some (0x108, 0x100, false) }) with
       memMap := [⟨0, 0x400000000, 0⟩], links := (List.range 256).map (fun l => (l, ⟨.up, 16, 0, 0, 0, 0, 0⟩)) }
     s.memShut (272 * s.gateChip (some 0) 0) (rangeFrom 0x108 8 ++ rangeFrom 0x100 8) = false ∧ s.inHbm 0x100 = true) ∧
    kernel.xlBad = none ∧ 3 ≤ ({ kernel with skind := 3 } : Kernel).skind ∧ ({ kernel with immed := true } : Kernel).immed = true ∧
    (let s := flying (.gate 0x100 7)
     s.frozen 0 = false ∧ (s.chip (s.gateChip (some 0) 0)).gate.length < 1024) ∧
    (let s := flying (.launch ⟨8, 0, List.replicate 64 0, false, 9⟩)
     s.tagOf ((s.homeChip 0x40000).getD 0) (agentNo (.worker 0)) 9 = none ∧
     (s.modChip ((s.homeChip 0x40000).getD 0) (fun x => { x with tags := [(agentNo (.worker 0), [(9, 5)])] })).tagOf
       ((s.homeChip 0x40000).getD 0) (agentNo (.worker 0)) 9 = some 5 ∧
     s.memShut (s.coreRouter (.worker 0)) (rangeFrom 0x40000 8) = false ∧ s.sbufAhead (.worker 0) 4 (rangeFrom 0x40000 8) = false) ∧
    kindOf (.sys 0 0) = .sysm := by decide +kernel

theorem test_witness_StopSaveDebug_more :
    (let s := { contexted .saving (fun x => { x with fault := true }) with tiles := [] }
     (s.ctx 1).st = .saving ∧ (s.ctx 1).fault = true) ∧
    ((contexted .saving id).ctx 1).fault = false ∧
    (let s := pausing .stopping (fun x => { x with stopFor := some true }) (fun x => { x with phase := .paused 0x4000 }) id
     (s.ctx 1).stopFor = some true ∧ (s.tile 0).worker.phase = .paused 0x4000 ∧ (s.tile 0).feeder.phase = .idle) ∧
    (let w : Waiter := ⟨.feeder 0, 4, 7⟩
     let s := (contexted .debugging id).modTile 0 (fun t => { t with bars := [(511, ⟨true, 0, 2, 8, 8, 1, 8, [w]⟩)] })
     (s.tile 0).ctx = some 1 ∧ ((s.tile 0).bar 511).wait[0]? = some w) ∧
    (∀ st ∈ [CtxSt.creating, .restoring], let s := (contexted st id).setPtile 50 { (contexted st id).ptile 50 with st := .serving }
      (s.ctx 1).st = st ∧ (s.tile 0).ctx = some 1) := by decide +kernel

/-- A stitch message whose first word's effect was released, in the replay of its own. -/
theorem test_witness_MessagesAndReplay_more :
    (let s := run (.feeder 0) words (fun x => { x with sel := .msg, msgRun := some (aMsg, x.blk), msgRec := [⟨0, none, none⟩], msgTo := 1 })
     let x := s.core s.cur
     s.kind = .feeder ∧ x.sel = .msg ∧ s.stopped s.cur = false ∧ x.held = false ∧ x.blk.widx < x.msgTo ∧
     (x.msgRec.find? (fun k => k.word == x.blk.widx)).map (·.after) = some none ∧ (x.msgRun).isSome = true ∧ (s.tile (tileOf s.cur)).ctx = none) ∧
    (let w : Watch := ⟨1, 0x100, 8, rangeFrom 0x100 8, 0, some ⟨5, true⟩⟩
     let s := run (.worker 0) words (fun x => { x with replayTo := 1, replay := [⟨0, none, some w⟩] })
     ((s.core s.cur).replay.find? (fun k => k.word == (s.core s.cur).blk.widx)).map (·.watch) = some (some w)) ∧
    (∀ n ∈ [0, 3], let s := user (.feeder 0) (fun x => { x with sel := .msg, msgRun := some (aMsg, x.blk), msgTo := n })
      (s.core (.feeder 0)).sel = .msg ∧ (s.core (.feeder 0)).msgTo = n ∧ (s.tile 0).ctx = some 1 ∧ (s.ctx 1).st = .running) := by
  decide +kernel

/-! ### Witnesses: waits and answers of tiles, recovery, links, power and start-up -/

theorem test_witness_DriftEvents_more :
    (let s := (drifting none id).modChip 0 (fun x => { x with driftWait := [(50, 1, 0)] })
     (∃ o ∈ (s.chip 0).driftWait, o.2.1 = 1) ∧ (s.chip 0).interval ≠ 0 ∧
     (({ s with time := 50000 } : State).chip 0).driftAt + 50000 ≤ 50000) ∧
    (∀ k ∈ [1, 2, 3], let s := drifting (some (aDrift .drain (fun d => { d with kind := k, reason := 4 }))) id
      ((s.chip 0).drift.map (·.kind)) = some k ∧ (s.modChip 0 (fun x => { x with driftDue := true }) |>.chip 0).driftDue = true) ∧
    (let s := { drifting none id with fenceDue := [38] }
     s.fenceDue ≠ [] ∧ (s.chip 0).drift = none ∧ (s.chip 0).driftWait = [] ∧ (s.ptile 258).st = .spare) ∧
    (∀ w ∈ [TPower.gated, .busy], let d := aDrift .remap (fun d => { d with applied := [nRouters] })
      let s := (drifting (some d) id).setPtile 258 { (drifting none id).ptile 258 with power := w }
      (s.ptile d.new).power = w ∧ (w = .busy ↔ ¬ w = .gated)) ∧
    (let x := { item (.msg aMsg) with dst := virtTile 0 3 2 }
     let d := aDrift .remap (fun d => { d with applied := [nRouters], endSent := true, direct := [x] })
     d.held = [] ∧ d.direct = x :: [] ∧ (drifting (some d) id).landReady x = true) ∧
    (let d := aDrift .remap (fun d => { d with kind := 3 })
     d.kind = 3 ∧ d.old ≠ d.new) := by decide +kernel

/-- A router of a panel whose edges train, given its own reset table; while a drift runs in its chiplet it waits. -/
theorem test_witness_TileHealthEvents_table (x y : Nat) (hx : x < 128) (hy : y < 136) (d : Option Drift) :
    let p := routerAt x y
    let s := worker.modChip 0 (fun h => { h with drift := d })
    let s' := s.setPtile p { s.ptile p with table := some (resetTable p) }
    s.rewrites = [] ∧ (resetTable p).length = 1024 ∧ (∀ e ∈ resetTable p, e ≤ 4) ∧
    (∀ c, c < 1024 → s'.routeOk c nHops p false = true ∧ s'.badTurn p c = false) ∧
    (d = none → s.routerBusy p (resetTable p) = false) ∧ (d.isSome = true → p / 272 = 0 → s.routerBusy p (resetTable p) = true) := by
  intro p s s'
  have hc (h : Nat) : (s.chip h).defect.rdead = 0 ∧ (s.chip h).drift = (if h = 0 then d else none) := by
    by_cases e : h = 0
    · subst e; exact ⟨rfl, rfl⟩
    · have : s.chip h = Chip.init0 := mget_mput_ne _ _ _ e
      rw [this, if_neg e]
      exact ⟨rfl, rfl⟩
  have h := s.resetTable_ok hx hy (fun _ => rfl) rfl (fun q => by rw [State.routerDead, (hc _).1]; simp)
    (fun l => by rw [show (s.link l).st = .training from rfl]; decide)
  refine ⟨rfl, h.1, h.2.1, fun c hc => (h.2.2 c hc).2, fun e => ?_, fun e f => ?_⟩
  · subst e
    have : (s.chip (p / 272)).drift = none := by rw [(hc _).2]; simp
    simp only [State.routerBusy, this]
    rfl
  · have : (s.chip (p / 272)).drift = d := by rw [(hc _).2, if_pos f]
    simp [State.routerBusy, this, e]

theorem test_witness_TileHealthEvents_more :
    (∀ st ∈ [PState.testing, .cooling], ∀ c ∈ [CtxSt.creating, .restoring],
      let s := (contexted c id).setPtile 258 { PTile.init0 258 with st := st }
      (s.ptile 258).st = st ∧ (s.ctx 1).st = c) ∧
    (let s := ((contexted .creating id).modTile (virtTile 0 3 2) (fun t => { t with ctx := some 1 })).setPtile 258 { PTile.init0 258 with st := .castOff }
     (colTiles 0 2).any s.isCast = true ∧ (s.ptile 50).castDue = 0 ∧ (s.ptile 50).st = .serving ∧ s.servesRow 50 = some 3 ∧
     (s.tile (virtTile 0 3 2)).ctx = some 1 ∧ (s.ctx 1).st = .creating) ∧
    (PTile.init0 258).power = .busy ∧ (∃ e ∈ [0, 5], 4 < e) ∧
    (let s := pointed .copying (fun x => { x with st := .stopping }) id
     (s.ctx 1).copying = true ∧ (s.ctx 1).st ≠ .running) ∧
    (let s := pointed .cutting (fun x => { x with waitSave := true }) (fun x => { x with phase := .paused 0x4000 })
     (s.ctx 1).waitSave = true ∧ (s.ctx 1).stopFor = none ∧ (s.ctx 1).st = .running ∧ ∀ i ∈ s.traffic, i.src ∉ ctxTiles (s.ctx 1)) := by
  decide +kernel

/-- A link with a flit on the wire: delivered before, in sequence, or out of it. -/
def wired (wire : Nat) : State := { worker with links := [(0, ⟨.up, 16, 9, 6, wire, 6, 0⟩)], net := [{ item (.msg aMsg) with flit := some (0, 6) }] }

theorem test_witness_LinkEvents_flits :
    (∀ w ∈ [5, 6, 8], let x := (wired w).link 0
      x.carries = true ∧ x.wire ≠ x.tx ∧ x.wire = w ∧ x.rx = 6) ∧
    (wired 6).net = [] ++ { item (.msg aMsg) with flit := some (0, 6) } :: [] ∧
    (let l := (List.range 256).map (fun l => (l, (⟨.up, 16, 0, 0, 0, 0, 0⟩ : Link)))
     let i := item (.msg aMsg)
     let s : State := { worker with links := l, net := [i] }
     let far : NetItem := { i with src := 16 }
     s.wayHeld (destCol i.dst) 0 = false ∧ s.crossings (destCol i.dst) 0 = [] ∧ s.traffic.any (s.underWay (linkEnds 38)) = false ∧
     ({ s with fenceDue := [38] } : State).wayHeld (destCol i.dst) 272 = true ∧
     ({ s with net := [far] } : State).traffic.any (s.underWay (linkEnds 38)) = true ∧
     s.chips.any (fun h => h.2.drift.isSome) = false) ∧
    (∀ t ∈ [999999999, 1000000000], (({ linked 0 .degraded with time := t } : State).link 0).since + 1000000000 ≤ t ↔ t = 1000000000) ∧
    ((linked 0 .training).outbox = []) := by decide +kernel

/-- An add of a peer to the queue 8, and connections that are late or lost. -/
theorem test_witness_PeerEvents_more :
    (let e : W64 := BitVec.ofNat 64 (5 * 2 ^ 48 + 8 * 2 ^ 32 + 7)
     let s := { user (.worker 0) id with queues := [(8, aQueue true)], acl := [(0, e)], mem := memWriteN pages 0x40000 (natBytes 8 3) }
     s.aclFor 5 8 ≠ none ∧ s.peerCode 5 8 0 8 true = 0 ∧ (match s.sysRead 1 (s.queueHome (aQueue true)) 46007 0x40000 8 with
      | (t, .ok, o) => leNat o == 3 && (match t.sysWrite 1 (s.queueHome (aQueue true)) 46007 ⟨true, true, false, false⟩ 0x40000 (natBytes 8 4) with
        | (_, .ok) => true
        | _ => false)
      | _ => false) = true) ∧
    (∀ t ∈ [49999, 50000], let c : Conn := ⟨5, 0, 1, 0, 0, [(0, [])], none, [], 0, none⟩
      let s : State := { worker with links := [(260, ⟨.up, 8, 0, 0, 0, 0, 0⟩), (261, ⟨.up, 8, 0, 0, 0, 0, 0⟩)], conns := [(255, c)], time := t }
      (s.link (260 + c.port)).st ≠ .fenced ∧ c.unacked ≠ [] ∧ (c.since + 50000 ≤ s.time ↔ t = 50000)) ∧
    (let c : Conn := ⟨5, 0, 1, 0, 0, [(0, [])], none, [], 0, some 0⟩
     let s := { linked 260 .fenced with conns := [(255, c)], time := 100000000 }
     (s.link (260 + c.port)).carries = false ∧ c.lost = some 0 ∧ 0 + 100000000 ≤ s.time ∧ 99999999 < 0 + 100000000) := by
  decide +kernel

/-- With no port open there is no other port to a peer. -/
theorem test_witness_PeerEvents_lost (c : Conn) : (linked 260 .fenced).otherPort c = none := by
  have h (p : Nat) : (linked 260 .fenced).portOpen p = false := by
    by_cases e : p = 0
    · subst e; rfl
    · have : (linked 260 .fenced).link (260 + p) = Link.init0 := by simp [State.link, linked, mget, mfind, e]
      rw [State.portOpen, this]
      simp [Link.init0]
  simp [State.otherPort, h]

theorem test_witness_PowerAndHeatEvents_more :
    (let s := worker.modChip 63 (fun x => { x with pw := { x.pw with setmv := 600, low := 3 } })
     5 + 50 < (s.chip 63).pw.setmv ∧ (s.chip 63).pw.low = 3 ∧ ∀ e ∈ s.ctxs, 63 ∉ ctxChips e.2) ∧
    (∀ w ∈ [TPower.busy, .hold 0], let s := { worker.setPtile 258 { PTile.init0 258 with st := .spare, power := w } with time := 20000 }
      (s.ptile 258).power = w ∧ (s.ptile 258).idle = true ∧ (s.chip 0).pw.gen = true ∧ 0 + 20000 ≤ s.time) ∧
    (let s : State := { State.reset with boot := { State.reset.boot with step := 3, fail := true, failAt := 0 }, time := 10000000000 }
     s.boot.step = 3 ∧ s.boot.fail = true ∧ s.boot.failAt + 10000000000 ≤ s.time ∧ ¬ 0 + 10000000000 ≤ 9999999999) ∧
    State.reset.linksDone 0 = false ∧
    ({ State.reset with links := (List.range 256).map (fun l => (l, ⟨.up, 16, 0, 0, 0, 0, 0⟩)) } : State).linksDone 0 = true ∧
    mfind worker.bar2 (2 ^ 36 / 2 ^ 33) = none ∧ 2 ^ 36 ≤ 2 ^ 36 := by decide +kernel

end Sys2Proof.Tests
end

/-! SUPPORT. What reset leaves (01 R22; 02 R39; 15 R237, R249; 18 R285, R296; 22 R385), component by component, and O16. -/

namespace Sys2Proof.Machine

/-- A vector of one value reads that value at every index, the one beyond the end being the same. -/
@[simp] theorem vget_replicate {α : Type} (n : Nat) (d : α) (k : Nat) : vget d (Vector.replicate n d) k = d := by
  simp only [vget, Vector.toList_replicate, List.getD_eq_getElem?_getD, List.getElem?_replicate]
  split <;> rfl

theorem State.chip_reset (h : Nat) : State.reset.chip h = Chip.init0 := rfl
theorem State.ptile_reset (p : Nat) : State.reset.ptile p = PTile.init0 p := rfl
theorem State.colE_reset (c : Nat) : State.reset.colE c = ColEntry.init0 := rfl

/-- Every core is cleared at reset: those of the tiles idle, the others without firmware. -/
theorem State.core_reset (c : CoreRef) : ∃ ph, State.reset.core c = Core.init ph := by
  cases c with
  | worker t => exact ⟨.idle, rfl⟩
  | feeder t => exact ⟨.idle, rfl⟩
  | sys n k => exact ⟨.unloaded, by simp [State.core, State.chip_reset, Chip.init0]⟩
  | mgmt i k => exact ⟨.unloaded, rfl⟩

/-- The reset entry of a column serves virtual row k by row k (01 R22). -/
theorem ColEntry.init0_row {k : Nat} (hk : k < 16) : (vget 31 ColEntry.init0 k).toNat = k := by
  have rows : ∀ k, k < 16 → (vget 31 ColEntry.init0 k).toNat = k := by decide
  exact rows k hk

/-- Row 16 of a chiplet holds the spares. -/
theorem PTile.init0_spare (h c : Nat) (hc : c < 16) : (PTile.init0 (272 * h + 256 + c)).st = .spare := by
  simp only [PTile.init0]
  rw [if_pos (by omega)]

/-- Rows 0-15 of a chiplet serve. -/
theorem PTile.init0_serving (h c k : Nat) (hc : c < 16) (hk : k < 16) : (PTile.init0 (272 * h + 16 * k + c)).st = .serving := by
  simp only [PTile.init0]
  rw [if_neg (by omega)]

/-- At reset a router's table is the reset route: X first, then Y (15 R249). -/
theorem State.route_reset (p d : Nat) : State.reset.route p d = resetRoute p d := rfl

/-- The cleared registers hold invalid zeros, queues and named registers alike (02 R29, R39). -/
theorem Regs.clear_scalars (k : Nat) :
    (vget ic Regs.clear.norm.s k).val = ⟨0, false⟩ ∧ (vget ic Regs.clear.norm.q.e k).val = ⟨0, false⟩ ∧
    (vget ic Regs.clear.p k).val = ⟨0, false⟩ ∧ (vget ic Regs.clear.norm.k k).val = ⟨0, false⟩ ∧
    (vget (Cell.mk0 yz) Regs.clear.y k).val = ⟨0, false⟩ := by
  have z : Cell.mk0 iz = ic := rfl
  simp only [Regs.clear, Bank.clear, Ring.empty, z, vget_replicate]
  exact ⟨rfl, rfl, rfl, rfl, rfl⟩

/-- And so does every lane of the vectors. -/
theorem Regs.clear_lanes (k i : Nat) :
    (vget (Cell.mk0 vz) Regs.clear.v k).val.lane i = ⟨0, false⟩ ∧
    (vget (Cell.mk0 vz) Regs.clear.vq.e k).val.lane i = ⟨0, false⟩ := by
  have lane : VVal.lane vz i = ⟨0, false⟩ := vget_replicate 16 il i
  simp only [Regs.clear, Ring.empty, vget_replicate]
  exact ⟨lane, lane⟩

/-- Settles O16: each component of the reset state is the one that an absent key stands for. -/
theorem resetValues : Obligations.ResetValues := by
  refine ⟨rfl, rfl, rfl, rfl, rfl, fun c k hk => ?_, fun h c _ hc => ?_, fun p d => ?_, fun h => ?_, fun c _ _ => ?_, fun c _ => ?_⟩
  · rw [State.colE_reset]; exact ColEntry.init0_row hk
  · simp only [State.ptile_reset]
    exact ⟨PTile.init0_spare h c hc, fun k hk => PTile.init0_serving h c k hc hk⟩
  · rw [State.route_reset]; rfl
  · rw [State.chip_reset]; decide
  · obtain ⟨ph, e⟩ := State.core_reset c
    simp only [e]
    exact ⟨rfl, rfl, rfl, rfl, rfl, rfl, rfl, rfl⟩
  · obtain ⟨ph, e⟩ := State.core_reset c
    simp only [e]
    exact ⟨rfl, rfl, rfl, rfl, Regs.clear_scalars, Regs.clear_lanes⟩

end Sys2Proof.Machine

/-! SUPPORT. Queues, sets of granules and handles: what a push, an insertion and a write leave. -/

namespace Sys2Proof.Machine

/-! ### Result queues (02 R27, R43) -/

theorem vget_vset_self {α : Type} {n : Nat} (d : α) (v : Vector α n) (x : α) {i : Nat} (h : i < n) :
    vget d (vset v i x) i = x := by
  simp [vget, vset, h]

theorem vget_vset_ne {α : Type} {n : Nat} (d : α) (v : Vector α n) (x : α) {i j : Nat} (h : j ≠ i) :
    vget d (vset v i x) j = vget d v j := by
  simp [vget, vset, List.getElem?_set_ne (Ne.symm h)]

/-- A push makes its cell the newest entry. -/
@[simp] theorem Ring.age_push_zero {α : Type} (d : Cell α) (q : Ring α) (c : Cell α) : (q.push c).age d 0 = c := by
  have w : ((q.w + 1) % 16 + 16 - 0 % 16) % 16 = (q.w + 1) % 16 := by omega
  simp only [Ring.age, Ring.push, w]
  exact vget_vset_self d q.e c (by omega)

/-- And every older entry one push older. -/
theorem Ring.age_push_succ {α : Type} (d : Cell α) (q : Ring α) (c : Cell α) {a : Nat} (h : a + 1 < 16) :
    (q.push c).age d (a + 1) = q.age d a := by
  have w : ((q.w + 1) % 16 + 16 - (a + 1) % 16) % 16 = (q.w + 16 - a % 16) % 16 := by omega
  simp only [Ring.age, Ring.push, w]
  exact vget_vset_ne d q.e c (by omega)

/-- Of values pushed one after the other, listed newest first, the a-th is read at age a. -/
theorem Ring.age_pushes {α : Type} (d : Cell α) (q : Ring α) {l : List α} {a : Nat} {v : α} (h : l[a]? = some v) (ha : a < 16) :
    (l.foldr (fun v q => q.push (Cell.mk0 v)) q).age d a = Cell.mk0 v := by
  induction l generalizing a with
  | nil => cases h
  | cons x r ih =>
    cases a with
    | zero => cases h; exact Ring.age_push_zero d _ _
    | succ a => rw [List.foldr_cons, Ring.age_push_succ d _ _ ha]; exact ih h (by omega)

/-- Payload word 0 is pushed first: the word of an age a is 4 - a (02 R43, 13 R222). -/
theorem msgBank_age {m : Msg} {p : Nat → SVal} (h : m.pay = [p 0, p 1, p 2, p 3, p 4]) {a : Nat} (ha : a < 5) :
    ((msgBank m).q.age ic a).val = p (4 - a) := by
  have newestFirst : m.pay = [p 4, p 3, p 2, p 1, p 0].reverse := h
  have word : [p 4, p 3, p 2, p 1, p 0][a]? = some (p (4 - a)) := by
    match a, ha with
    | 0, _ => rfl
    | 1, _ => rfl
    | 2, _ => rfl
    | 3, _ => rfl
    | 4, _ => rfl
  rw [msgBank, newestFirst, List.foldl_reverse, Ring.age_pushes ic _ word (by omega)]
  rfl

/-! ### Sets of numbers -/

theorem mem_setIns {l : List Nat} {k j : Nat} : j ∈ setIns l k ↔ j = k ∨ j ∈ l := by
  induction l with
  | nil => simp [setIns]
  | cons a r ih =>
    simp only [setIns]
    split
    · simp
    · split
      · next h => simp [h]
      · simp [ih, or_left_comm]

theorem mem_foldl_setIns {α : Type} (f : α → Nat) {l : List α} {a : List Nat} {j : Nat} :
    j ∈ l.foldl (fun a e => setIns a (f e)) a ↔ j ∈ a ∨ ∃ e ∈ l, f e = j := by
  induction l generalizing a with
  | nil => simp
  | cons e r ih => simp [ih, mem_setIns, or_assoc, or_left_comm, eq_comm]

/-! ### Handles (05 R110-R113) -/

@[simp] theorem Handle.write_data (h : Handle) (b : List (Nat × Byte)) (fe : Bool) : (h.write b fe).data = memWriteL h.data b := rfl

/-- A write that sets no granule full leaves them as they were. -/
@[simp] theorem Handle.write_false_full (h : Handle) (b : List (Nat × Byte)) : (h.write b false).full = h.full := by
  simp [Handle.write]

/-- A write that sets granules full makes those it touches full, at a plain SCR handle (R112). -/
theorem Handle.mem_write_full (h : Handle) (b : List (Nat × Byte)) {g : Nat} (hl : h.level = 0) (hk : h.kind = 0)
    (hg : ∃ e ∈ b, e.1 / 16 = g) : g ∈ (h.write b true).full := by
  have m : g ∈ b.foldl (fun a e => setIns a (e.1 / 16)) [] := (mem_foldl_setIns _).mpr (.inr hg)
  simp only [Handle.write, hl, hk, BEq.rfl, Bool.and_self, if_pos]
  exact (mem_foldl_setIns id).mpr (.inr ⟨g, m, rfl⟩)

@[simp] theorem Handle.empty_data (h : Handle) (off n : Nat) : (h.empty off n).data = h.data := rfl

@[simp] theorem Handle.empty_full (h : Handle) (off n : Nat) :
    (h.empty off n).full = h.full.filter (fun g => !(granules off n).contains g) := rfl

/-- A handle performs a remote access (R110, R111): the five conditions. -/
theorem Handle.takes_iff (h : Handle) (off : Nat) (op : RemOp) : h.takes off op = true ↔
    h.st = .allocated ∧ h.kind = 0 ∧ h.level ≠ 2 ∧ off + op.size ≤ h.extent ∧ (op.scrOnly = true → h.level = 0) := by
  cases e : op.scrOnly <;> simp [Handle.takes, e, and_assoc]

end Sys2Proof.Machine

/-! SUPPORT. Cores and tiles: what a change of one leaves of the other, results that become known, and consuming loads. -/

namespace Sys2Proof.Machine

/-! ### Cores and tiles -/

/-- A change of a tile that leaves its two cores leaves every core. -/
theorem State.core_modTile (s : State) (t : Nat) {f : VTile → VTile} (hw : ∀ v, (f v).worker = v.worker)
    (hf : ∀ v, (f v).feeder = v.feeder) (c : CoreRef) : (s.modTile t f).core c = s.core c := by
  have tile (u : Nat) : ((s.modTile t f).tile u).worker = (s.tile u).worker ∧ ((s.modTile t f).tile u).feeder = (s.tile u).feeder := by
    by_cases e : u = t
    · subst e; simp [State.modTile, hw, hf]
    · simp [State.modTile, State.tile_setTile_ne s _ e]
  cases c with
  | worker u => exact (tile u).1
  | feeder u => exact (tile u).2
  | sys n k => rfl
  | mgmt i k => rfl

@[simp] theorem State.tile_modTile (s : State) (t : Nat) (f : VTile → VTile) : (s.modTile t f).tile t = f (s.tile t) := by
  simp [State.modTile]

@[simp] theorem State.modTile_modTile (s : State) (t : Nat) (f g : VTile → VTile) :
    (s.modTile t f).modTile t g = s.modTile t (fun v => g (f v)) := by simp [State.modTile]

/-- A change of a core changes nothing of a tile but its two cores. -/
theorem State.tile_setCore (s : State) (c : CoreRef) (x : Core) (t : Nat) :
    ∃ w f, (s.setCore c x).tile t = { s.tile t with worker := w, feeder := f } := by
  cases c with
  | worker u =>
    by_cases e : t = u
    · subst e; exact ⟨x, (s.tile t).feeder, by simp [State.setCore]⟩
    · exact ⟨(s.tile t).worker, (s.tile t).feeder, State.tile_setTile_ne s _ e⟩
  | feeder u =>
    by_cases e : t = u
    · subst e; exact ⟨(s.tile t).worker, x, by simp [State.setCore]⟩
    · exact ⟨(s.tile t).worker, (s.tile t).feeder, State.tile_setTile_ne s _ e⟩
  | sys n k => exact ⟨(s.tile t).worker, (s.tile t).feeder, by simp only [State.setCore]; split <;> rfl⟩
  | mgmt i k => exact ⟨(s.tile t).worker, (s.tile t).feeder, rfl⟩

@[simp] theorem State.handles_modCore (s : State) (c : CoreRef) (f : Core → Core) (t : Nat) :
    ((s.modCore c f).tile t).handles = (s.tile t).handles := by
  obtain ⟨w, x, e⟩ := s.tile_setCore c (f (s.core c)) t
  rw [State.modCore, e]

@[simp] theorem State.waits_modCore (s : State) (c : CoreRef) (f : Core → Core) (t : Nat) :
    ((s.modCore c f).tile t).waits = (s.tile t).waits := by
  obtain ⟨w, x, e⟩ := s.tile_setCore c (f (s.core c)) t
  rw [State.modCore, e]

/-! ### Results that become known (03 R57) -/

/-- The flight that a result becomes known of is found by its number, and is no other. -/
theorem Core.flight?_resolve {x : Core} {id : Nat} {f : Flight} (v : RVal) (h : x.flight? id = some f) :
    (x.resolve id v).flight? id = some { f with res := some v, kind := .plain } := by
  have keepsId : (fun f : Flight => f.id == id) ∘
      (fun f : Flight => if f.takes id then ({ f with res := some v, kind := .plain } : Flight) else f) = fun f => f.id == id := by
    funext g; simp only [Function.comp_apply]; split <;> rfl
  have hid : f.id = id := by simpa using List.find?_some h
  have taken : f.takes id = true := by simp [Flight.takes, hid]
  have hx : x.flights.find? (fun f => f.id == id) = some f := h
  simp only [Core.flight?, Core.resolve, List.find?_map, keepsId, hx, Option.map_some, taken, if_true]

theorem State.gets_resolve {s : State} {c : CoreRef} {id : Nat} {f : Flight} (v : RVal) (h : (s.core c).flight? id = some f) :
    (s.modCore c (·.resolve id v)).gets c id v :=
  ⟨_, by rw [State.core_modCore]; exact Core.flight?_resolve v h, rfl, rfl⟩

/-- A wait that nobody answers gets the invalid zero of its class. -/
theorem State.gets_giveZero {s : State} {c : CoreRef} {id : Nat} {f : Flight} (h : (s.core c).flight? id = some f)
    (hk : f.kind = .await) (hr : f.res = none) : (s.giveZero c id).gets c id (zeroOf f.cls) := by
  have e : s.giveZero c id = s.modCore c (·.resolve id (zeroOf f.cls)) := by simp [State.giveZero, h, hk, hr]
  rw [e]; exact State.gets_resolve _ h

/-- The invalid zero that a wait gets changes cores alone. -/
theorem State.giveZero_cases (s : State) (c : CoreRef) (id : Nat) : s.giveZero c id = s ∨ ∃ f, s.giveZero c id = s.modCore c f := by
  unfold State.giveZero
  split
  · split
    · exact .inr ⟨_, rfl⟩
    · exact .inl rfl
  · exact .inl rfl

@[simp] theorem State.handles_giveZero (s : State) (c : CoreRef) (id t : Nat) :
    ((s.giveZero c id).tile t).handles = (s.tile t).handles := by
  rcases s.giveZero_cases c id with e | ⟨f, e⟩ <;> rw [e]
  exact State.handles_modCore s c f t

@[simp] theorem State.giveZero_mem (s : State) (c : CoreRef) (id : Nat) : (s.giveZero c id).mem = s.mem := by
  rcases s.giveZero_cases c id with e | ⟨f, e⟩ <;> rw [e]
  exact State.modCore_mem s c f

theorem State.shapeOf_some {s : State} {c : CoreRef} {id : Nat} {f : Flight} (h : (s.core c).flight? id = some f) :
    s.shapeOf c id = f.shape := by simp [State.shapeOf, h]

/-! ### Log records -/

/-- A record in the log of a tile's context leaves the tiles. -/
@[simp] theorem State.tile_logTile (s : State) (t k c u : Nat) (d : BitVec 224) : (s.logTile t k c d).tile u = s.tile u := by
  unfold State.logTile; split <;> rfl

@[simp] theorem State.core_logTile (s : State) (t k n : Nat) (d : BitVec 224) (c : CoreRef) : (s.logTile t k n d).core c = s.core c := by
  unfold State.logTile
  split
  · cases c <;> rfl
  · rfl

@[simp] theorem State.logTile_mem (s : State) (t k c : Nat) (d : BitVec 224) : (s.logTile t k c d).mem = s.mem := by
  unfold State.logTile; split <;> rfl

/-! ### Handles of a tile -/

section
variable {s : State} {t h : Nat} {hd : Handle} (hh : mfind (s.tile t).handles h = some hd)
include hh

theorem State.modHandle_of_some (f : Handle → Handle) :
    s.modHandle t h f = s.modTile t (fun v => { v with handles := mput v.handles h (f hd) }) := by
  simp [State.modHandle, hh]

theorem State.handle_modHandle (f : Handle → Handle) : mfind ((s.modHandle t h f).tile t).handles h = some (f hd) := by
  simp [State.modHandle_of_some hh]

theorem State.core_modHandle (f : Handle → Handle) (c : CoreRef) : (s.modHandle t h f).core c = s.core c := by
  rw [State.modHandle_of_some hh]
  refine State.core_modTile s t ?_ ?_ c <;> exact fun _ => rfl

theorem State.waits_modHandle (f : Handle → Handle) : ((s.modHandle t h f).tile t).waits = (s.tile t).waits := by
  simp [State.modHandle_of_some hh]

/-- A consuming load is answered with the bytes of its handle. -/
theorem State.consume_bytes (off n : Nat) (fec : Bool) : (s.consume t h off n fec).2 = hd.read off n := by
  simp [State.consume, hh]

/-- It leaves the handle's bytes, and empties the granules it touches where it asked to. -/
theorem State.handle_consume (off n : Nat) (fec : Bool) :
    ∃ e, mfind ((s.consume t h off n fec).1.tile t).handles h = some e ∧ e.data = hd.data ∧
      e.full = if fec then hd.full.filter (fun g => !(granules off n).contains g) else hd.full := by
  cases fec with
  | false => exact ⟨hd, by simp [State.consume, hh], rfl, rfl⟩
  | true => exact ⟨hd.empty off n, by simpa [State.consume, hh] using State.handle_modHandle hh _, rfl, rfl⟩

theorem State.core_consume (off n : Nat) (fec : Bool) (c : CoreRef) : (s.consume t h off n fec).1.core c = s.core c := by
  cases fec with
  | false => simp [State.consume, hh]
  | true => simpa [State.consume, hh] using State.core_modHandle hh _ c

theorem State.waits_consume (off n : Nat) (fec : Bool) : ((s.consume t h off n fec).1.tile t).waits = (s.tile t).waits := by
  cases fec with
  | false => simp [State.consume, hh]
  | true => simpa [State.consume, hh] using State.waits_modHandle hh _

/-- The answer of a consuming load, at the flight that awaits it. -/
theorem State.consume_answers {c : CoreRef} {id : Nat} {f : Flight} (hf : (s.core c).flight? id = some f) (off n : Nat) (fec : Bool)
    (g : List (Byte × Bool) → RVal) :
    ((s.consume t h off n fec).1.modCore c (·.resolve id (g (s.consume t h off n fec).2))).gets c id (g (hd.read off n)) := by
  rw [State.consume_bytes hh]
  exact State.gets_resolve _ (by rw [State.core_consume hh]; exact hf)

end

end Sys2Proof.Machine

/-! SUPPORT. Arrival and running of messages, arrival of remote accesses, service of waiting loads (07 R144, R146; 13 R222; 05
R111-R113; 01 R24), and O47. -/

namespace Sys2Proof.Machine

/-! ### The events -/

theorem exec_stitchMessageArrival (i : Nat) (s : State) : exec (.stitchMessageArrival i) s = execStitchMessageArrival i s := rfl

theorem exec_stitchMessageRun (t : Nat) (s : State) : exec (.stitchMessageRun t) s = execStitchMessageRun t s := rfl

theorem exec_remoteAccessArrival (i : Nat) (s : State) : exec (.remoteAccessArrival i) s = execRemoteAccessArrival i s := rfl

theorem exec_consumingLoadServed (c : CoreRef) (id : Nat) (s : State) :
    exec (.consumingLoadServed c id) s = execConsumingLoadServed c id s := rfl

/-! ### Arrival (07 R144, R146; 01 R24) -/

/-- A running tile needs no wake. -/
theorem State.wake_busy {s : State} {t : Nat} (h : (s.tile t).power = .busy) : s.wake t = s := by simp [State.wake, h]

section
variable {s : State} {i : Nat} {x : NetItem} {ok : NetBody → Bool} (apply : State → NetItem → State) (hok : ok x.body = true)
include hok

/-- An item that lands leaves the networks and is applied. -/
theorem State.arrive_of_lands (h : s.lands i x) : s.arrive i ok apply = apply { s with net := delAt s.net i } x := by
  obtain ⟨hready, hserved, hdrift, hbusy, hnew⟩ := h
  have hserved' := Option.isNone_eq_false_iff.mpr hserved
  simp [State.arrive, hready, hok, hserved', hdrift, State.wake_busy hbusy, hbusy, hnew]

/-- An item that was applied before is dropped (R146). -/
theorem State.arrive_of_seen (hready : s.itemReady i = some x) (hserved : (s.physOf x.dst).isSome = true)
    (hdrift : s.driftAt x.dst = none) (hbusy : (s.tile x.dst).power = .busy) (hseen : (s.tile x.dst).seen x = true) :
    s.arrive i ok apply = { s with net := delAt s.net i } := by
  have hserved' := Option.isNone_eq_false_iff.mpr hserved
  simp [State.arrive, hready, hok, hserved', hdrift, State.wake_busy hbusy, hbusy, hseen]

/-- An item whose tile no row serves is returned (R24). -/
theorem State.arrive_of_unserved (hready : s.itemReady i = some x) (hnone : s.physOf x.dst = none) :
    s.arrive i ok apply = ({ s with net := delAt s.net i } : State).undeliverable x := by
  simp [State.arrive, hready, hok, hnone]

end

theorem State.markSeen_landed {s : State} {i : Nat} {x : NetItem} :
    ({ s with net := delAt s.net i } : State).markSeen x = s.landed i x := rfl

/-- Landing changes one channel's expected number at the destination. -/
theorem State.tile_landed (s : State) (i : Nat) (x : NetItem) : (s.landed i x).tile x.dst =
    { s.tile x.dst with chIn := mput (s.tile x.dst).chIn (x.src * 8 + x.cls) ((x.seq + 1) % 2 ^ 24) } := by
  simp only [State.landed, State.markSeen, State.tile_modTile]; rfl

/-- It leaves every core. -/
@[simp] theorem State.core_landed (s : State) (i : Nat) (x : NetItem) (c : CoreRef) : (s.landed i x).core c = s.core c := by
  have e : (s.landed i x).core c = ({ s with net := delAt s.net i } : State).core c := by
    refine State.core_modTile _ x.dst ?_ ?_ c <;> exact fun _ => rfl
  rw [e]; cases c <;> rfl

/-! ### Messages (13 R222) -/

theorem State.messageArrival_lands {s : State} {i : Nat} {x : NetItem} {m : Msg} (h : s.lands i x) (hb : x.body = .msg m) :
    exec (.stitchMessageArrival i) s = .next ((s.landed i x).modTile x.dst (fun v => { v with msgs := v.msgs ++ [m] })) := by
  rw [exec_stitchMessageArrival, execStitchMessageArrival, State.arrive_of_lands _ (by rw [hb]) h, State.applyMsg, hb]
  rfl

theorem State.messageArrival_seen {s : State} {i : Nat} {x : NetItem} {m : Msg} (hready : s.itemReady i = some x)
    (hb : x.body = .msg m) (hserved : (s.physOf x.dst).isSome = true) (hdrift : s.driftAt x.dst = none)
    (hbusy : (s.tile x.dst).power = .busy) (hseen : (s.tile x.dst).seen x = true) :
    exec (.stitchMessageArrival i) s = .next { s with net := delAt s.net i } := by
  rw [exec_stitchMessageArrival, execStitchMessageArrival, State.arrive_of_seen _ (by rw [hb]) hready hserved hdrift hbusy hseen]

theorem State.messageArrival_unserved {s : State} {i : Nat} {x : NetItem} {m : Msg} (hready : s.itemReady i = some x)
    (hb : x.body = .msg m) (hnone : s.physOf x.dst = none) :
    exec (.stitchMessageArrival i) s = .next (({ s with net := delAt s.net i } : State).logTile x.src 0x000b
      (if isFeeder x.c then 1 else 0) (detail [(336, (s.vtileBits x.dst).toNat), (328, 3)])) := by
  rw [exec_stitchMessageArrival, execStitchMessageArrival, State.arrive_of_unserved _ (by rw [hb]) hready hnone]
  simp only [State.undeliverable, hb, NetBody.asks, NetBody.code]
  rfl

/-- The moments of R222: at a block entry, idle, or held at issue for a result of its own. -/
theorem Core.takesMsg_of {x : Core} (hrun : x.msgRun = none)
    (h : x.phase = .idle ∨ (∃ a how, x.phase = .entering a how) ∨ (x.phase = .running ∧ x.blocked = true ∧ x.awaits = true)) :
    x.takesMsg = true := by
  rcases h with h | ⟨a, how, h⟩ | ⟨h, hb, ha⟩
  · simp [Core.takesMsg, hrun, h]
  · simp [Core.takesMsg, hrun, h]
  · simp [Core.takesMsg, hrun, h, hb, ha]

/-- The feeder as it issues a message: the four template words, in a bank of the message's own. -/
def Core.withMsg (x : Core) (m : Msg) : Core :=
  { x with r := { x.r with msg := msgBank m }, sel := .msg, msgRun := some (m, x.blk), blocked := false, awaits := false,
           began := none, busyAt := none, msgRec := [], msgTo := 0, blk := { Blk.none with words := m.tpl } }

/-- The oldest queued message becomes what the feeder issues. -/
theorem State.messageRun_next {s : State} {t : Nat} {m : Msg} {r : List Msg} (ht : t < 16384) (hm : (s.tile t).msgs = m :: r)
    (hx : (s.tile t).feeder.takesMsg = true) (hq : s.queuesOnly t = false) :
    exec (.stitchMessageRun t) s = .next (s.setTile t { s.tile t with msgs := r, feeder := (s.tile t).feeder.withMsg m }) := by
  simp [exec_stitchMessageRun, execStitchMessageRun, atTile, atUnit, ht, State.msgStart, hm, hx, hq, Core.withMsg]

/-! ### Remote accesses (05 R110-R113; 21 R345, R349, R358) -/

/-- A remote access that lands, and that no engine command and no bank holds, is applied. -/
theorem State.remoteAccess_lands {s : State} {i h off : Nat} {x : NetItem} {op : RemOp} (hl : s.lands i x)
    (hb : x.body = .acc h off op) (hn : s.netHeld i = false) :
    exec (.remoteAccessArrival i) s = .next (State.applyAcc { s with net := delAt s.net i } x) := by
  rw [exec_remoteAccessArrival, execRemoteAccessArrival, hn, State.arrive_of_lands _ (by rw [hb]) hl]
  rfl

/-- What an access does where no handle takes it (R111). -/
theorem State.applyAcc_refused {s u : State} {h off : Nat} {x : NetItem} {op : RemOp} (hu : s.markSeen x = u) (hb : x.body = .acc h off op)
    (hbad : ∀ hd, mfind (u.tile x.dst).handles h = some hd → hd.takes off op = false) :
    s.applyAcc x = u.remRefuse x h off op := by
  simp only [State.applyAcc, hb, hu]
  cases e : mfind (u.tile x.dst).handles h with
  | none => rfl
  | some hd => simp [hbad hd e]

section
variable {s u : State} {h off : Nat} {x : NetItem} {hd : Handle} (hu : s.markSeen x = u)
  (hh : mfind (u.tile x.dst).handles h = some hd)
include hu hh

/-- A load whose granules are full, or that asks for none, and that no earlier one precedes, is answered at once. -/
theorem State.applyAcc_load {n fe : Nat} (hb : x.body = .acc h off (.load n fe)) (ht : hd.takes off (.load n fe) = true)
    (hnow : fe = 0 ∨ (hd.allFull off n = true ∧
      (u.tile x.dst).consumeAhead (u.tile x.dst).order h off n = false)) :
    s.applyAcc x = (u.consume x.dst h off n (fe == 2)).1.modCore x.c (·.resolve x.id
      ((u.shapeOf x.c x.id).make (u.consume x.dst h off n (fe == 2)).2)) := by
  simp only [State.applyAcc, hb, hu, hh, ht]
  rcases hnow with hnow | ⟨hfull, hfirst⟩
  · simp [hnow]
  · simp [hfull, hfirst]

/-- Another consuming load joins the wait list (R113). -/
theorem State.applyAcc_wait {n fe : Nat} (hb : x.body = .acc h off (.load n fe)) (ht : hd.takes off (.load n fe) = true)
    (hfe : fe ≠ 0) (hlater : ¬ (hd.allFull off n = true ∧
      (u.tile x.dst).consumeAhead (u.tile x.dst).order h off n = false)) :
    s.applyAcc x = u.putWait x.dst ⟨x.c, x.id, h, off, n, fe == 2, (u.tile x.dst).order⟩ := by
  have later : (!(hd.allFull off n &&
      !(u.tile x.dst).consumeAhead (u.tile x.dst).order h off n)) = true := by
    rw [Bool.not_eq_true', ← Bool.not_eq_true, Bool.and_eq_true, Bool.not_eq_true']; exact hlater
  simp only [State.applyAcc, hb, hu, hh, ht, later]
  simp [hfe]

theorem State.applyAcc_store {n : Nat} {bytes : List (Nat × Byte)} {fe : Bool} (hb : x.body = .acc h off (.store bytes n fe))
    (ht : hd.takes off (.store bytes n fe) = true) :
    s.applyAcc x = u.modHandle x.dst h (·.write bytes fe) := by
  simp [State.applyAcc, hb, hu, hh, ht]

theorem State.applyAcc_atomic {a : AtomReq} (hb : x.body = .acc h off (.atomic a)) (ht : hd.takes off (.atomic a) = true) :
    s.applyAcc x = (u.bankAtomic x.dst h off a).1.modCore x.c (·.resolve x.id
      (.s (valid (u.bankAtomic x.dst h off a).2))) := by
  simp [State.applyAcc, hb, hu, hh, ht]

end

/-- A refused access leaves the handles and the memory; it is answered, where it asks for an answer, with an invalid zero. -/
theorem State.remRefuse_spec (s : State) (x : NetItem) (h off : Nat) (op : RemOp) :
    ((s.remRefuse x h off op).tile x.dst).handles = (s.tile x.dst).handles ∧ (s.remRefuse x h off op).mem = s.mem ∧
    (∀ f, op.reads = true → (s.core x.c).flight? x.id = some f → f.kind = .await → f.res = none →
      (s.remRefuse x h off op).gets x.c x.id (zeroOf f.cls)) ∧
    (op.reads = false → (s.remRefuse x h off op).core x.c = s.core x.c) := by
  cases e : op.reads with
  | false => simp [State.remRefuse, e]
  | true =>
    refine ⟨by simp [State.remRefuse, e], by simp [State.remRefuse, e], fun f _ hf hk hr => ?_, by simp⟩
    simp only [State.remRefuse, e, if_true]
    exact State.gets_giveZero (by rw [State.core_logTile]; exact hf) hk hr

/-- What an atomic at a bank writes and answers (R358). -/
theorem State.bankAtomic_of_some {s : State} {t h : Nat} {hd : Handle} (hh : mfind (s.tile t).handles h = some hd) (off : Nat)
    (a : AtomReq) : s.bankAtomic t h off a =
      (s.modHandle t h (·.write (atAddr off (natBytes a.n
        (atomNew a.op a.n (memReadLE hd.data off a.n) a.x.toNat a.c.toNat).1)) false), BitVec.ofNat 64 (memReadLE hd.data off a.n)) := by
  simp [State.bankAtomic, hh]

section
variable {s : State} {i h off : Nat} {x : NetItem} {hd : Handle} (hl : s.lands i x) (hn : s.netHeld i = false)
  (hh : mfind (s.tile x.dst).handles h = some hd)

include hh in
theorem State.handle_landed : mfind ((s.landed i x).tile x.dst).handles h = some hd := by rw [State.tile_landed]; exact hh

include hl hn hh

/-- A load answers with the bytes of the handle, and empties their granules where it asked to. -/
theorem State.remoteLoad_answers {n fe : Nat} {f : Flight} (hb : x.body = .acc h off (.load n fe))
    (ht : hd.takes off (.load n fe) = true) (hf : (s.core x.c).flight? x.id = some f)
    (hnow : fe = 0 ∨ (hd.allFull off n = true ∧ (s.tile x.dst).consumeAhead (s.tile x.dst).order h off n = false)) :
    ∃ t, exec (.remoteAccessArrival i) s = .next t ∧ t.gets x.c x.id (f.shape.make (hd.read off n)) ∧
      ∃ e, mfind (t.tile x.dst).handles h = some e ∧ e.data = hd.data ∧
        e.full = if fe = 2 then hd.full.filter (fun g => !(granules off n).contains g) else hd.full := by
  have hh' := State.handle_landed (i := i) hh
  have hf' : ((s.landed i x).core x.c).flight? x.id = some f := by rw [State.core_landed]; exact hf
  refine ⟨_, (State.remoteAccess_lands hl hb hn).trans (congrArg _ (State.applyAcc_load State.markSeen_landed hh' hb ht ?_)), ?_, ?_⟩
  · exact hnow.imp_right fun hnow => ⟨hnow.1, by rw [State.tile_landed]; exact hnow.2⟩
  · rw [State.shapeOf_some hf']; exact State.consume_answers hh' hf' off n (fe == 2) f.shape.make
  · obtain ⟨e, he, hdata, hfull⟩ := State.handle_consume hh' off n (fe == 2)
    exact ⟨e, by rw [State.handles_modCore]; exact he, hdata, by simpa using hfull⟩

/-- A consuming load that cannot be answered yet joins the wait list. -/
theorem State.remoteLoad_waits {n fe : Nat} (hb : x.body = .acc h off (.load n fe)) (ht : hd.takes off (.load n fe) = true)
    (hfe : fe ≠ 0)
    (hlater : ¬ (hd.allFull off n = true ∧ (s.tile x.dst).consumeAhead (s.tile x.dst).order h off n = false)) :
    exec (.remoteAccessArrival i) s = .next ((s.landed i x).modTile x.dst (fun w =>
      { w with waits := w.waits ++ [⟨x.c, x.id, h, off, n, fe == 2, (s.tile x.dst).order⟩],
               order := max w.order ((s.tile x.dst).order + 1) })) := by
  have hh' := State.handle_landed (i := i) hh
  have order : ((s.landed i x).tile x.dst).order = (s.tile x.dst).order := by rw [State.tile_landed]
  have ahead : ((s.landed i x).tile x.dst).consumeAhead (s.tile x.dst).order h off n =
      (s.tile x.dst).consumeAhead (s.tile x.dst).order h off n := by rw [State.tile_landed]; rfl
  have wait := State.applyAcc_wait State.markSeen_landed hh' hb ht hfe
  rw [order, ahead] at wait
  exact (State.remoteAccess_lands hl hb hn).trans (congrArg _ (wait hlater))

/-- A store writes its bytes, and makes their granules full where it asked to. -/
theorem State.remoteStore_writes {n : Nat} {bytes : List (Nat × Byte)} {fe : Bool} (hb : x.body = .acc h off (.store bytes n fe))
    (ht : hd.takes off (.store bytes n fe) = true) :
    ∃ t e, exec (.remoteAccessArrival i) s = .next t ∧ mfind (t.tile x.dst).handles h = some e ∧
      e.data = memWriteL hd.data bytes ∧ (∀ g, fe = true → (∃ b ∈ bytes, b.1 / 16 = g) → g ∈ e.full) ∧
      (fe = false → e.full = hd.full) := by
  have hh' := State.handle_landed (i := i) hh
  obtain ⟨-, hkind, -, -, hscr⟩ := (hd.takes_iff off _).mp ht
  refine ⟨_, _, (State.remoteAccess_lands hl hb hn).trans (congrArg _ (State.applyAcc_store State.markSeen_landed hh' hb ht)),
    State.handle_modHandle hh' _, rfl, fun g hfe hg => ?_, fun hfe => ?_⟩
  · subst hfe; exact hd.mem_write_full bytes (hscr rfl) hkind hg
  · subst hfe; exact hd.write_false_full bytes

/-- An atomic answers with the old value and writes the new one; the full bits stay (R358). -/
theorem State.remoteAtomic_answers {a : AtomReq} {f : Flight} (hb : x.body = .acc h off (.atomic a))
    (ht : hd.takes off (.atomic a) = true) (hf : (s.core x.c).flight? x.id = some f) :
    ∃ t e, exec (.remoteAccessArrival i) s = .next t ∧
      t.gets x.c x.id (.s ⟨BitVec.ofNat 64 (memReadLE hd.data off a.n), true⟩) ∧ mfind (t.tile x.dst).handles h = some e ∧
      e.data = memWriteL hd.data (atAddr off (natBytes a.n
        (atomNew a.op a.n (memReadLE hd.data off a.n) a.x.toNat a.c.toNat).1)) ∧ e.full = hd.full := by
  have hh' := State.handle_landed (i := i) hh
  have apply := State.applyAcc_atomic State.markSeen_landed hh' hb ht
  rw [State.bankAtomic_of_some hh'] at apply
  refine ⟨_, _, (State.remoteAccess_lands hl hb hn).trans (congrArg _ apply), State.gets_resolve (f := f) _ ?_, ?_,
    Handle.write_data hd _ false, hd.write_false_full _⟩
  · rw [State.core_modHandle hh', State.core_landed]; exact hf
  · rw [State.handles_modCore]; exact State.handle_modHandle hh' _

end

/-- Where no handle takes the access, it is refused. -/
theorem State.remoteAccess_refused {s : State} {i h off : Nat} {x : NetItem} {op : RemOp} (hl : s.lands i x)
    (hb : x.body = .acc h off op) (hn : s.netHeld i = false)
    (hbad : ∀ hd, mfind (s.tile x.dst).handles h = some hd → hd.takes off op = false) :
    ∃ t, exec (.remoteAccessArrival i) s = .next t ∧ (t.tile x.dst).handles = (s.tile x.dst).handles ∧ t.mem = s.mem ∧
      (∀ f, op.reads = true → (s.core x.c).flight? x.id = some f → f.kind = .await → f.res = none →
        t.gets x.c x.id (zeroOf f.cls)) ∧
      (op.reads = false → (t.core x.c).flights = (s.core x.c).flights) := by
  have hbad' : ∀ hd, mfind ((s.landed i x).tile x.dst).handles h = some hd → hd.takes off op = false := by
    rw [State.tile_landed]; exact hbad
  obtain ⟨handles, mem, zero, silent⟩ := (s.landed i x).remRefuse_spec x h off op
  rw [State.tile_landed] at handles
  rw [State.core_landed] at zero silent
  exact ⟨_, (State.remoteAccess_lands hl hb hn).trans (congrArg _ (State.applyAcc_refused State.markSeen_landed hb hbad')),
    handles, mem, zero, fun hr => by rw [silent hr]⟩

/-! ### Waiting loads (05 R113) -/

/-- The waits of the list that are not those of a core and number. -/
theorem waits_without {l r : List WaitE} {w : WaitE} (h : ∀ o ∈ l ++ r, ¬ (o.c = w.c ∧ o.id = w.id)) :
    (l ++ w :: r).find? (fun o => decide (o.c = w.c ∧ o.id = w.id)) = some w ∧
    (l ++ w :: r).filter (fun o => !decide (o.c = w.c ∧ o.id = w.id)) = l ++ r := by
  have others (k : List WaitE) (hk : ∀ o ∈ k, o ∈ l ++ r) : k.filter (fun o => !decide (o.c = w.c ∧ o.id = w.id)) = k :=
    List.filter_eq_self.mpr fun o ho => by rw [Bool.not_eq_true', decide_eq_false_iff_not]; exact h o (hk o ho)
  have before : l.find? (fun o => decide (o.c = w.c ∧ o.id = w.id)) = none :=
    List.find?_eq_none.mpr fun o ho => by rw [decide_eq_true_eq]; exact h o (List.mem_append_left r ho)
  constructor
  · rw [List.find?_append, before]; simp
  · rw [List.filter_append, List.filter_cons_of_neg (by simp), others l (fun o => List.mem_append_left r),
      others r (fun o => List.mem_append_right l)]

/-- The tile without the wait of a core and number. -/
def State.dropWait (s : State) (t : Nat) (c : CoreRef) (id : Nat) : State :=
  s.modTile t (fun v => { v with waits := v.waits.filter (fun x => !decide (x.c = c ∧ x.id = id)) })

@[simp] theorem State.core_dropWait (s : State) (t : Nat) (c d : CoreRef) (id : Nat) : (s.dropWait t c id).core d = s.core d := by
  refine State.core_modTile s t ?_ ?_ d <;> exact fun _ => rfl

/-- A waiting load whose granules are full, that no other precedes and whose bank is awake, is served. -/
theorem State.consumingLoadServed_next {s : State} {t : Nat} {w : WaitE} {hd : Handle} (hc : coreExists w.c = true)
    (hw : (s.tile t).waits.find? (fun o => decide (o.c = w.c ∧ o.id = w.id)) = some w) (ht : s.waitTile w.c w.id = some t)
    (hfrozen : s.frozen t = false) (hh : mfind (s.tile t).handles w.h = some hd) (hfull : hd.allFull w.off w.n = true)
    (hfirst : (s.tile t).consumeAhead w.ord w.h w.off w.n = false) (hawake : s.sleeps t w.h w.off w.n = false) :
    exec (.consumingLoadServed w.c w.id) s = .next (((s.dropWait t w.c w.id).consume t w.h w.off w.n w.fec).1.modCore w.c
      (·.resolve w.id ((s.shapeOf w.c w.id).make ((s.dropWait t w.c w.id).consume t w.h w.off w.n w.fec).2))) := by
  simp only [exec_consumingLoadServed, execConsumingLoadServed, atCore, hc, if_true, ht, hfrozen, State.serveWait, hw, hh, hfull,
    hfirst, hawake]
  rfl

/-- It gets the bytes of its handle, leaves the wait list, and empties its granules where it asked to. -/
theorem State.waitingLoad_served {s : State} {t : Nat} {w : WaitE} {l r : List WaitE} {hd : Handle} {f : Flight}
    (hc : coreExists w.c = true) (hw : (s.tile t).waits = l ++ w :: r) (hone : ∀ o ∈ l ++ r, ¬ (o.c = w.c ∧ o.id = w.id))
    (ht : s.waitTile w.c w.id = some t) (hfrozen : s.frozen t = false) (hh : mfind (s.tile t).handles w.h = some hd)
    (hf : (s.core w.c).flight? w.id = some f) (hfull : hd.allFull w.off w.n = true)
    (hfirst : (s.tile t).consumeAhead w.ord w.h w.off w.n = false) (hawake : s.sleeps t w.h w.off w.n = false) :
    ∃ u e, exec (.consumingLoadServed w.c w.id) s = .next u ∧ (u.tile t).waits = l ++ r ∧
      u.gets w.c w.id (f.shape.make (hd.read w.off w.n)) ∧ mfind (u.tile t).handles w.h = some e ∧ e.data = hd.data ∧
      e.full = if w.fec then hd.full.filter (fun g => !(granules w.off w.n).contains g) else hd.full := by
  obtain ⟨found, rest⟩ := waits_without hone
  have hh' : mfind ((s.dropWait t w.c w.id).tile t).handles w.h = some hd := by simpa [State.dropWait] using hh
  have hf' : ((s.dropWait t w.c w.id).core w.c).flight? w.id = some f := by rw [State.core_dropWait]; exact hf
  obtain ⟨e, he, hdata, hempty⟩ := State.handle_consume hh' w.off w.n w.fec
  refine ⟨_, e, State.consumingLoadServed_next hc (by rw [hw]; exact found) ht hfrozen hh hfull hfirst hawake,
    ?_, ?_, ?_, hdata, hempty⟩
  · rw [State.waits_modCore, State.waits_consume hh', State.dropWait, State.tile_modTile, hw, rest]
  · rw [State.shapeOf_some hf]
    exact State.consume_answers hh' hf' w.off w.n w.fec f.shape.make
  · rw [State.handles_modCore]; exact he

/-! ### O47 -/

/-- A handle of R110 and R111 takes the access. -/
theorem Handle.takes_of {hd : Handle} {off : Nat} {op : RemOp} (hst : hd.st = .allocated) (hk : hd.kind = 0)
    (hlv : hd.level = 0 ∨ (hd.level = 1 ∧ op.scrOnly = false)) (hx : off + op.size ≤ hd.extent) : hd.takes off op = true := by
  refine (hd.takes_iff off op).mpr ⟨hst, hk, ?_, hx, fun hs => ?_⟩
  · omega
  · rcases hlv with h0 | ⟨-, h1⟩
    · exact h0
    · simp [hs] at h1

/-- Any other does not. -/
theorem Handle.takes_eq_false {hd : Handle} {off : Nat} {op : RemOp} (h : hd.st ≠ .allocated ∨ hd.kind ≠ 0 ∨ hd.level = 2 ∨
    hd.extent < off + op.size ∨ (op.scrOnly = true ∧ hd.level ≠ 0)) : hd.takes off op = false := by
  rw [← Bool.not_eq_true, Handle.takes_iff]
  rintro ⟨hst, hk, hlv, hx, hscr⟩
  rcases h with h | h | h | h | ⟨hs, h⟩
  · exact h hst
  · exact h hk
  · exact hlv h
  · omega
  · exact h (hscr hs)

/-- Settles O47: each clause is the lemma above about its event. -/
theorem messageAndRemoteEvents : Obligations.MessageAndRemoteEvents := by
  refine ⟨⟨fun s i x m hl hb => ?_, fun s i x m hr hb => ?_, fun s t m r ht hm hrun hphase hq => ?_⟩,
    fun s i h off x op hl hb hn => ?_, fun s t w l r hd f hc hw hone ht hfz hh hf hfull hfirst hawake => ?_⟩
  · exact ⟨State.messageArrival_lands hl hb, by rw [State.tile_landed]⟩
  · exact ⟨State.messageArrival_seen hr hb, State.messageArrival_unserved hr hb⟩
  · refine ⟨_, State.messageRun_next ht hm (Core.takesMsg_of hrun hphase) hq, ?_⟩
    rw [State.tile_setTile]
    exact ⟨rfl, rfl, rfl, rfl, rfl, rfl, rfl, rfl, rfl, rfl, fun p hp a ha => msgBank_age hp ha, rfl⟩
  · refine ⟨fun hd hh hst hk hlv hx => ?_, fun hbad =>
      State.remoteAccess_refused hl hb hn fun hd hh => Handle.takes_eq_false (hbad hd hh)⟩
    have takes := Handle.takes_of hst hk hlv hx
    refine ⟨fun f fe hop hf hnow => ?_, fun fe hop hfe hlater => ?_, fun bytes fe hop => ?_, fun a f hop hf => ?_⟩
    · rw [hop] at hb takes; exact State.remoteLoad_answers hl hn hh hb takes hf hnow
    · rw [hop] at hb takes; exact State.remoteLoad_waits hl hn hh hb takes hfe hlater
    · rw [hop] at hb takes; exact State.remoteStore_writes hl hn hh hb takes
    · rw [hop] at hb takes; exact State.remoteAtomic_answers hl hn hh hb takes hf
  · exact State.waitingLoad_served hc hw hone ht hfz hh hf hfull hfirst hawake

end Sys2Proof.Machine

/-! SUPPORT. Results in flight that a launch adds, the pages of a window, and HALLOC, HWIN, HFREE and HINFO (05 R107-R109, R114;
21 R359-R361), and O38. -/

namespace Sys2Proof.Machine

/-! ### Results in flight after an issue (03 R57) -/

theorem Core.flights_putS (x : Core) (d : Nat) (c : Cell SVal) : (x.putS d c).flights = x.flights := by
  simp only [Core.putS, Core.setBank]
  repeat' split
  all_goals rfl

theorem Core.flights_putV (x : Core) (d : Nat) (c : Cell VVal) : (x.putV d c).flights = x.flights := by
  simp only [Core.putV]
  repeat' split
  all_goals rfl

theorem Core.flights_putY (x : Core) (d : Nat) (c : Cell YVal) : (x.putY d c).flights = x.flights := by
  simp only [Core.putY]
  split <;> rfl

theorem Core.flights_fly (x : Core) (f : Flight) :
    ∃ g : Flight, (x.fly f).flights = x.flights ++ [g] ∧ g.dst = f.dst ∧ g.res = f.res ∧ g.kind = f.kind :=
  ⟨_, rfl, rfl, rfl, rfl⟩

/-- A launch adds one flight behind the others, with its destination. -/
theorem Core.flights_launch (x : Core) (cls : Cls) (d : BitVec 5) (f : Flight) :
    ∃ g : Flight, (x.launch cls d f).flights = x.flights ++ [g] ∧ g.dst = d.toNat ∧ g.res = f.res ∧ g.kind = f.kind := by
  cases cls with
  | s => rw [← x.flights_putS d.toNat ⟨iz, 0, some x.nextId⟩]; exact Core.flights_fly _ _
  | v => rw [← x.flights_putV d.toNat ⟨vz, 0, some x.nextId⟩]; exact Core.flights_fly _ _
  | y => rw [← x.flights_putY d.toNat ⟨yz, 0, some x.nextId⟩]; exact Core.flights_fly _ _

@[simp] theorem Core.flights_advance (x : Core) (n : Nat) (st : BitVec 3) : (x.advance n st).flights = x.flights := by
  simp only [Core.advance, Core.endMsg]
  repeat' split
  all_goals rfl

@[simp] theorem Core.flights_record (x : Core) (w : Nat) : (x.record w).flights = x.flights := by
  simp only [Core.record]
  split <;> rfl

/-- An instruction that ends with a launch has one result in flight more. -/
theorem State.inFlight_launch {s t : State} {cls : Cls} {d : BitVec 5} {f : Flight} {p : Flight → Prop} (n : Nat) (st : BitVec 3)
    (ht : t.core s.cur = s.core s.cur) (hp : ∀ g : Flight, g.dst = d.toNat → g.res = f.res → g.kind = f.kind → p g) :
    s.inFlight (finish s.cur n st (.eff (t.modCore s.cur (·.launch cls d f)))) p := by
  obtain ⟨g, hg, hdst, hres, hkind⟩ := (s.core s.cur).flights_launch cls d f
  refine ⟨(s.core s.cur).flights, g, ?_, rfl, hp g hdst hres hkind⟩
  simp [finish, ht, hg]

/-- A core that is ready runs no stitch message: a trap of its instruction is taken. -/
theorem State.finish_trap {s : State} {l : List Src} (h : s.ready l = true) (n : Nat) (st : BitVec 3) (code : Nat) (a : W64) :
    finish s.cur n st (.trap code a s) = s.takeTrap s.cur code a := by
  obtain ⟨-, -, -, -, hmsg, -, -⟩ := (s.ready_iff l).mp h
  simp [finish, hmsg]

/-! ### HALLOC (05 R103, R107; 21 R359) -/

/-- HALLOC, HWIN, HFREE and HINFO are permitted on both cores of a tile (03 R68). -/
theorem classBad_handle {k : CoreKind} (h : k ≠ .sysm) {o : Nat} (ho : o ∈ [0x68, 0x69, 0x6a]) : classBad k o false = false := by
  cases k with
  | worker => rfl
  | feeder =>
    simp only [List.mem_cons, List.not_mem_nil, or_false] at ho
    rcases ho with rfl | rfl | rfl <;> rfl
  | sysm => exact absurd rfl h

/-- The fields of a descriptor read back. -/
theorem descOf_mkDesc (lv : BitVec 2) (ft : BitVec 4) (rows cols : BitVec 16) :
    descOf (mkDesc lv.toNat ft.toNat 0 rows.toNat cols.toNat false) = ⟨lv.toNat, ft.toNat, 0, rows.toNat, cols.toNat⟩ := by
  have hlv := lv.isLt
  have hft := ft.isLt
  have hr := rows.isLt
  have hc := cols.isLt
  simp only [descOf, mkDesc, wf, BitVec.toNat_ofNat, Desc.mk.injEq, Bool.false_eq_true, if_false]
  omega

section
variable {s : State} {h : Nat} {desc : CoreRef → State → W64} {d : BitVec 5} {k : Desc} (hk : descOf (desc s.cur s) = k)
include hk

/-- HALLOC of a number in use, or with a bad descriptor. -/
theorem hallocBody_bad (hbad : s.home.numberFree h = false ∨ k.good = false) : hallocBody h desc d s.cur s = .trap HNDL 0 s := by
  subst hk
  refine if_pos ?_
  rcases hbad with hbad | hbad
  · have hbad' : (s.tile (tileOf s.cur)).numberFree h = false := hbad
    simp [hbad']
  · simp [hbad]

variable (hfree : s.home.numberFree h = true) (hgood : k.good = true)
include hfree hgood

theorem hallocBody_good : hallocBody h desc d s.cur s =
    if s.home.freeUnits k.level < unitsFor k.level k.extent then .eff (s.later .s d (.s iz))
    else .eff (s.awaitOrd s.cur d (.halloc h (desc s.cur s))) := by
  subst hk
  have hfree' : (s.tile (tileOf s.cur)).numberFree h = true := hfree
  exact if_neg (by simp [hfree', hgood])

end

/-- Either form of HALLOC does, with its descriptor, what hallocBody says. -/
theorem exec_halloc {s : State} {st : BitVec 3} {a : BitVec 6} {lv : BitVec 2} {ft : BitVec 4} {rows cols : BitVec 16} {d : BitVec 5}
    {h : BitVec 8} {i : Instr} {k : Desc} (hr : s.ready [] = true) (hs : s.kind ≠ .sysm) (hd : dLegal s.kind d = true)
    (hi : (i = .halloc st lv ft d h rows cols ∧ k = ⟨lv.toNat, ft.toNat, 0, rows.toNat, cols.toNat⟩) ∨
      (i = .hallocD st a d h ∧ s.ready [.s a] = true ∧ sLegal s.kind a = true ∧ (s.op a).ok = true ∧
        k = ⟨(s.op a).v.toNat / 2 ^ 62 % 4, (s.op a).v.toNat / 2 ^ 58 % 16, (s.op a).v.toNat / 2 ^ 56 % 4,
          (s.op a).v.toNat / 2 ^ 32 % 2 ^ 16, (s.op a).v.toNat / 2 ^ 16 % 2 ^ 16⟩)) :
    (encode i).length = 2 ∧ ∃ desc, descOf (desc s.cur s) = k ∧
      exec i s = .next (finish s.cur 2 st (hallocBody h.toNat desc d s.cur s)) := by
  have hc := classBad_handle hs (o := 0x68) (by simp)
  rcases hi with ⟨rfl, rfl⟩ | ⟨rfl, hr', ha, hok, rfl⟩
  · exact ⟨rfl, _, descOf_mkDesc lv ft rows cols, issue_valid _ _ _ s hr (show 0x68 < 0x7a by decide) rfl hc hd rfl⟩
  · refine ⟨rfl, fun c s => (s.rdS c a).v, rfl, issue_valid _ _ _ s hr' (show 0x68 < 0x7a by decide) rfl hc ?_ ?_⟩
    · simp [ha, hd]
    · have hok' : (s.rdS s.cur a).ok = true := hok
      simp [State.srcOk, hok']

/-- A wait at a place in tile issue order leaves the cores and the handles of its tile. -/
theorem State.core_ordered (s : State) (t o : Nat) (c : CoreRef) : (s.modTile t (fun v => { v with order := o })).core c = s.core c := by
  refine State.core_modTile s t ?_ ?_ c <;> exact fun _ => rfl

/-- The wait of a HALLOC or HWIN: one result in flight more, of its kind. -/
theorem State.inFlight_awaitOrd {s t : State} {d : BitVec 5} {k : Nat → FKind} (n : Nat) (st : BitVec 3)
    (ht : t.core s.cur = s.core s.cur) : s.inFlight (finish s.cur n st (.eff (t.awaitOrd s.cur d k)))
      (fun f => f.dst = d.toNat ∧ f.res = none ∧ f.kind = k (t.tile (tileOf s.cur)).order) :=
  State.inFlight_launch n st ((t.core_ordered _ _ _).trans ht) (fun _ hdst hres hkind => ⟨hdst, hres, hkind⟩)

theorem State.finish_eff_cur (s : State) (c : CoreRef) (n : Nat) (st : BitVec 3) : (finish c n st (.eff s)).cur = s.cur := by
  simp [finish]

theorem State.finish_eff_pins (s : State) (c : CoreRef) (n : Nat) (st : BitVec 3) : (finish c n st (.eff s)).pins = s.pins := by
  simp [finish]

theorem State.finish_eff_mem (s : State) (c : CoreRef) (n : Nat) (st : BitVec 3) : (finish c n st (.eff s)).mem = s.mem := by
  simp [finish]

theorem State.finish_eff_handles (s : State) (c : CoreRef) (n : Nat) (st : BitVec 3) (t : Nat) :
    ((finish c n st (.eff s)).tile t).handles = (s.tile t).handles := by
  simp [finish]

theorem State.awaitOrd_cur (s : State) (c : CoreRef) (d : BitVec 5) (k : Nat → FKind) : (s.awaitOrd c d k).cur = s.cur := by
  simp [State.awaitOrd, State.await]

theorem State.awaitOrd_pins (s : State) (c : CoreRef) (d : BitVec 5) (k : Nat → FKind) : (s.awaitOrd c d k).pins = s.pins := by
  simp [State.awaitOrd, State.await]

theorem State.awaitOrd_handles (s : State) (c : CoreRef) (d : BitVec 5) (k : Nat → FKind) :
    ((s.awaitOrd c d k).tile (tileOf c)).handles = (s.tile (tileOf c)).handles := by
  simp [State.awaitOrd, State.await]

/-- HALLOC that has its units takes its number and waits for them, and makes no handle yet. -/
theorem State.halloc_waits (s : State) (h : Nat) (w : W64) (d : BitVec 5) (n : Nat) (st : BitVec 3) :
    let u := finish s.cur n st (.eff (s.awaitOrd s.cur d (.halloc h w)))
    u.home.handles = s.home.handles ∧
      s.inFlight u (fun f => f.dst = d.toNat ∧ f.res = none ∧ f.kind = .halloc h w s.home.order) := by
  refine ⟨?_, State.inFlight_awaitOrd n st rfl⟩
  rw [State.home, State.finish_eff_cur, State.awaitOrd_cur, State.finish_eff_handles, State.awaitOrd_handles, State.home]

/-! ### HWIN (05 R114; 21 R360) -/

/-- A pin changes pin counts alone. -/
theorem State.core_pin (s : State) (l : List Nat) (c : CoreRef) : (s.pin l).core c = s.core c := by cases c <;> rfl

@[simp] theorem State.pin_cur (s : State) (l : List Nat) : (s.pin l).cur = s.cur := rfl

@[simp] theorem State.pin_mem (s : State) (l : List Nat) : (s.pin l).mem = s.mem := rfl

/-- Translating the pages of a window changes cached translations and what goes with them alone. -/
theorem State.winPages_sameWork (c : CoreRef) (n : Nat) : ∀ (s : State) (base : W64), s.SameWork (s.winPages c base n).1 := by
  induction n with
  | zero => exact fun s _ => .refl s
  | succ n ih =>
    intro s base
    have first := s.gcheck_sameWork (s.agentOf c) (s.needOf c true false) 1 1 base
    simp only [State.winPages]
    generalize s.gcheck (s.agentOf c) (s.needOf c true false) 1 1 base = x at first ⊢
    obtain ⟨t, k⟩ := x
    cases k with
    | ok pas z => exact first.trans (ih t (base + 8192))
    | busy => exact first
    | hold => exact first
    | bad code va => exact first

/-- A window of n pages is 8192 x n bytes long. -/
theorem extent_winDesc (n : Nat) : (winDesc n).extent = n * 8192 := by simp [winDesc, Desc.extent, rowBytes, elemBytes]

theorem extent_fresh_winDesc (n : Nat) (base : W64) (pins : List Nat) : (Handle.fresh (winDesc n) base pins).extent = n * 8192 :=
  extent_winDesc n

/-- The units of a window of whole pages. -/
theorem unitsFor_winDesc {len : Nat} (h : len % 8192 = 0) : unitsFor 0 (winDesc (len / 8192)).extent = len / 4096 := by
  rw [extent_winDesc]
  simp only [unitsFor, unitBytes, show ¬ 0 = 2 by omega, if_false]
  omega

section
variable {s : State} {a : BitVec 6} {d : BitVec 5} {h len : Nat} (hfree : s.home.numberFree h = true)
  (hlow : (s.op a).v.toNat < 2 ^ 53)
include hfree hlow

/-- HWIN of a free number with a base below 2^53: its alignment, then its pages. -/
theorem hwinBody_misaligned (hal : (s.op a).v.toNat % 8192 ≠ 0) :
    hwinBody a d h len s.cur s = .trap ALIGN (s.op a).v s := by
  have hfree' : (s.tile (tileOf s.cur)).numberFree h = true := hfree
  have hlow' : ¬ 2 ^ 53 ≤ (s.rdS s.cur a).v.toNat := Nat.not_le.mpr hlow
  simp only [hwinBody, hfree', Bool.not_true, Bool.false_eq_true, if_false, if_neg hlow']
  exact if_pos hal

/-- HWIN whose pages translate: short of units or pins, units that are being scrubbed, or the window. -/
theorem hwinBody_translated (hal : (s.op a).v.toNat % 8192 = 0) {t : State} {frames : List Nat} (hlen : len % 8192 = 0)
    (hp : s.winPages s.cur (s.op a).v (len / 8192) = (t, frames, none)) :
    hwinBody a d h len s.cur s =
      if t.home.freeUnits 0 < len / 4096 ∨ t.pinRefused frames = true then .eff (t.known s.cur d (.s iz) none)
      else if t.home.scrubbed ⟨h, 0, len / 4096, t.home.order⟩ = false then
        .eff (t.awaitOrd s.cur d (.hwin h (s.op a).v (len / 8192) true))
      else .eff (((t.pin frames).modTile (tileOf s.cur) (fun v => { v with
        handles := mput v.handles h (Handle.fresh (winDesc (len / 8192)) (s.op a).v frames) })).known s.cur d
          (.s (valid (BitVec.ofNat 64 h))) none) := by
  have hfree' : (s.tile (tileOf s.cur)).numberFree h = true := hfree
  have hlow' : ¬ 2 ^ 53 ≤ (s.rdS s.cur a).v.toNat := Nat.not_le.mpr hlow
  have hal' : ¬ (s.rdS s.cur a).v.toNat % 8192 ≠ 0 := fun e => e hal
  have hp' : s.winPages s.cur (s.rdS s.cur a).v (len / 8192) = (t, frames, none) := hp
  have same := s.winPages_sameWork s.cur (len / 8192) (s.op a).v
  rw [hp] at same
  have home : t.home = t.tile (tileOf s.cur) := by rw [State.home, same.cur]
  simp only [hwinBody, hfree', Bool.not_true, Bool.false_eq_true, if_false, if_neg hlow', if_neg hal', hp', unitsFor_winDesc hlen, home,
    Bool.not_eq_true']
  rfl

section
variable {t : State} {frames : List Nat} (hal : (s.op a).v.toNat % 8192 = 0) (hlen : len % 8192 = 0)
  (hp : s.winPages s.cur (s.op a).v (len / 8192) = (t, frames, none)) (n : Nat) (st : BitVec 3)
include hal hlen hp

/-- Short of units or of pins: invalid zero. -/
theorem State.hwin_refused (h0 : t.home.freeUnits 0 < len / 4096 ∨ t.pinRefused frames = true) :
    let u := finish s.cur n st (hwinBody a d h len s.cur s)
    u.pins = t.pins ∧ s.inFlight u (fun f => f.res = some (.s ⟨0, false⟩)) := by
  have same := s.winPages_sameWork s.cur (len / 8192) (s.op a).v
  rw [hp] at same
  rw [hwinBody_translated hfree hlow hal hlen hp, if_pos h0]
  refine ⟨?_, State.inFlight_launch n st (same.core s.cur) fun f _ hres _ => hres⟩
  rw [State.finish_eff_pins, State.known, State.modCore_pins]

variable (henough : len / 4096 ≤ t.home.freeUnits 0) (hpin : t.pinRefused frames = false)
include henough hpin

/-- Units that are being scrubbed are awaited. -/
theorem State.hwin_waits (hscrub : t.home.scrubbed ⟨h, 0, len / 4096, t.home.order⟩ = false) :
    let u := finish s.cur n st (hwinBody a d h len s.cur s)
    u.pins = t.pins ∧ s.inFlight u (fun f => f.dst = d.toNat ∧ f.res = none ∧
      f.kind = .hwin h (s.op a).v (len / 8192) true t.home.order) := by
  have same := s.winPages_sameWork s.cur (len / 8192) (s.op a).v
  rw [hp] at same
  rw [hwinBody_translated hfree hlow hal hlen hp, if_neg (by simp [henough, hpin]), if_pos hscrub]
  refine ⟨?_, ?_⟩
  · rw [State.finish_eff_pins, State.awaitOrd_pins]
  · rw [State.home, same.cur]; exact State.inFlight_awaitOrd n st (same.core s.cur)

/-- With units that are scrubbed, the window is there, its pages pinned. -/
theorem State.hwin_makes (hscrub : t.home.scrubbed ⟨h, 0, len / 4096, t.home.order⟩ = true) :
    let u := finish s.cur n st (hwinBody a d h len s.cur s)
    s.inFlight u (fun f => f.res = some (.s (valid (BitVec.ofNat 64 h)))) ∧
      mfind u.home.handles h = some (Handle.fresh (winDesc (len / 8192)) (s.op a).v frames) ∧
      u.pins = (t.pin frames).pins ∧ u.mem = t.mem := by
  have same := s.winPages_sameWork s.cur (len / 8192) (s.op a).v
  rw [hp] at same
  rw [hwinBody_translated hfree hlow hal hlen hp, if_neg (by simp [henough, hpin]), if_neg (by simp [hscrub])]
  refine ⟨State.inFlight_launch n st ?_ fun f _ hres _ => hres, ?_, ?_, ?_⟩
  · refine (State.core_modTile _ _ ?_ ?_ _).trans ((t.core_pin frames _).trans (same.core s.cur)) <;> exact fun _ => rfl
  · rw [State.home, State.finish_eff_cur, State.finish_eff_handles, State.known, State.handles_modCore, State.modCore_cur,
      State.modTile_cur, State.pin_cur, same.cur, State.tile_modTile]
    exact mfind_mput_self _ _ _
  · rw [State.finish_eff_pins, State.known, State.modCore_pins, State.modTile_pins]
  · rw [State.finish_eff_mem, State.known, State.modCore_mem, State.modTile_mem, State.pin_mem]

end

end

theorem exec_hwin {s : State} {st : BitVec 3} {a : BitVec 6} {d : BitVec 5} {h : BitVec 8} {len : BitVec 32}
    (hr : s.ready [.s a] = true) (hs : s.kind ≠ .sysm) (hc : s.codes [a] d = true) (hok : (s.op a).ok = true) (h0 : len ≠ 0)
    (hlen : len.toNat % 8192 = 0) (hmax : len.toNat ≤ 1048576) :
    exec (.hwin st a d h len) s = .next (finish s.cur 2 st (hwinBody a d h.toNat len.toNat s.cur s)) := by
  obtain ⟨hl, hn⟩ := s.one_of a d hc (by simpa [State.given] using hok)
  refine issue_valid _ _ _ s hr (show 0x6a < 0x7a by decide) rfl (classBad_handle hs (by simp)) ?_ hn
  simp only [hl, bne_iff_ne.mpr h0, hlen, hmax, BEq.rfl, decide_true, Bool.and_self]

/-! ### HFREE and HINFO (05 R108, R109; 21 R361) -/

/-- One operand is valid. -/
theorem State.given_one {s : State} {a : BitVec 6} (hok : (s.op a).ok = true) : [Src.s a].all (s.srcOk s.cur) = true := by
  have hok' : (s.rdS s.cur a).ok = true := hok
  simp [State.srcOk, hok']

theorem exec_hfree {s : State} {st : BitVec 3} {a : BitVec 6} (hr : s.ready [.s a] = true) (hs : s.kind ≠ .sysm)
    (ha : sLegal s.kind a = true) (hok : (s.op a).ok = true) :
    exec (.hfree st a) s = .next (finish s.cur 1 st (hfreeBody a s.cur s)) :=
  issue_valid _ _ _ s hr (show 0x69 < 0x7a by decide) rfl (classBad_handle hs (by simp)) ha (State.given_one hok)

theorem exec_hinfo {s : State} {st : BitVec 3} {a : BitVec 6} {d : BitVec 5} (hr : s.ready [.s a] = true) (hs : s.kind ≠ .sysm)
    (ha : sLegal s.kind a = true) (hd : dLegal s.kind d = true) (hok : (s.op a).ok = true) :
    exec (.hinfo st a d) s = .next ((s.gives d 2 (match s.handleIn (tileOf s.cur) ((s.op a).v.toNat % 256) with
      | some x => valid x.desc
      | none => iz)).moved 1 st) := by
  refine (issue_valid _ _ _ s hr (show 0x69 < 0x7a by decide) rfl (classBad_handle hs (by simp)) ?_ (State.given_one hok)).trans
    (congrArg _ (finish_done s 1 st _))
  simp [ha, hd]

/-- A handle that an access may name is in the table, and is not FREEING. -/
theorem State.handleIn_some {s : State} {t h : Nat} {x : Handle} (e : s.handleIn t h = some x) :
    mfind (s.tile t).handles h = some x := by
  unfold State.handleIn at e
  split at e
  · next y hy =>
    split at e
    · cases e
    · rw [hy, ← e]
  · cases e

theorem hfreeBody_absent {s : State} {a : BitVec 6} (hb : (s.core s.cur).began = none)
    (hx : s.handleIn (tileOf s.cur) ((s.op a).v.toNat % 256) = none) : hfreeBody a s.cur s = .trap HNDL 0 s := by
  have hx' : s.handleIn (tileOf s.cur) ((s.rdS s.cur a).v.toNat % 256) = none := hx
  simp only [hfreeBody, hb, hx']

/-- An HFREE that has begun waits until its handle's number tells it that the handle is FREE. -/
theorem hfreeBody_begun {s : State} {a : BitVec 6} {k : Nat} (hb : (s.core s.cur).began = some k) :
    hfreeBody a s.cur s = if 256 ≤ k then .eff s else .wait s := by
  simp only [hfreeBody, hb]

/-- The descriptor of a handle, with its STALE bit. -/
theorem Handle.desc_eq (x : Handle) : x.desc = BitVec.ofNat 64 (x.level % 4 * 2 ^ 62 + x.fmt % 16 * 2 ^ 58 + x.kind % 4 * 2 ^ 56 +
    x.rows % 2 ^ 16 * 2 ^ 32 + x.cols % 2 ^ 16 * 2 ^ 16 + (if x.st = .stale then 2 ^ 15 else 0)) := by
  simp only [Handle.desc, mkDesc, beq_iff_eq]

/-- HFREE of a handle in use: it becomes FREEING, and the core waits. -/
theorem State.hfree_begins {s : State} {a : BitVec 6} {x : Handle} (n : Nat) (st : BitVec 3)
    (hb : (s.core s.cur).began = none) (hx : s.handleIn (tileOf s.cur) ((s.op a).v.toNat % 256) = some x) :
    let t := finish s.cur n st (hfreeBody a s.cur s)
    mfind t.home.handles ((s.op a).v.toNat % 256) = some { x with st := .freeing } ∧
      (t.core s.cur).blk = (s.core s.cur).blk ∧ (t.core s.cur).began = some ((s.op a).v.toNat % 256) := by
  have body : hfreeBody a s.cur s = .wait ((s.modHandle (tileOf s.cur) ((s.op a).v.toNat % 256) (fun x => { x with st := .freeing })).modCore
      s.cur (fun x => { x with began := some ((s.op a).v.toNat % 256) })) := by
    have hx' : s.handleIn (tileOf s.cur) ((s.rdS s.cur a).v.toNat % 256) = some x := hx
    simp only [hfreeBody, hb, hx']
    rfl
  have found := State.handleIn_some hx
  have cur (f : Handle → Handle) : (s.modHandle (tileOf s.cur) ((s.op a).v.toNat % 256) f).cur = s.cur := by
    rw [State.modHandle_of_some found]; rfl
  simp only [body, finish, State.modCore_modCore, State.core_modCore, State.core_modHandle found, State.home, State.modCore_cur, cur,
    State.handles_modCore]
  exact ⟨State.handle_modHandle found _, trivial, trivial⟩

/-- Settles O38: HALLOC by its checks, HWIN by what its pages give, HFREE by what it has begun, HINFO by the handle it names. -/
theorem handleResults : Obligations.HandleResults := by
  refine ⟨fun s st a lv ft rows cols d h i k hr hs hd hi => ?_,
    fun s t st a d h len frames hr hs hc hok h0 hlen hmax hfree hlow => ?_, fun s st a d hr hs ha hok => ?_⟩
  · obtain ⟨len, desc, hk, hex⟩ := exec_halloc hr hs hd hi
    rw [hex, len]
    refine ⟨fun hbad => ?_, fun hfree hgood => ?_⟩
    · rw [hallocBody_bad hk hbad, State.finish_trap hr]
    · rw [hallocBody_good hk hfree hgood]
      refine ⟨fun hshort => ?_, fun henough => ?_⟩
      · rw [if_pos hshort]; exact congrArg _ (finish_eff s 2 st _)
      · rw [if_neg (Nat.not_lt.mpr henough)]
        obtain ⟨handles, l, f, hl, hids, hdst, hres, hkind⟩ := s.halloc_waits h.toNat (desc s.cur s) d 2 st
        exact ⟨_, rfl, handles, l, f, hl, hids, hdst, hres, _, _, hkind, hk⟩
  · rw [exec_hwin hr hs hc hok h0 hlen hmax]
    refine ⟨fun hal => ?_, fun hal hp => ?_⟩
    · rw [hwinBody_misaligned hfree hlow hal, State.finish_trap hr]
    · refine ⟨fun h0 => ⟨_, rfl, State.hwin_refused hfree hlow hal hlen hp 2 st h0⟩,
        fun henough hpin hscrub => ⟨_, rfl, State.hwin_waits hfree hlow hal hlen hp 2 st henough hpin hscrub⟩,
        fun henough hpin hscrub => ?_⟩
      obtain ⟨flight, found, pins, mem⟩ := State.hwin_makes (d := d) hfree hlow hal hlen hp 2 st henough hpin hscrub
      have extent : (Handle.fresh (winDesc (len.toNat / 8192)) (s.op a).v frames).extent = len.toNat := by
        rw [extent_fresh_winDesc, Nat.div_mul_cancel (Nat.dvd_of_mod_eq_zero hlen)]
      exact ⟨_, _, rfl, flight, found, rfl, rfl, rfl, rfl, rfl, extent, pins, mem⟩
  · intro h
    refine ⟨fun hb => ⟨fun hx => ?_, fun x hx => ?_⟩, fun k hb => ⟨fun hk => ?_, fun hk => ?_⟩, fun hd => ⟨fun x hx => ?_, fun hx => ?_⟩⟩
    · rw [exec_hfree hr hs ha hok, hfreeBody_absent hb hx, State.finish_trap hr]
    · have begins := State.hfree_begins 1 st hb hx
      exact ⟨_, exec_hfree hr hs ha hok, begins⟩
    · rw [exec_hfree hr hs ha hok, hfreeBody_begun hb, if_pos hk]; rfl
    · rw [exec_hfree hr hs ha hok, hfreeBody_begun hb, if_neg (Nat.not_le.mpr hk)]; rfl
    · simp only [exec_hinfo hr hs ha hd hok, h, hx, Handle.desc_eq]; rfl
    · rw [exec_hinfo hr hs ha hd hok, hx]; rfl

end Sys2Proof.Machine

/-! SUPPORT. Tables changed throughout, a flight among those of its core, and what a change of one core does to another. -/

namespace Sys2Proof.Machine

/-! ### Sparse tables -/

theorem mfind_mmapv {α β : Type} (f : α → β) (m : SMap α) (k : Nat) : mfind (mmapv f m) k = (mfind m k).map f := by
  induction m with
  | nil => rfl
  | cons e r ih =>
    obtain ⟨a, x⟩ := e
    simp only [mmapv, mfind]
    split
    · rfl
    · exact ih

/-- A change of every entry, also of the value that an absent key stands for. -/
theorem mget_mmapv {α : Type} {d : α} (f : α → α) (h : f d = d) (m : SMap α) (k : Nat) : mget d (mmapv f m) k = f (mget d m k) := by
  rw [mget, mfind_mmapv, mget]
  cases mfind m k with
  | none => exact h.symm
  | some x => rfl

@[simp] theorem mfind_mdel_self {α : Type} (m : SMap α) (k : Nat) : mfind (mdel m k) k = none := by
  induction m with
  | nil => rfl
  | cons e r ih =>
    obtain ⟨a, x⟩ := e
    by_cases h : a = k
    · simpa [mdel, h] using ih
    · simpa [mdel, mfind, h] using ih

theorem mfind_mdel_ne {α : Type} (m : SMap α) {k j : Nat} (h : j ≠ k) : mfind (mdel m k) j = mfind m j := by
  induction m with
  | nil => rfl
  | cons e r ih =>
    obtain ⟨a, x⟩ := e
    by_cases hk : a = k
    · subst hk
      rw [mfind, if_neg (Ne.symm h)]
      simpa [mdel] using ih
    · by_cases hj : a = j
      · subst hj; simp [mdel, mfind, hk]
      · simpa [mdel, mfind, hk, hj] using ih

theorem mem_of_mfind {α : Type} {m : SMap α} {k : Nat} {x : α} (h : mfind m k = some x) : (k, x) ∈ m := by
  induction m with
  | nil => cases h
  | cons e r ih =>
    obtain ⟨a, y⟩ := e
    rw [mfind] at h
    split at h
    · next hk => cases h; subst hk; exact List.mem_cons_self
    · exact List.mem_cons_of_mem _ (ih h)

theorem mem_rangeFrom {a n i : Nat} : i ∈ rangeFrom a n ↔ a ≤ i ∧ i < a + n := by
  induction n generalizing a with
  | zero => simp [rangeFrom]
  | succ n ih => rw [rangeFrom, List.mem_cons, ih]; omega

theorem setAt_getD_self {l : List Nat} {k : Nat} (y : Nat) (h : k < l.length) : (setAt l k y).getD k 0 = y := by
  induction l generalizing k with
  | nil => simp at h
  | cons x r ih =>
    cases k with
    | zero => rfl
    | succ k => simpa [setAt] using ih (by simpa using h)

/-! ### A flight and its core -/

/-- A change of the flights that keeps their numbers. -/
theorem Core.flight?_map {x y : Core} {g : Flight → Flight} (hy : y.flights = x.flights.map g) (hg : ∀ f, (g f).id = f.id) (id : Nat) :
    y.flight? id = (x.flight? id).map g := by
  have same : (fun f : Flight => f.id == id) ∘ g = fun f => f.id == id := by funext f; simp [hg]
  rw [Core.flight?, hy, List.find?_map, same]; rfl

theorem Core.flight?_id {x : Core} {id : Nat} {f : Flight} (h : x.flight? id = some f) : f.id = id := by
  simpa using List.find?_some h

/-- A core that is put in place of another is found under every name of its place, and under no other. -/
theorem State.core_setCore_cases (s : State) (c d : CoreRef) (x : Core) :
    (s.setCore c x).core d = s.core d ∨ (s.core d = s.core c ∧ (s.setCore c x).core d = x) := by
  cases c with
  | worker t => cases d with
    | worker u =>
      by_cases e : u = t
      · subst e; exact .inr ⟨rfl, by simp [State.setCore, State.core]⟩
      · exact .inl (by simp [State.setCore, State.core, State.tile_setTile_ne s _ e])
    | feeder u =>
      by_cases e : u = t
      · subst e; exact .inl (by simp [State.setCore, State.core])
      · exact .inl (by simp [State.setCore, State.core, State.tile_setTile_ne s _ e])
    | sys m j => exact .inl rfl
    | mgmt i j => exact .inl rfl
  | feeder t => cases d with
    | worker u =>
      by_cases e : u = t
      · subst e; exact .inl (by simp [State.setCore, State.core])
      · exact .inl (by simp [State.setCore, State.core, State.tile_setTile_ne s _ e])
    | feeder u =>
      by_cases e : u = t
      · subst e; exact .inr ⟨rfl, by simp [State.setCore, State.core]⟩
      · exact .inl (by simp [State.setCore, State.core, State.tile_setTile_ne s _ e])
    | sys m j => exact .inl rfl
    | mgmt i j => exact .inl rfl
  | sys n k => cases d with
    | worker u => exact .inl (by by_cases e : k = 0 <;> simp [State.setCore, State.core, e])
    | feeder u => exact .inl (by by_cases e : k = 0 <;> simp [State.setCore, State.core, e])
    | sys m j =>
      by_cases e : m = n
      · subst e
        by_cases hk : k = 0 <;> by_cases hj : j = 0
        · exact .inr (by simp [State.setCore, State.core, hk, hj])
        · exact .inl (by simp [State.setCore, State.core, hk, hj])
        · exact .inl (by simp [State.setCore, State.core, hk, hj])
        · exact .inr (by simp [State.setCore, State.core, hk, hj])
      · exact .inl (by by_cases hk : k = 0 <;> simp [State.setCore, State.core, hk, State.chip_setChip_ne s _ e])
    | mgmt i j => exact .inl (by by_cases e : k = 0 <;> simp [State.setCore, State.core, e])
  | mgmt i k => cases d with
    | worker u => exact .inl rfl
    | feeder u => exact .inl rfl
    | sys m j => exact .inl rfl
    | mgmt j l =>
      by_cases e : 4 * j + l = 4 * i + k
      · exact .inr (by simp [State.setCore, State.core, e])
      · exact .inl (by simp [State.setCore, State.core, mget_mput_ne _ _ _ e])

theorem State.core_modCore_cases (s : State) (c d : CoreRef) (f : Core → Core) :
    (s.modCore c f).core d = s.core d ∨ (s.core d = s.core c ∧ (s.modCore c f).core d = f (s.core d)) := by
  rcases s.core_setCore_cases c d (f (s.core c)) with e | ⟨e, e'⟩
  · exact .inl e
  · exact .inr ⟨e, by rw [e]; exact e'⟩

end Sys2Proof.Machine

/-! SUPPORT. Zero-pending frames, requests held by a full table, retirement of channels, and forced pages (06 R127-R131; 16 R261). -/

namespace Sys2Proof.Machine

/-! ### Events at a place that exists -/

theorem atUnit_of_lt {n b : Nat} (h : n < b) (f : State → State) (s : State) : atUnit n b f s = .next (f s) := if_pos h

/-! ### Zero-pending frames (06 R127) -/

/-- The first gap of a rising list: the numbers before it stand in the list, it does not. -/
theorem firstGap_spec (l : List Nat) : ∀ lo, l.Pairwise (· < ·) → (∀ a ∈ l, lo ≤ a) →
    lo ≤ firstGap lo l ∧ firstGap lo l ∉ l ∧ ∀ j, lo ≤ j → j < firstGap lo l → j ∈ l := by
  induction l with
  | nil => exact fun lo _ _ => ⟨Nat.le_refl lo, List.not_mem_nil, fun j h h' => absurd (Nat.lt_of_le_of_lt h h') (Nat.lt_irrefl lo)⟩
  | cons a r ih =>
    intro lo hs hlo
    obtain ⟨ha, hr⟩ := List.pairwise_cons.mp hs
    have hloa := hlo a List.mem_cons_self
    rw [firstGap]
    split
    · next e =>
      subst e
      obtain ⟨h1, h2, h3⟩ := ih (a + 1) hr (fun b hb => ha b hb)
      refine ⟨by omega, fun h => ?_, fun j hj hj' => ?_⟩
      · rcases List.mem_cons.mp h with h | h
        · omega
        · exact h2 h
      · by_cases e : j = a
        · exact e ▸ List.mem_cons_self
        · exact List.mem_cons_of_mem _ (h3 j (by omega) hj')
    · next e =>
      refine ⟨Nat.le_refl lo, fun h => ?_, fun j hj hj' => by omega⟩
      rcases List.mem_cons.mp h with h | h
      · omega
      · have := ha lo h; omega

/-- A number that the list lacks, with all before it in the list, is the first gap. -/
theorem firstGap_eq {l : List Nat} {lo g : Nat} (hs : l.Pairwise (· < ·)) (hlo : ∀ a ∈ l, lo ≤ a) (hg : lo ≤ g) (hn : g ∉ l)
    (hall : ∀ j, lo ≤ j → j < g → j ∈ l) : firstGap lo l = g := by
  obtain ⟨h1, h2, h3⟩ := firstGap_spec l lo hs hlo
  rcases Nat.lt_trichotomy (firstGap lo l) g with h | h | h
  · exact absurd (hall _ h1 h) h2
  · exact h
  · exact absurd (h3 g hg h) hn

/-- With a whole stretch in the list, the first gap is beyond it. -/
theorem firstGap_beyond {l : List Nat} {lo n : Nat} (hs : l.Pairwise (· < ·)) (hlo : ∀ a ∈ l, lo ≤ a)
    (hall : ∀ k, k < n → lo + k ∈ l) : ¬ firstGap lo l < lo + n := by
  obtain ⟨h1, h2, -⟩ := firstGap_spec l lo hs hlo
  intro h
  have := hall (firstGap lo l - lo) (by omega)
  rw [Nat.add_sub_cancel' h1] at this
  exact h2 this

section
variable {s : State} {h f : Nat} {z : ZpE} (hz : mfind (s.chip h).zp f = some z) (hs : z.zeroed.Pairwise (· < ·))
  (hlo : ∀ l ∈ z.zeroed, f / 256 ≤ l)
include hz hs hlo

/-- With every line zero, ZP is cleared and the frame leaves the table. -/
theorem State.zpBack_all (hall : ∀ k, k < z.len / 256 → f / 256 + k ∈ z.zeroed) :
    s.zpBack h f = (({ s with mem := (z.leaves.filter (s.zpLeaf f)).foldl (fun m a =>
      memWrite m (a + 7) (memRead m (a + 7) &&& 0x7f)) s.mem } : State)).modChip h (fun x => { x with zp := mdel x.zp f }) := by
  simp only [State.zpBack, hz]
  exact if_neg (firstGap_beyond hs hlo hall)

/-- Otherwise the lowest line that is not zero yet is zeroed. -/
theorem State.zpBack_line {k : Nat} (hk : k < z.len / 256) (hbefore : ∀ j, j < k → f / 256 + j ∈ z.zeroed)
    (hn : f / 256 + k ∉ z.zeroed) (hat : s.zpAt (256 * (f / 256 + k)) = some (h, f, z)) :
    s.zpBack h f = (({ s with mem := memWriteN s.mem (256 * (f / 256 + k)) (List.replicate 256 0) } : State)).modChip h (fun x =>
      { x with zp := mput x.zp f { z with zeroed := setIns z.zeroed (f / 256 + k) } }) := by
  have gap : firstGap (f / 256) z.zeroed = f / 256 + k := firstGap_eq hs hlo (by omega) hn fun j hj hj' => by
    have := hbefore (j - f / 256) (by omega)
    rwa [Nat.add_sub_cancel' hj] at this
  simp only [State.zpBack, hz, gap]
  rw [if_pos (by omega), State.zpLine, hat]
  exact if_neg (by simpa using hn)

end

/-! ### Requests that a full table held (06 R127) -/

theorem exec_zeroPendingTableFreed (t i : Nat) (s : State) :
    exec (.zeroPendingTableFreed t i) s = execZeroPendingTableFreed t i s := rfl

theorem exec_busyReread {c : CoreRef} (id : Nat) (s : State) (hc : coreExists c = true) :
    exec (.busyReread c id) s = .next (s.busyReread c id) := if_pos hc

/-- A core that is tried again is held no longer; to free it before changes nothing. -/
theorem State.busyReread_freed (s : State) (c : CoreRef) (id : Nat) :
    (s.modCore c (fun x => { x with blocked := false })).busyReread c id = s.busyReread c id := by
  simp only [State.busyReread, State.modCore_modCore]

/-- No table is full. -/
theorem State.zpTables_room {s : State} (h : ∀ e ∈ s.chips, e.2.zp.length < 4096) :
    s.chips.any (fun e => decide (4096 ≤ e.2.zp.length)) = false :=
  List.any_eq_false.mpr fun e he => by simpa using h e he

section
variable {s : State} {t : Nat} (i : Nat) (ht : t < 16384) (hroom : ∀ e ∈ s.chips, e.2.zp.length < 4096)
include ht hroom

/-- With room in every table, a core without flights is held no longer. -/
theorem exec_zeroPendingTableFreed_idle (hf : (s.core (if i = 0 then .worker t else .feeder t)).flights = []) :
    exec (.zeroPendingTableFreed t i) s =
      .next (s.modCore (if i = 0 then .worker t else .feeder t) (fun x => { x with blocked := false })) := by
  rw [exec_zeroPendingTableFreed, execZeroPendingTableFreed, atTile, atUnit_of_lt ht]
  simp only [State.zpTables_room hroom, Bool.false_eq_true, if_false, hf, List.foldl_nil]

/-- And an access that awaited its translation looks again. -/
theorem exec_zeroPendingTableFreed_busy {f : Flight} {vas : List W64} {atom : Option AtomReq}
    (hf : (s.core (if i = 0 then .worker t else .feeder t)).flights = [f]) (hk : f.kind = .busy vas atom) :
    exec (.zeroPendingTableFreed t i) s = exec (.busyReread (if i = 0 then .worker t else .feeder t) f.id) s := by
  have there : coreExists (if i = 0 then .worker t else .feeder t) = true := by
    split <;> exact decide_eq_true ht
  rw [exec_zeroPendingTableFreed, execZeroPendingTableFreed, atTile, atUnit_of_lt ht, exec_busyReread _ _ there]
  simp only [State.zpTables_room hroom, Bool.false_eq_true, if_false, hf, List.foldl_cons, List.foldl_nil, hk, State.busyReread_freed]

end

/-! ### Channels (16 R261) -/

theorem exec_channelRetireRequest {s : State} {k ch : Nat} (hk : k < 128) (hch : ch < 32) :
    exec (.channelRetireRequest k ch) s = .next (s.retireCh k ch) :=
  (atUnit_of_lt hk _ s).trans (by rw [if_pos hch])

theorem State.retireCh_again {s : State} {k ch : Nat} (h : (s.hbmCh k ch).retired = true) : s.retireCh k ch = s := if_pos h

theorem State.retireCh_first {s : State} {k ch : Nat} (h : (s.hbmCh k ch).retired = false) :
    s.retireCh k ch = (({ s with hbm := mput s.hbm (32 * k + ch) { s.hbmCh k ch with retired := true } } : State).logSys 0x002a 2 0
      (detail [(345, k), (340, ch)])).logSys 0x002b 2 0 (detail [(346, k / 4), (330, ch)]) :=
  if_neg (by simp [h])

/-! ### Forced pages (06 R131) -/

/-- A window has pages on a frame that it has pinned. -/
theorem Handle.pagesOn_isEmpty (x : Handle) (f : Nat) : (x.pagesOn f).isEmpty = false ↔ x.kind = 1 ∧ f ∈ x.pins := by
  unfold Handle.pagesOn
  split
  · next hk =>
    have some_page : (∃ i ∈ rangeFrom 0 x.pins.length, (x.pins.getD i 0 == f) = true) ↔ f ∈ x.pins := by
      rw [List.mem_iff_getElem]
      constructor
      · rintro ⟨i, hi, e⟩
        have hi' : i < x.pins.length := by have := mem_rangeFrom.mp hi; omega
        exact ⟨i, hi', by simpa [hi'] using e⟩
      · rintro ⟨i, hi, e⟩
        exact ⟨i, mem_rangeFrom.mpr (by omega), by simpa [hi] using e⟩
    rw [List.isEmpty_eq_false_iff_exists_mem]
    simp only [List.mem_filter, some_page, hk, true_and]
  · next hk => simp [hk]

/-- A handle that is no window over the frame is left as it is. -/
theorem Handle.force_other {x : Handle} {f : Nat} (h : ¬ (x.kind = 1 ∧ f ∈ x.pins)) : x.force f = x := if_neg (by simpa using h)

/-- A window over it is STALE and has lost its pins on it. -/
theorem Handle.force_window {x : Handle} {f : Nat} (h : x.kind = 1 ∧ f ∈ x.pins) : x.force f =
    { x with st := if x.st = .allocated then .stale else x.st, pins := x.pins.filter (· != f) } := if_pos (by simpa using h)

theorem Handle.force_data (x : Handle) (f : Nat) : (x.force f).data = x.data := by
  unfold Handle.force; split <;> rfl

section
variable {v : VTile} {h : Nat} {x : Handle} (hx : mfind v.handles h = some x) (f : Nat)
include hx

/-- The handles of a tile that loses a frame. -/
theorem VTile.forced_handle : mfind (v.forced f).handles h = some (x.force f) := by
  have all : mfind (v.force f).handles h = some (x.force f) := by rw [VTile.force, mfind_mmapv, hx]; rfl
  by_cases hs : ((v.handles.filter (fun e => !(e.2.pagesOn f).isEmpty)).map (·.1)).isEmpty = true
  · have none_over : ¬ (x.kind = 1 ∧ f ∈ x.pins) := by
      rw [← Handle.pagesOn_isEmpty]
      have := List.filter_eq_nil_iff.mp (List.map_eq_nil_iff.mp (List.isEmpty_iff.mp hs)) _ (mem_of_mfind hx)
      simpa using this
    rw [VTile.forced, if_pos hs, hx, Handle.force_other none_over]
  · rw [VTile.forced, if_neg hs]; exact all

/-- Its buffered stores through a window over the frame are gone. -/
theorem VTile.forced_sbuf (hf : x.kind = 1 ∧ f ∈ x.pins) : ∀ e ∈ (v.forced f).sbuf, e.win ≠ some h := by
  have among : h ∈ (v.handles.filter (fun e => !(e.2.pagesOn f).isEmpty)).map (·.1) :=
    List.mem_map.mpr ⟨(h, x), List.mem_filter.mpr ⟨mem_of_mfind hx, by rw [(x.pagesOn_isEmpty f).mpr hf]; rfl⟩, rfl⟩
  have hs : ¬ ((v.handles.filter (fun e => !(e.2.pagesOn f).isEmpty)).map (·.1)).isEmpty = true := by
    intro e; rw [List.isEmpty_iff.mp e] at among; cases among
  rw [VTile.forced, if_neg hs]
  intro e he hw
  have kept := (List.mem_filter.mp he).2
  simp only [hw, List.contains_iff_mem.mpr among] at kept
  exact absurd kept (by decide)

end

/-- Records of lost pages change neither tiles nor memory. -/
theorem State.logStale_keeps (s : State) (n : Nat) (vt : BitVec 16) (h : Nat) (base : W64) (pages : List Nat) :
    (s.logStale n vt h base pages).tiles = s.tiles ∧ (s.logStale n vt h base pages).mem = s.mem := by
  unfold State.logStale
  refine foldl_keeps (fun u : State => u.tiles = s.tiles ∧ u.mem = s.mem) _ (fun u i hu => ?_) _ _ ⟨rfl, rfl⟩
  exact hu

theorem State.staleOf_keeps (s : State) (n : Nat) (vt : BitVec 16) (v : VTile) (f : Nat) :
    (s.staleOf n vt v f).tiles = s.tiles ∧ (s.staleOf n vt v f).mem = s.mem := by
  refine foldl_keeps (fun u : State => u.tiles = s.tiles ∧ u.mem = s.mem) _ (fun u e hu => ?_) _ _ ⟨rfl, rfl⟩
  obtain ⟨tiles, mem⟩ := u.logStale_keeps n vt e.1 e.2.base (e.2.pagesOn f)
  exact ⟨tiles.trans hu.1, mem.trans hu.2⟩

/-- FORCE_PAGE changes the tiles as said of each, and no memory. -/
theorem State.forcePage_keeps (s : State) (f : Nat) :
    (s.forcePage f).tiles = mmapv (fun v => v.forced f) s.tiles ∧ (s.forcePage f).mem = s.mem := by
  have records (u : State) (n : Nat) (vt : BitVec 16) (v : VTile) (hu : u.tiles = s.tiles ∧ u.mem = s.mem) :
      (u.staleOf n vt v f).tiles = s.tiles ∧ (u.staleOf n vt v f).mem = s.mem :=
    ⟨(u.staleOf_keeps n vt v f).1.trans hu.1, (u.staleOf_keeps n vt v f).2.trans hu.2⟩
  simp only [State.forcePage, State.unpin]
  refine And.imp_left (congrArg (mmapv fun v : VTile => v.forced f)) ?_
  refine foldl_keeps (fun u : State => u.tiles = s.tiles ∧ u.mem = s.mem) _ (fun u e hu => ?saved) _ _
    (foldl_keeps (fun u : State => u.tiles = s.tiles ∧ u.mem = s.mem) _ (fun u e hu => ?live) _ _ ⟨rfl, rfl⟩)
  case saved => exact foldl_keeps (fun u : State => u.tiles = s.tiles ∧ u.mem = s.mem) _ (fun w v hw => records w _ _ _ hw) _ _ hu
  case live =>
    split
    · exact records _ _ _ _ hu
    · exact hu

theorem State.tile_forcePage (s : State) (f k : Nat) : (s.forcePage f).tile k = (s.tile k).forced f := by
  rw [State.tile, (s.forcePage_keeps f).1]
  exact mget_mmapv (d := VTile.init0) (fun v => v.forced f) rfl s.tiles k

end Sys2Proof.Machine

/-! SUPPORT. A walk that fills the translation buffers, waits on BUSY entries, and the end of TLBINV (06 R122-R126). -/

namespace Sys2Proof.Machine

/-! ### A write at its home slice (16 R269; 17 R277, R281) -/

/-- Undo records change neither memory nor the ways out of the panel. -/
theorem State.undoLine_outward (s : State) (n l : Nat) : (s.undoLine n l).memMap = s.memMap ∧ (s.undoLine n l).links = s.links ∧
    (s.undoLine n l).conns = s.conns := by
  unfold State.undoLine
  split
  · dsimp only; split <;> exact ⟨rfl, rfl, rfl⟩
  · exact ⟨rfl, rfl, rfl⟩

/-- The ways out decide where a write is performed. -/
theorem State.writable_congr {s t : State} (hm : t.memMap = s.memMap) (hl : t.links = s.links) (hc : t.conns = s.conns) (n pa : Nat) :
    t.writable n pa = s.writable n pa := by
  unfold State.writable State.portIn State.peerOf State.inHbm State.rangeOf State.link
  rw [hm, hl, hc]

/-- A write that leaves by no port and no connection is made in memory. -/
theorem State.put_writable {s : State} {n pa : Nat} {l : List (Nat × Byte)} (h : s.writable n pa = true)
    (hl : (l.map (·.1)).headD 0 = pa) : s.put n l = { s with mem := memWriteL s.mem l } := by
  simp only [State.writable, Bool.and_eq_true, Option.isNone_iff_eq_none] at h
  obtain ⟨⟨hf, ht⟩, hp⟩ := h
  simp only [State.put, hl, hf, ht, hp, Option.isSome_none, Bool.false_eq_true, if_false]

/-- A byte written for a context at its home slice. -/
theorem State.homeWrite_writable {s : State} {n pa : Nat} (b : Byte) (h : s.writable n pa = true) :
    (s.homeWrite n false [(pa, b)]).mem = memWrite s.mem pa b := by
  have same := foldl_keeps (fun u : State => (u.memMap = s.memMap ∧ u.links = s.links ∧ u.conns = s.conns) ∧ u.mem = s.mem)
    (fun u l => u.undoLine n l) (fun u l hu => ?_) (s.undoNeeds n (linesOf [pa])) s ⟨⟨rfl, rfl, rfl⟩, rfl⟩
  · obtain ⟨⟨hm, hl, hc⟩, hmem⟩ := same
    have e : s.homeWrite n false [(pa, b)] = ((s.undoNeeds n (linesOf [pa])).foldl (fun u l => u.undoLine n l) s).put n [(pa, b)] := rfl
    rw [e, State.put_writable ((State.writable_congr hm hl hc n pa).trans h) rfl, hmem]
    rfl
  · obtain ⟨hm, hl, hc⟩ := u.undoLine_outward n l
    exact ⟨⟨hm.trans hu.1.1, hl.trans hu.1.2.1, hc.trans hu.1.2.2⟩, (u.undoLine_mem n l).trans hu.2⟩

/-! ### The walk (06 R124, R125) -/

/-- The low bits of an entry with A set. -/
theorem accessed_bits (e : Nat) : e % 256 ||| 0x40 = if pbit e 6 then e % 256 else e % 256 + 64 := by
  have bytes : ∀ x, x < 256 → x ||| 0x40 = if pbit x 6 then x else x + 64 := by decide +kernel
  have bit : pbit (e % 256) 6 = pbit e 6 := by
    have : e % 256 / 2 ^ 6 % 2 = e / 2 ^ 6 % 2 := by omega
    rw [pbit, this]; rfl
  rw [← bit]
  exact bytes (e % 256) (Nat.mod_lt _ (by omega))

/-- A fill puts its entry first in the TLB of the tile and in that of the chiplet, and changes no memory. -/
theorem State.tlbFill_heads (s : State) (n t h : Nat) (e : TlbE) :
    let u := s.tlbFill { ctx := n, tile := some t, chip := h } e
    (u.tile t).tlb.head? = some e ∧ (u.chip h).tlb.head? = some e ∧ u.mem = s.mem := by
  refine ⟨?_, ?_, rfl⟩
  · simp [State.tlbFill, State.modChip]
  · simp [State.tlbFill, State.modChip]

theorem exec_pageWalk {s : State} {t n : Nat} (va : W64) (ht : t < 16384) (hn : (s.tile t).ctx = some n) :
    exec (.pageWalk t va) s =
      .next (s.translate { ctx := n, tile := some t, chip := chipOf t } va ⟨false, false, false, false⟩).1 := by
  have event : exec (.pageWalk t va) s = execPageWalk t va s := rfl
  rw [event, execPageWalk, atTile, atUnit_of_lt ht, hn]

/-- A walk for a miss that finds a leaf, as a read of the entry alone: A is set where it was clear, and the TLBs are filled. -/
theorem State.translate_miss {s : State} {g : Agent} {va : W64} {lv pa e : Nat} (hva : va.toNat < 2 ^ 53)
    (hmiss : s.tlbFind g va.toNat = none) (hwalk : s.walk va.toNat 3 (s.ctx g.ctx).root = .leaf lv pa e) (hz : pbit e 63 = false)
    (hroom : pbit e 6 = true ∨ s.undoFull g.ctx (linesOf [pa]) = false) :
    (s.translate g va ⟨false, false, false, false⟩).1 =
      (if pbit e 6 then s else s.homeWrite g.ctx false [(pa, BitVec.ofNat 8 (e % 256 + 64))]).tlbFill g
        ⟨g.ctx, lv, va.toNat / 2 ^ (13 + 10 * lv), pframe e, BitVec.ofNat 9 (if pbit e 6 then e % 256 else e % 256 + 64), false, pa⟩ := by
  have rights : rightsOk e ⟨false, false, false, false⟩ = true := rfl
  have low : e % 256 ||| (if pbit e 6 then e % 256 else e % 256 + 64) = if pbit e 6 then e % 256 else e % 256 + 64 := by
    rw [← accessed_bits, ← Nat.or_assoc, Nat.or_self]
  simp only [State.translate, if_neg (Nat.not_le.mpr hva), hmiss, hwalk, rights, hz, Bool.not_true, Bool.false_eq_true, if_false,
    Nat.or_zero, accessed_bits, low]
  cases ha : pbit e 6 with
  | true => simp
  | false =>
    have full := hroom.resolve_left (by simp [ha])
    have changes : ¬ e % 256 + 64 = e % 256 := by omega
    simp only [full, changes, Bool.false_eq_true, if_false, and_false]

/-- A walk that finds a leaf sets A and puts the translation first in both TLBs. -/
theorem State.pageWalk_leaf {s : State} {t n lv pa e : Nat} {va : W64} (ht : t < 16384) (hn : (s.tile t).ctx = some n)
    (hva : va.toNat < 2 ^ 53) (hmiss : s.tlbFind { ctx := n, tile := some t, chip := chipOf t } va.toNat = none)
    (hwalk : s.walk va.toNat 3 (s.ctx n).root = .leaf lv pa e) (hz : pbit e 63 = false)
    (hroom : (s.writable n pa = true ∧ s.undoFull n (linesOf [pa]) = false) ∨ pbit e 6 = true) :
    let low := if pbit e 6 then e % 256 else e % 256 + 64
    let r : TlbE := ⟨n, lv, va.toNat / 2 ^ (13 + 10 * lv), pframe e, BitVec.ofNat 9 low, false, pa⟩
    ∃ u, exec (.pageWalk t va) s = .next u ∧
      u.mem = (if pbit e 6 then s.mem else memWrite s.mem pa (BitVec.ofNat 8 low)) ∧
      (u.tile t).tlb.head? = some r ∧ (u.chip (chipOf t)).tlb.head? = some r := by
  intro low r
  obtain ⟨tile, chip, mem⟩ := (if pbit e 6 then s else s.homeWrite n false [(pa, BitVec.ofNat 8 (e % 256 + 64))]).tlbFill_heads n t
    (chipOf t) r
  have walked := State.translate_miss (g := { ctx := n, tile := some t, chip := chipOf t }) hva hmiss hwalk hz
    (hroom.symm.imp_right And.right)
  refine ⟨_, (exec_pageWalk va ht hn).trans (congrArg _ walked), mem.trans ?_, tile, chip⟩
  cases ha : pbit e 6 with
  | true => rfl
  | false => simpa [low, ha] using State.homeWrite_writable _ (hroom.resolve_right (by simp [ha])).1

/-! ### Waits on BUSY entries (06 R122, R123) -/

/-- A change of a core leaves where its tile is. -/
@[simp] theorem State.movingC_modCore (s : State) (c : CoreRef) (f : Core → Core) : (s.modCore c f).movingC c = s.movingC c := by
  cases c <;> rfl

@[simp] theorem State.tile_ctx_modCore (s : State) (c : CoreRef) (f : Core → Core) (t : Nat) :
    ((s.modCore c f).tile t).ctx = (s.tile t).ctx := by
  obtain ⟨w, x, e⟩ := s.tile_setCore c (f (s.core c)) t
  rw [State.modCore, e]

theorem State.ctxOfTile_modCore (s : State) (c : CoreRef) (f : Core → Core) (t : Nat) : (s.modCore c f).ctxOfTile t = s.ctxOfTile t := by
  simp [State.ctxOfTile, State.ctx]

/-- Breaking watches leaves the flights of the core. -/
theorem State.flights_breakW (s : State) (c : CoreRef) (pas vas : List Nat) : ((s.breakW c pas vas).core c).flights = (s.core c).flights := by
  cases c with
  | worker t => simp [State.breakW, kindOf, tileOf, State.core, Core.breakW]
  | feeder t => simp [State.breakW, kindOf, tileOf, State.core, Core.breakW]
  | sys n k => simp [State.breakW, kindOf, Core.breakW]
  | mgmt i k => simp [State.breakW, kindOf, Core.breakW]

/-- The checks of an access leave every core. -/
theorem State.core_gchecks {s s' : State} {g : Agent} {nd : Need} {n al : Nat} {l : List W64} {k : GChk}
    (h : s.gchecks g nd n al l = (s', k)) (c : CoreRef) : s'.core c = s.core c := by
  have same := State.gchecks_sameWork g nd n al l s
  rw [h] at same
  exact same.core c

/-- A flight whose addresses are translated. -/
theorem State.flight?_setTrs {s : State} {c : CoreRef} {id : Nat} {f : Flight} (vas : List W64) (hf : (s.core c).flight? id = some f) :
    ∃ g, ((s.setTrs c id vas).core c).flight? id = some g ∧ g.id = id ∧ g.res = f.res := by
  have hid := Core.flight?_id hf
  rw [State.setTrs, State.core_modCore, Core.flight?_map rfl (by intro g; split <;> rfl), hf]
  exact ⟨{ f with since := none, trs := vas.map (s.trOf (s.agentOf c)) }, congrArg some (if_pos hid), hid, rfl⟩

/-- A flight that waits for something else now. -/
theorem Core.flight?_setKind {x : Core} {id : Nat} {f : Flight} (k : FKind) (hf : x.flight? id = some f) :
    (x.setKind id k).flight? id = some { f with kind := k } := by
  rw [Core.flight?_map (x := x) rfl (by intro g; split <;> rfl), hf, Option.map_some, if_pos (Core.flight?_id hf)]

theorem Core.flight?_congr {x y : Core} (h : y.flights = x.flights) (id : Nat) : y.flight? id = x.flight? id := by
  rw [Core.flight?, h]; rfl

section
variable {s s' : State} {c : CoreRef} {f : Flight} {vas : List W64} {pas : List Nat} {z : Bool} {n : Nat}
  (hlda : f.lda = false)

/-- An atomic whose checks pass goes on, or joins the held accesses. -/
theorem State.loadReread_atomic {a : AtomReq}
    (h : s.gchecks (s.agentOf c) (s.needOf c true true) a.n a.n vas = (s', .ok pas z))
    (hr : a.op = 10 → (s'.ctxOfTile (tileOf c)).repro = false) (hf : (s.core c).flight? f.id = some f) (hres : f.res = none) :
    let v := s'.setTrs c f.id vas
    let b := { a with pa := pas.headD 0, zp := z }
    ∃ g, ((s.loadReread c f vas (some a)).core c).flight? f.id = some g ∧ g.res = none ∧
      g.kind = if v.heldReady c f.id ⟨.atom b, a.rel, 0⟩ then .atomic b else .held ⟨.atom b, a.rel, 0⟩ := by
  intro v b
  obtain ⟨g, hg, -, hgres⟩ := State.flight?_setTrs (s := s') vas (by rw [State.core_gchecks h]; exact hf)
  have repro : ¬ (a.op = 10 ∧ ((s'.setTrs c f.id vas).ctxOfTile (tileOf c)).repro = true) := by
    rintro ⟨h10, hrep⟩
    have e : (s'.setTrs c f.id vas).ctxOfTile (tileOf c) = s'.ctxOfTile (tileOf c) := State.ctxOfTile_modCore _ _ _ _
    rw [e, hr h10] at hrep
    cases hrep
  have h' : s.gchecks (s.agentOf c) (s.flightNeed c (some a)) a.n a.n vas = (s', .ok pas z) := h
  simp only [State.loadReread, h', if_neg repro, State.core_modCore]
  exact ⟨_, Core.flight?_setKind _ ((Core.flight?_congr (State.flights_breakW _ c pas []) _).trans hg), hgres.trans hres, rfl⟩

include hlda in
/-- And so does a load. -/
theorem State.loadReread_load
    (h : s.gchecks (s.agentOf c) (s.needOf c true false) (f.shape.per vas.length) (f.shape.per vas.length) vas = (s', .ok pas z))
    (hf : (s.core c).flight? f.id = some f) (hres : f.res = none) :
    let v := s'.setTrs c f.id vas
    ∃ g, ((s.loadReread c f vas none).core c).flight? f.id = some g ∧ g.res = none ∧
      if v.heldReady c f.id ⟨.ld pas z, none, 0⟩ then ∃ l, g.kind = .load l z ∧ l.map (·.pa) = pas
      else g.kind = .held ⟨.ld pas z, none, 0⟩ := by
  intro v
  obtain ⟨g, hg, -, hgres⟩ := State.flight?_setTrs (s := s') vas (by rw [State.core_gchecks h]; exact hf)
  have h' : s.gchecks (s.agentOf c) (s.flightNeed c none) (f.shape.per vas.length) (f.shape.per vas.length) vas = (s', .ok pas z) := h
  simp only [State.loadReread, h', hlda, Bool.false_eq_true, if_false, State.core_modCore]
  refine ⟨_, Core.flight?_setKind _ hg, hgres.trans hres, ?_⟩
  split
  · exact ⟨_, rfl, by rw [List.map_map]; exact List.map_id _⟩
  · rfl

end

section
variable {s : State} {c : CoreRef} {id : Nat} {f : Flight} {vas : List W64} {atom : Option AtomReq}
  (hf : (s.core c).flight? id = some f) (hk : f.kind = .busy vas atom) (hres : f.res = none) (hm : s.movingC c = false)
include hf

/-- Before 1 ms has passed nothing happens. -/
theorem State.busyTimeout_early (hearly : ∀ t, f.since = some t → s.time < t + 1000000) : s.busyTimeout c id = s := by
  have elapsed : s.busyOver f.since = false := by
    cases hs : f.since with
    | none => rfl
    | some t => exact decide_eq_false (Nat.not_le.mpr (hearly t hs))
  simp only [State.busyTimeout, hf, elapsed, Bool.not_false, Bool.or_true, if_true]
  split <;> rfl

include hk hres hm

/-- The walker reads the entry again for an access that waits on it. -/
theorem State.busyReread_busy :
    s.busyReread c id = (s.modCore c (fun x => { x with blocked := false })).loadReread c f vas atom := by
  have hf' : ((s.modCore c (fun x => { x with blocked := false })).core c).flight? id = some f := by
    rw [State.core_modCore]; exact hf
  simp only [State.busyReread, hf', State.movingC_modCore, hm, hres, hk, Option.isSome_none, Bool.or_self, Bool.false_eq_true, if_false]

/-- After it the access traps PAGE while its task is there. -/
theorem State.busyTimeout_late {va : W64} {t : Nat} (hva : vas.find? (s.isBusy c) = some va) (ht : f.since = some t)
    (hlate : t + 1000000 ≤ s.time) (hlda : f.lda = false) (hkern : (s.core c).task.map (·.kern) = f.kern)
    (htask : (s.core c).task.isSome = true) (hs : kindOf c ≠ .sysm) :
    s.busyTimeout c id = (s.modCore c (fun x => { x with flights := x.flights.filter (fun g => g.id != id) })).userTrap c PAGE
      f.word f.hdr va := by
  have find : (s.busyVas f).find? (fun va => s.walk va.toNat 3 (s.ctx (s.busyCtx c f)).root == .busy) = some va := by
    simp only [State.busyVas, State.busyCtx, hk]; exact hva
  have elapsed : s.busyOver f.since = true := by rw [ht]; exact decide_eq_true hlate
  have hid := Core.flight?_id hf
  simp only [State.busyTimeout, hf, find, elapsed, hres, hm, Option.isSome_none, Bool.not_true, Bool.or_self, Bool.false_eq_true, if_false,
    State.flightFault, hlda, htask, hkern, hid, decide_true, Bool.and_self, Bool.or_true, if_true]
  cases c with
  | worker u => rfl
  | feeder u => rfl
  | sys m k => exact absurd rfl hs
  | mgmt i k => exact absurd rfl hs

end

/-! ### The end of TLBINV (06 R126) -/

theorem State.tile_tlbKill (s : State) (form ctx va k : Nat) : (s.tlbKill form ctx va).tile k =
    { s.tile k with tlb := (s.tile k).tlb.filter (fun e => !e.killed form ctx va) } :=
  mget_mmapv (d := VTile.init0) (fun v : VTile => { v with tlb := v.tlb.filter (fun e => !e.killed form ctx va) }) rfl s.tiles k

theorem State.chip_tlbKill (s : State) (form ctx va h : Nat) : (s.tlbKill form ctx va).chip h =
    { s.chip h with tlb := (s.chip h).tlb.filter (fun e => !e.killed form ctx va) } :=
  mget_mmapv (d := Chip.init0) (fun x : Chip => { x with tlb := x.tlb.filter (fun e => !e.killed form ctx va) }) rfl s.chips h

theorem State.core_tlbKill (s : State) (form ctx va : Nat) (c : CoreRef) : (s.tlbKill form ctx va).core c = s.core c := by
  cases c with
  | worker t => rw [State.core, State.tile_tlbKill]; rfl
  | feeder t => rw [State.core, State.tile_tlbKill]; rfl
  | sys n k => simp only [State.core, State.chip_tlbKill]
  | mgmt i k => rfl

@[simp] theorem State.tile_tlb_modCore (s : State) (c : CoreRef) (f : Core → Core) (t : Nat) :
    ((s.modCore c f).tile t).tlb = (s.tile t).tlb := by
  obtain ⟨w, x, e⟩ := s.tile_setCore c (f (s.core c)) t
  rw [State.modCore, e]

@[simp] theorem State.chip_tlb_modCore (s : State) (c : CoreRef) (f : Core → Core) (h : Nat) :
    ((s.modCore c f).chip h).tlb = (s.chip h).tlb := by
  cases c with
  | worker t => rfl
  | feeder t => rfl
  | mgmt i k => rfl
  | sys n k =>
    simp only [State.modCore, State.setCore]
    by_cases e : h = n
    · subst e; split <;> simp
    · split <;> simp [State.chip_setChip_ne _ _ e]

/-- With no access left that may use a removed translation, TLBINV ends. -/
theorem State.tlbinvDone_next {s : State} {c : CoreRef} {f : Flight} {form ctx va : Nat}
    (hf : (s.core c).flights.find? (fun f => match f.kind with
      | .tlbinv _ _ _ => true
      | _ => false) = some f) (hk : f.kind = .tlbinv form ctx va) (hold : s.usesOld form ctx va = false) :
    s.tlbinvDone c = (s.tlbKill form ctx va).modCore c (fun x => { x.deliver f.id (.s iz) with blocked := false }) := by
  rw [State.tlbinvDone]
  split
  · next e => exact absurd (e.symm.trans hf) (by simp)
  · next g e =>
    cases e.symm.trans hf
    simp only [hk, hold, Bool.false_eq_true, if_false]

end Sys2Proof.Machine

/-! SUPPORT. Handles that are made and freed, and lines of windows (05 R107, R108, R114), and O50. -/

namespace Sys2Proof.Machine

/-! ### Answers of invalid zero (05 R108) -/

/-- A flight that a result is not for stays as it is. -/
theorem Core.flight?_resolve_other {x : Core} {id j : Nat} {f : Flight} (v : RVal) (h : x.flight? id = some f) (hj : f.takes j = false) :
    (x.resolve j v).flight? id = some f := by
  have keepsId (g : Flight) : (if g.takes j then ({ g with res := some v, kind := .plain } : Flight) else g).id = g.id := by
    split <;> rfl
  rw [Core.flight?_map (x := x) rfl keepsId, h, Option.map_some, if_neg (by simp [hj])]

/-- An answer of invalid zero is made to a flight that waits, or to none. -/
theorem State.giveZero_resolves (s : State) (d : CoreRef) (j : Nat) : s.giveZero d j = s ∨ ∃ f, (s.core d).flight? j = some f ∧
    (f.kind = .await ∨ f.kind = .bwait) ∧ s.giveZero d j = s.modCore d (·.resolve j (zeroOf f.cls)) := by
  unfold State.giveZero
  split
  · next f hf =>
    split
    · next hk => exact .inr ⟨f, hf, hk.1, rfl⟩
    · exact .inl rfl
  · exact .inl rfl

/-- A result that is known stays so while others are answered. -/
theorem State.gets_giveZero_keeps {s : State} {c : CoreRef} {id : Nat} {v : RVal} (h : s.gets c id v) (d : CoreRef) (j : Nat) :
    (s.giveZero d j).gets c id v := by
  obtain ⟨f, hf, hres, hkind⟩ := h
  rcases s.giveZero_resolves d j with e | ⟨g, hg, hgk, e⟩
  · rw [e]; exact ⟨f, hf, hres, hkind⟩
  · rw [e]
    rcases s.core_modCore_cases d c (·.resolve j (zeroOf g.cls)) with e' | ⟨same, e'⟩
    · exact ⟨f, by rw [e']; exact hf, hres, hkind⟩
    · have hne : f.id ≠ j := by
        rintro rfl
        rw [Core.flight?_id hf, ← same, hf] at hg
        cases hg
        rcases hgk with hgk | hgk <;> exact absurd (hkind.symm.trans hgk) (by simp)
      have other : f.takes j = false := by simp [Flight.takes, hne, hkind]
      exact ⟨f, by rw [e']; exact Core.flight?_resolve_other _ hf other, hres, hkind⟩

/-- A wait is answered with its own invalid zero, or waits on. -/
theorem State.await_giveZero {s : State} {c : CoreRef} {id : Nat} {f : Flight} (hf : (s.core c).flight? id = some f)
    (hk : f.kind = .await) (d : CoreRef) (j : Nat) :
    ((s.giveZero d j).core c).flight? id = some f ∨ (s.giveZero d j).gets c id (zeroOf f.cls) := by
  rcases s.giveZero_resolves d j with e | ⟨g, hg, -, e⟩
  · rw [e]; exact .inl hf
  · rw [e]
    rcases s.core_modCore_cases d c (·.resolve j (zeroOf g.cls)) with e' | ⟨same, e'⟩
    · exact .inl (by rw [e']; exact hf)
    · by_cases hj : id = j
      · subst hj
        rw [← same, hf] at hg
        cases hg
        exact .inr ⟨_, by rw [e']; exact Core.flight?_resolve _ hf, rfl, rfl⟩
      · have other : f.takes j = false := by simp [Flight.takes, Core.flight?_id hf, hj, hk]
        exact .inl (by rw [e']; exact Core.flight?_resolve_other _ hf other)

/-- Every wait of a list is answered. -/
theorem State.gets_giveZeros {c : CoreRef} {id : Nat} {f : Flight} (hk : f.kind = .await) (hr : f.res = none) (l : List WaitE) :
    ∀ s : State, (s.core c).flight? id = some f → (∃ w ∈ l, w.c = c ∧ w.id = id) →
      (l.foldl (fun s w => s.giveZero w.c w.id) s).gets c id (zeroOf f.cls) := by
  have known (r : List WaitE) (s : State) (h : s.gets c id (zeroOf f.cls)) :
      (r.foldl (fun s w => s.giveZero w.c w.id) s).gets c id (zeroOf f.cls) :=
    foldl_keeps (fun u : State => u.gets c id (zeroOf f.cls)) _ (fun u w hu => State.gets_giveZero_keeps hu w.c w.id) r s h
  induction l with
  | nil => rintro s - ⟨w, hw, -⟩; cases hw
  | cons a r ih =>
    rintro s hf ⟨w, hw, hwc, hwid⟩
    rw [List.foldl_cons]
    rcases List.mem_cons.mp hw with rfl | hw
    · subst hwc hwid; exact known r _ (State.gets_giveZero hf hk hr)
    · rcases State.await_giveZero hf hk a.c a.id with hf' | h
      · exact ih _ hf' ⟨w, hw, hwc, hwid⟩
      · exact known r _ h

/-- The answers change cores alone. -/
theorem State.giveZeros_keeps (s : State) (l : List WaitE) (t : Nat) :
    let u := l.foldl (fun s w => s.giveZero w.c w.id) s
    u.mem = s.mem ∧ u.pins = s.pins ∧ ∃ w f, u.tile t = { s.tile t with worker := w, feeder := f } := by
  refine foldl_keeps (fun u : State => u.mem = s.mem ∧ u.pins = s.pins ∧ ∃ w f, u.tile t = { s.tile t with worker := w, feeder := f })
    _ (fun u a hu => ?_) l s ⟨rfl, rfl, _, _, rfl⟩
  rcases u.giveZero_cases a.c a.id with e | ⟨g, e⟩
  · rw [e]; exact hu
  · obtain ⟨hm, hp, w, f, ht⟩ := hu
    obtain ⟨w', f', ht'⟩ := u.tile_setCore a.c (g (u.core a.c)) t
    rw [e]
    exact ⟨by rw [State.modCore_mem, hm], by rw [State.modCore_pins, hp], w', f', by rw [State.modCore, ht', ht]⟩

/-! ### HALLOC_COMPLETE and HFREE_COMPLETE (05 R107, R108) -/

/-- A handle is put in the table of a core's tile, and a flight of the core is answered. -/
theorem State.putHandle_answers {s : State} {c : CoreRef} {id : Nat} {f : Flight} (hf : (s.core c).flight? id = some f) (h : Nat)
    (y : Handle) (v : RVal) :
    let u := (s.modTile (tileOf c) (fun w => { w with handles := mput w.handles h y })).modCore c (·.resolve id v)
    mfind (u.tile (tileOf c)).handles h = some y ∧ u.gets c id v ∧ u.mem = s.mem := by
  refine ⟨?_, State.gets_resolve (f := f) v ?_, ?_⟩
  · rw [State.handles_modCore, State.tile_modTile]; exact mfind_mput_self _ _ _
  · have cores : (s.modTile (tileOf c) (fun w => { w with handles := mput w.handles h y })).core c = s.core c := by
      refine State.core_modTile s _ ?_ ?_ c <;> exact fun _ => rfl
    rw [cores]; exact hf
  · rw [State.modCore_mem, State.modTile_mem]

/-- An allocation whose units are scrubbed makes its handle and answers with its number. -/
theorem State.hallocDone_next {s : State} {c : CoreRef} {id h o : Nat} {f : Flight} {w : W64} (hf : (s.core c).flight? id = some f)
    (hk : f.kind = .halloc h w o) (hres : f.res = none) (hm : s.movingC c = false)
    (hunits : (s.tile (tileOf c)).scrubbed ⟨h, (descOf w).level, unitsFor (descOf w).level (descOf w).extent, o⟩ = true) :
    s.hallocDone c id = (s.modTile (tileOf c) (fun v => { v with handles := mput v.handles h (Handle.fresh (descOf w) 0 []) })).modCore c
      (·.resolve id (.s (valid (BitVec.ofNat 64 h)))) := by
  have ha : f.alloc? = some ⟨h, (descOf w).level, unitsFor (descOf w).level (descOf w).extent, o⟩ := by rw [Flight.alloc?, hk]
  simp only [State.hallocDone, hf, hres, hm, hk, ha, hunits, Option.isSome_none, Bool.or_self, Bool.not_true, Bool.false_eq_true,
    if_false]

/-- The units of an allocation are scrubbed where the tile has them and no earlier one of its level waits. -/
theorem VTile.scrubbed_of {v : VTile} {a : Alloc} (h : v.held a.level + v.scrubbing a.level + a.units ≤ unitTotal a.level)
    (hfirst : ∀ b ∈ v.allocs, b.level = a.level → a.ord ≤ b.ord) : v.scrubbed a = true := by
  have first : v.allocs.any (fun b => b.level == a.level && decide (b.ord < a.ord)) = false :=
    List.any_eq_false.mpr fun b hb e => by
      simp only [Bool.and_eq_true, beq_iff_eq, decide_eq_true_eq] at e
      have := hfirst b hb e.1
      omega
  simp [VTile.scrubbed, h, first]

/-- The result of a flight, in a core whose flights are the same. -/
theorem State.gets_congr {s t : State} {c : CoreRef} {id : Nat} {v : RVal} (hc : (t.core c).flights = (s.core c).flights)
    (h : s.gets c id v) : t.gets c id v := by
  obtain ⟨f, hf, hres⟩ := h
  exact ⟨f, (Core.flight?_congr hc id).trans hf, hres⟩

/-- A change of a tile that leaves the flights of its two cores leaves those of every core. -/
theorem State.flights_modTile (s : State) (t : Nat) {g : VTile → VTile} (hw : ∀ v, (g v).worker.flights = v.worker.flights)
    (hf : ∀ v, (g v).feeder.flights = v.feeder.flights) (c : CoreRef) : ((s.modTile t g).core c).flights = (s.core c).flights := by
  have tile (u : Nat) : ((s.modTile t g).tile u).worker.flights = (s.tile u).worker.flights ∧
      ((s.modTile t g).tile u).feeder.flights = (s.tile u).feeder.flights := by
    by_cases e : u = t
    · subst e; simp [hw, hf]
    · simp [State.modTile, State.tile_setTile_ne s _ e]
  cases c with
  | worker u => exact (tile u).1
  | feeder u => exact (tile u).2
  | sys n k => rfl
  | mgmt i k => rfl

/-- A tile with a handle freed: its number is FREE, its waiting loads are gone, its units go to the scrubber. -/
def VTile.freed (v : VTile) (h : Nat) (x : Handle) : VTile :=
  { v with handles := mdel v.handles h, waits := v.waits.filter (fun w => w.h != h),
           scrub := setAt v.scrub x.level (v.scrubbing x.level + x.units), worker := v.worker.freed h,
           feeder := v.feeder.freed h }

/-- The state in which the waits on a handle are answered and a window's pins are given up. -/
def State.released (s : State) (t h : Nat) (x : Handle) : State :=
  let u := ((s.tile t).waits.filter (fun w => w.h == h)).foldl (fun s w => s.giveZero w.c w.id) s
  if x.kind = 1 then u.unpin x.pins else u

/-- A FREEING handle that nothing holds back is freed. -/
theorem State.hfreeDone_next {s : State} {t h : Nat} {x : Handle} (hx : mfind (s.tile t).handles h = some x) (hst : x.st = .freeing)
    (hb : s.handleBusy t h = false) : s.hfreeDone t h = (s.released t h x).modTile t (·.freed h x) := by
  simp only [State.hfreeDone, hx, hst, hb, ne_eq, not_true_eq_false, Bool.false_eq_true, or_self, if_false]
  rfl

theorem State.released_keeps (s : State) (t h : Nat) (x : Handle) : (s.released t h x).mem = s.mem ∧
    (x.kind = 0 → (s.released t h x).pins = s.pins) ∧ (x.kind = 1 → (s.released t h x).pins = (s.unpin x.pins).pins) ∧
    ∃ w f, (s.released t h x).tile t = { s.tile t with worker := w, feeder := f } := by
  obtain ⟨hm, hp, ht⟩ := s.giveZeros_keeps ((s.tile t).waits.filter (fun w => w.h == h)) t
  unfold State.released
  refine ⟨?_, fun hk => ?_, fun hk => ?_, ?_⟩
  · dsimp only; split <;> exact hm
  · simp only [hk, Nat.zero_ne_one, if_false]; exact hp
  · simp only [hk, if_true, State.unpin, hp]
  · dsimp only; split <;> exact ht

/-- Each consuming load that waited on the handle is answered. -/
theorem State.gets_released {s : State} {t h : Nat} {x : Handle} {w : WaitE} {f : Flight} (hw : w ∈ (s.tile t).waits) (hh : w.h = h)
    (hf : (s.core w.c).flight? w.id = some f) (hk : f.kind = .await) (hr : f.res = none) :
    (s.released t h x).gets w.c w.id (zeroOf f.cls) := by
  have answered := State.gets_giveZeros hk hr ((s.tile t).waits.filter (fun w => w.h == h)) s hf
    ⟨w, List.mem_filter.mpr ⟨hw, by simp [hh]⟩, rfl, rfl⟩
  unfold State.released
  dsimp only
  split
  · refine State.gets_congr ?_ answered; cases w.c <;> rfl
  · exact answered

/-- What freeing a handle leaves and changes. -/
theorem State.freed_released {s : State} {t h : Nat} {x : Handle} (hlevel : x.level < (s.tile t).scrub.length) :
    let u := (s.released t h x).modTile t (·.freed h x)
    mfind (u.tile t).handles h = none ∧ (∀ k, k ≠ h → mfind (u.tile t).handles k = mfind (s.tile t).handles k) ∧
      (u.tile t).scrubbing x.level = (s.tile t).scrubbing x.level + x.units ∧ u.mem = s.mem ∧
      (u.tile t).waits = (s.tile t).waits.filter (fun w => w.h != h) ∧
      (∀ w ∈ (s.tile t).waits, w.h = h → ∀ f, (s.core w.c).flight? w.id = some f → f.kind = .await → f.res = none →
        u.gets w.c w.id (zeroOf f.cls)) ∧
      (x.kind = 0 → u.pins = s.pins) ∧ (x.kind = 1 → u.pins = (s.unpin x.pins).pins) := by
  obtain ⟨mem, plain, window, w, g, tile⟩ := s.released_keeps t h x
  refine ⟨?_, fun k hk => ?_, ?_, mem, ?_, fun w hw hh f hf hk hr => ?_, plain, window⟩
  · rw [State.tile_modTile]; exact mfind_mdel_self _ _
  · rw [State.tile_modTile, tile]; exact mfind_mdel_ne _ hk
  · rw [State.tile_modTile, tile]; exact setAt_getD_self _ hlevel
  · rw [State.tile_modTile, tile]; rfl
  · refine State.gets_congr ?_ (State.gets_released (x := x) hw hh hf hk hr)
    refine State.flights_modTile _ t ?_ ?_ _ <;> exact fun _ => rfl

/-! ### WINDOW_LINE_FILL (05 R114) -/

section
variable {s : State} {c : CoreRef} {id h off : Nat} {f : Flight} {x : Handle} (hf : (s.core c).flight? id = some f)
  (hk : f.kind = .window h off) (hres : f.res = none) (hx : mfind (s.tile (tileOf c)).handles h = some x)
  (hm : s.moving (tileOf c) = false) (he : s.earlier c id ((s.tile (tileOf c)).winPas h off (f.shape.per 1)) = false)
include hf hk hres hx hm he

/-- A line that is there serves the load as it is. -/
theorem State.windowFill_present (hl : x.lineAbsent off = false) :
    s.windowFill c id = s.modCore c (·.resolve id (f.shape.make (x.read off (f.shape.per 1)))) := by
  simp only [State.windowFill, hf, hk, hres, hx, hm, he, hl, Option.isSome_none, Bool.or_self, Bool.not_false, Bool.false_eq_true,
    if_false, if_true]

/-- An absent line is filled first: the frame's bytes under the buffered stores. -/
theorem State.windowFill_absent (hl : x.lineAbsent off = true) {o pa : Nat} (ho : o = off / 64 * 64)
    (hpa : pa = x.pins.getD (o / 8192) 0 + o % 8192) (hopen : s.memShut (s.coreRouter c) [pa] = false)
    (hzp : s.zpAt (256 * (pa / 256)) = none) {y : Handle} (hy : y = { x.write ((rangeFrom 0 64).map (fun i =>
      (o + i, (sbufByte (s.tile (tileOf c)).sbuf (pa + i)).getD (memRead s.mem (pa + i))))) false with lines := setIns x.lines (o / 64) }) :
    s.windowFill c id = (s.modTile (tileOf c) (fun v => { v with handles := mput v.handles h y })).modCore c
      (·.resolve id (f.shape.make (y.read off (f.shape.per 1)))) := by
  have touched : s.zpTouch true [pa] = s := by
    have one : linesOf [pa] = [pa / 256] := rfl
    simp only [State.zpTouch, if_true, one, List.foldl_cons, List.foldl_nil, State.zpLine, hzp]
  subst ho hpa hy
  simp only [State.windowFill, hf, hk, hres, hx, hm, he, hl, Option.isSome_none, Bool.or_self, Bool.not_true, Bool.false_eq_true,
    if_false, hopen, touched]

end

/-! ### O50 -/

/-- Each event at an agent that exists is the operation on the state that is named after it. -/
theorem exec_zeroPendingBackground {h : Nat} (f : Nat) (s : State) (hh : h < 64) :
    exec (.zeroPendingBackground h f) s = .next (s.zpBack h f) := if_pos hh

theorem exec_busyTimeout {c : CoreRef} (id : Nat) (s : State) (hc : coreExists c = true) :
    exec (.busyTimeout c id) s = .next (s.busyTimeout c id) := if_pos hc

theorem exec_tlbinvComplete {c : CoreRef} (s : State) (hc : coreExists c = true) :
    exec (.tlbinvComplete c) s = .next (s.tlbinvDone c) := if_pos hc

theorem exec_hallocComplete {c : CoreRef} (id : Nat) (s : State) (hc : coreExists c = true) :
    exec (.hallocComplete c id) s = .next (s.hallocDone c id) := if_pos hc

theorem exec_hfreeComplete {t : Nat} (h : Nat) (s : State) (ht : t < 16384) :
    exec (.hfreeComplete t h) s = .next (s.hfreeDone t h) := if_pos ht

theorem exec_unitScrubDone {t : Nat} (k : Nat) (s : State) (ht : t < 16384) : exec (.unitScrubDone t k) s =
    .next (s.modTile t (fun v => { v with scrub := setAt v.scrub k (v.scrubbing k - 1) })) := if_pos ht

theorem exec_windowLineFill {c : CoreRef} (id : Nat) (s : State) (hc : coreExists c = true) :
    exec (.windowLineFill c id) s = .next (s.windowFill c id) := if_pos hc

/-- Settles O50: each clause is the lemma above about its event. -/
theorem pageAndHandleEvents : Obligations.PageAndHandleEvents := by
  refine ⟨⟨fun s h f z hh hz hs hlo => ⟨fun hall => ?_, fun k hk hbefore hn hat => ?_⟩,
    fun s t i ht hroom => ⟨fun hf => ?_, fun f vas atom hf hk => ?_⟩,
    fun s k ch hk hch => ⟨fun hr => ?_, fun hr => ?_⟩, fun s f => ?_, fun s f => rfl⟩,
    fun s t n lv pa e va ht hn hva hmiss hwalk hz hroom => ?_,
    fun s s' c id f vas atom hc hf hk hres hm => ⟨fun pas z hg hlda hrep => ?_, fun hearly => ?_,
      fun va t hva hsince hlate hlda hkern htask hs => ?_⟩,
    fun s c f form ctx va hc hf hk hold => ?_, fun s c id h o f w hc hs hf hk hres hm hunits hfirst => ?_,
    fun s t h x ht hx hst hb hlevel => ?_, fun s t k ht => ?_,
    fun s c id h off f x hc hs hf hk hres hx hm he => ⟨fun hl => ?_, fun hl => ?_⟩⟩
  · rw [exec_zeroPendingBackground f s hh, State.zpBack_all hz hs hlo hall]
  · rw [exec_zeroPendingBackground f s hh, State.zpBack_line hz hs hlo hk hbefore hn hat]
  · exact exec_zeroPendingTableFreed_idle i ht hroom hf
  · exact exec_zeroPendingTableFreed_busy i ht hroom hf hk
  · rw [exec_channelRetireRequest hk hch, State.retireCh_again hr]
  · rw [exec_channelRetireRequest hk hch, State.retireCh_first hr]
  · refine ⟨_, rfl, (s.forcePage_keeps f).2, fun k h x hx => ⟨x.force f, ?_, x.force_data f, fun hf => ?_, Handle.force_other, ?_⟩⟩
    · rw [State.tile_forcePage]; exact VTile.forced_handle hx f
    · rw [Handle.force_window hf]; exact ⟨fun hst => if_pos hst, rfl⟩
    · rw [State.tile_forcePage]; exact fun hk hf => VTile.forced_sbuf hx f ⟨hk, hf⟩
  · obtain ⟨u, hu, mem, tile, chip⟩ := State.pageWalk_leaf ht hn hva hmiss hwalk hz hroom
    exact ⟨u, _, hu, mem, rfl, rfl, rfl, rfl, rfl, rfl, tile, chip⟩
  · obtain rfl := Core.flight?_id hf
    intro v
    have reread := (exec_busyReread f.id s hc).trans (congrArg _ (State.busyReread_busy hf hk hres hm))
    have freed : ((s.modCore c (fun x => { x with blocked := false })).core c).flight? f.id = some f := by
      rw [State.core_modCore]; exact hf
    cases atom with
    | some a =>
      obtain ⟨g, hg', hgres, hkind⟩ := State.loadReread_atomic hg (hrep a rfl) freed hres
      exact ⟨_, g, reread, hg', hgres, fun b hb => by cases hb; exact hkind, nofun⟩
    | none =>
      obtain ⟨g, hg', hgres, hkind⟩ := State.loadReread_load hlda hg freed hres
      exact ⟨_, g, reread, hg', hgres, nofun, fun _ => hkind⟩
  · rw [exec_busyTimeout id s hc, State.busyTimeout_early hf hearly]
  · rw [exec_busyTimeout id s hc, State.busyTimeout_late hf hk hres hm hva hsince hlate hlda hkern htask hs]
  · refine ⟨_, (exec_tlbinvComplete s hc).trans (congrArg _ (State.tlbinvDone_next hf hk hold)), ?_, fun k => ?_, fun h => ?_⟩
    · rw [State.core_modCore, State.core_tlbKill]; rfl
    · rw [State.tile_tlb_modCore, State.tile_tlbKill]
    · rw [State.chip_tlb_modCore, State.chip_tlbKill]
  · have scrubbed := VTile.scrubbed_of (a := ⟨h, (descOf w).level, unitsFor (descOf w).level (descOf w).extent, o⟩) hunits hfirst
    obtain ⟨found, answered, -⟩ := State.putHandle_answers hf h (Handle.fresh (descOf w) 0 []) (.s (valid (BitVec.ofNat 64 h)))
    exact ⟨_, _, (exec_hallocComplete id s hc).trans (congrArg _ (State.hallocDone_next hf hk hres hm scrubbed)), answered, found,
      rfl, rfl, rfl, rfl, rfl, rfl, rfl, rfl⟩
  · obtain ⟨gone, rest, scrub, mem, waits, answers, plain, window⟩ := State.freed_released (h := h) hlevel
    exact ⟨_, (exec_hfreeComplete h s ht).trans (congrArg _ (State.hfreeDone_next hx hst hb)), gone, rest, scrub, mem, waits, answers,
      plain, window⟩
  · exact exec_unitScrubDone k s ht
  · rw [exec_windowLineFill id s hc, State.windowFill_present hf hk hres hx hm he hl]
  · intro o pa hopen hzp
    have filled := State.windowFill_absent hf hk hres hx hm he hl rfl rfl hopen hzp rfl
    obtain ⟨found, answered, mem⟩ := State.putHandle_answers hf h _ _
    have line : off / 64 = o / 64 := (Nat.mul_div_cancel _ (by omega)).symm
    exact ⟨_, _, (exec_windowLineFill id s hc).trans (congrArg _ filled), found, mem_setIns.mpr (.inl line), rfl, mem, answered⟩

end Sys2Proof.Machine

/-! SUPPORT. Translation of a virtual address (06 R118-R125), and O29. -/

namespace Sys2Proof.Machine

/-! ### Translation (06 R118-R125) -/

/-- The low byte of a leaf after an access has used it: A set, for a write D as well (06 R125). -/
def Need.marked (n : Need) (e : Nat) : Nat := (e % 256) ||| 0x40 ||| (if n.w then 0x80 else 0)

theorem pbit_eq_testBit (e k : Nat) : pbit e k = e.testBit k := by
  simp only [pbit, Nat.testBit_eq_decide_div_mod_eq]

/-- A is set, for a write D as well, and every other bit of the byte is as it was. -/
theorem Need.testBit_marked (n : Need) (e k : Nat) :
    (n.marked e).testBit k = (decide (k < 8) && e.testBit k || decide (k = 6) || n.w && decide (k = 7)) := by
  have a : Nat.testBit 0x40 k = decide (k = 6) := by
    rw [show (0x40 : Nat) = 2 ^ 6 from rfl, Nat.testBit_two_pow]; simp [eq_comm]
  have d : Nat.testBit (if n.w then 0x80 else 0) k = (n.w && decide (k = 7)) := by
    cases n.w with
    | false => simp
    | true => rw [if_pos rfl, show (0x80 : Nat) = 2 ^ 7 from rfl, Nat.testBit_two_pow]; simp [eq_comm]
  rw [Need.marked, Nat.testBit_or, Nat.testBit_or, a, d, show (256 : Nat) = 2 ^ 8 from rfl, Nat.testBit_mod_two_pow]

/-- Where A, and for a write D, are set already, the byte stays. -/
theorem Need.marked_of_set {n : Need} {e : Nat} (ha : pbit e 6 = true) (hd : n.w = true → pbit e 7 = true) : n.marked e = e % 256 := by
  rw [pbit_eq_testBit] at ha hd
  refine Nat.eq_of_testBit_eq fun k => ?_
  rw [n.testBit_marked, show (256 : Nat) = 2 ^ 8 from rfl, Nat.testBit_mod_two_pow]
  by_cases h6 : k = 6
  · simp [h6, ha]
  · by_cases h7 : k = 7
    · cases hw : n.w with
      | false => simp [h7]
      | true => simp [h7, hd hw]
    · simp [h6, h7]

theorem Need.getLsbD_marked (n : Need) (e : Nat) {k : Nat} (hk : k < 8) :
    (BitVec.ofNat 8 (n.marked e)).getLsbD k = (e.testBit k || decide (k = 6) || n.w && decide (k = 7)) := by
  rw [BitVec.getLsbD_ofNat, n.testBit_marked]; simp [hk]

theorem Need.marked_ne_zero (n : Need) (e : Nat) : BitVec.ofNat 8 (n.marked e) ≠ 0 := by
  intro h
  have := n.getLsbD_marked e (show 6 < 8 by omega)
  rw [h] at this
  simp at this

/-- A byte other than 0 is read back, whatever the form of the memory. -/
theorem memRead_write_nonzero (m : Mem) (k : Nat) {x : Byte} (hx : x ≠ 0) : memRead (memWrite m k x) k = x := by
  rw [memWrite, if_neg hx, memRead_insert_self]

section
variable {s : State} {g : Agent} {va : W64} {n : Need}

theorem State.translate_high (h : 2 ^ 53 ≤ va.toNat) : s.translate g va n = (s, .prot) := if_pos h

variable (hva : va.toNat < 2 ^ 53)
include hva

/-- A cached translation that suffices answers. -/
theorem State.translate_hit {e : TlbE} (hf : s.tlbFind g va.toNat = some e) (hr : rightsOk e.bits.toNat n = true)
    (hd : n.w = true → e.bits.getLsbD 7 = true) (hz : e.zp = false) :
    s.translate g va n = (s, .ok (leafAddr e.level e.frame va.toNat) false) := by
  have dirty : (!n.w || e.bits.getLsbD 7) = true := by
    cases hw : n.w with
    | false => rfl
    | true => rw [hd hw]; rfl
  simp only [State.translate, if_neg (Nat.not_le.mpr hva), hf, hr, dirty, hz, Bool.and_self, if_true, Bool.false_eq_true, if_false]

variable (hmiss : s.tlbFind g va.toNat = none)
include hmiss

theorem State.translate_busy (h : s.walk va.toNat 3 (s.ctx g.ctx).root = .busy) : s.translate g va n = (s, .busy) := by
  simp only [State.translate, if_neg (Nat.not_le.mpr hva), hmiss, h]

theorem State.translate_absent (h : s.walk va.toNat 3 (s.ctx g.ctx).root = .absent) : s.translate g va n = (s, .page) := by
  simp only [State.translate, if_neg (Nat.not_le.mpr hva), hmiss, h]

section
variable {lv a e : Nat} (hwalk : s.walk va.toNat 3 (s.ctx g.ctx).root = .leaf lv a e)
include hwalk

theorem State.translate_norights (h : rightsOk e n = false) : s.translate g va n = (s, .prot) := by
  simp only [State.translate, if_neg (Nat.not_le.mpr hva), hmiss, hwalk, h, Bool.not_false, if_true]

/-- A leaf that gives the rights is marked, unless it is already, and fills the TLBs. -/
theorem State.translate_leaf (hr : rightsOk e n = true) (hz : pbit e 63 = false)
    (hroom : n.marked e = e % 256 ∨ s.undoFull g.ctx (linesOf [a]) = false) :
    s.translate g va n =
      ((if n.marked e = e % 256 then s else s.homeWrite g.ctx false [(a, BitVec.ofNat 8 (n.marked e))]).tlbFill g
        ⟨g.ctx, lv, va.toNat / 2 ^ (13 + 10 * lv), pframe e, BitVec.ofNat 9 (e % 256 ||| n.marked e), false, a⟩,
        .ok (leafAddr lv (pframe e) va.toNat) false) := by
  have free : ¬ (n.marked e ≠ e % 256 ∧ s.undoFull g.ctx (linesOf [a]) = true) := by
    rintro ⟨hne, hfull⟩
    rcases hroom with h | h
    · exact hne h
    · rw [hfull] at h; cases h
  rw [Need.marked] at free ⊢
  simp only [State.translate, if_neg (Nat.not_le.mpr hva), hmiss, hwalk, hr, hz, Bool.not_true, Bool.false_eq_true, if_false, if_neg free]

end

end

theorem State.tlbFill_mem (s : State) (g : Agent) (e : TlbE) : (s.tlbFill g e).mem = s.mem := by
  unfold State.tlbFill
  cases g.tile <;> rfl

/-- The mark that a translation leaves in memory: a byte at the leaf, where it changes. -/
theorem State.marked_mem {s : State} {c a : Nat} {n : Need} {e : Nat}
    (hw : n.marked e ≠ e % 256 → s.writable c a = true) :
    (if n.marked e = e % 256 then s else s.homeWrite c false [(a, BitVec.ofNat 8 (n.marked e))]).mem =
      if n.marked e = e % 256 then s.mem else memWrite s.mem a (BitVec.ofNat 8 (n.marked e)) := by
  split
  · rfl
  · next h => exact State.homeWrite_writable _ (hw h)

/-- Settles O29: the TLBs first, then what the walk gives; a leaf is marked by the one byte that Need.marked says. -/
theorem translation : Obligations.Translation := by
  intro s g va n
  refine ⟨State.translate_high, fun hva => ⟨fun e hf hr hd hz => State.translate_hit hva hf hr hd hz, fun hmiss =>
    ⟨State.translate_busy hva hmiss, State.translate_absent hva hmiss, fun lv a e hwalk =>
      ⟨State.translate_norights hva hmiss hwalk, fun hr hz hroom => ?_⟩⟩⟩⟩
  have unchanged (h : pbit e 6 = true ∧ (n.w = true → pbit e 7 = true)) : n.marked e = e % 256 := Need.marked_of_set h.1 h.2
  have mem := State.marked_mem (s := s) (c := g.ctx) (a := a) (n := n) (e := e) fun hne =>
    (hroom.resolve_right fun h => hne (unchanged h)).1
  refine ⟨_, State.translate_leaf hva hmiss hwalk hr hz (hroom.symm.imp unchanged And.right), ?_⟩
  rw [State.tlbFill_mem, mem]
  refine ⟨fun b hb => ?_, fun ha hd => if_pos (unchanged ⟨ha, hd⟩), fun he => ?_⟩
  · split
    · rfl
    · exact memRead_write_ne _ _ hb
  · have byte : memRead (if n.marked e = e % 256 then s.mem else memWrite s.mem a (BitVec.ofNat 8 (n.marked e))) a =
        BitVec.ofNat 8 (n.marked e) := by
      split
      · next h => rw [h, he, BitVec.ofNat_toNat, BitVec.setWidth_eq]
      · exact memRead_write_nonzero _ _ (n.marked_ne_zero e)
    have old (k : Nat) (hk : k < 8) : (memRead s.mem a).getLsbD k = e.testBit k := by
      rw [BitVec.getLsbD, ← he, show (256 : Nat) = 2 ^ 8 from rfl, Nat.testBit_mod_two_pow]; simp [hk]
    rw [byte]
    refine ⟨by rw [n.getLsbD_marked e (by omega)]; simp, fun hw => by rw [n.getLsbD_marked e (by omega), hw]; simp,
      fun k h6 h7 => ?_⟩
    by_cases hk : k < 8
    · rw [n.getLsbD_marked e hk, old k hk]; simp [h6, h7]
    · rw [BitVec.getLsbD_of_ge _ _ (by omega), BitVec.getLsbD_of_ge _ _ (by omega)]

end Sys2Proof.Machine

/-! SUPPORT. System instructions (22 R387-R390; 06 R126), and O28. -/

namespace Sys2Proof.Machine

/-! ### System instructions issue (03 R67, R68) -/

/-- The system opcodes are of no class that a kind of core lacks. -/
theorem classBad_system (k : CoreKind) {o : Nat} (ho : o ∈ [0x7a, 0x7b, 0x7c, 0x7d, 0x7e]) : classBad k o false = false := by
  simp only [List.mem_cons, List.not_mem_nil, or_false] at ho
  rcases ho with rfl | rfl | rfl | rfl | rfl <;> cases k <;> rfl

/-- ERET where system mode permits it. -/
theorem exec_eret {s : State} {st : BitVec 3} (hr : s.ready [] = true) (hp : s.kind = .sysm ∨ (s.core s.cur).sysMode = true) :
    exec (.eret st) s = .next (finish s.cur 1 st (eretBody s.cur s)) :=
  issue_sys _ _ _ s hr hp (classBad_system _ (by simp)) rfl rfl

section
variable {s : State} {st : BitVec 3} (hk : s.kind = .sysm)
include hk

theorem exec_sleep (hr : s.ready [] = true) :
    exec (.sleep st) s = .next (finish s.cur 1 st (.stop (s.setCore s.cur { s.core s.cur with
      phase := if s.wakeBit s.cur then .entering (s.core s.cur).blk.next .fall else .sleeping (s.core s.cur).blk.next }))) :=
  issue_sys _ _ _ s hr (.inl hk) (classBad_system _ (by simp)) (by simp [hk]) rfl

theorem exec_halt (hr : s.ready [] = true) :
    exec (.halt st) s = .next (finish s.cur 1 st (.stop (s.haltCore s.cur (mcauseVal 4 0 false (s.core s.cur).blk.hdr)))) :=
  issue_sys _ _ _ s hr (.inl hk) (classBad_system _ (by simp)) (by simp [hk]) rfl

theorem exec_tlbinvAll (hr : s.ready [] = true) :
    exec (.tlbinvAll st) s = .next (finish s.cur 1 st (tlbinvBody 2 (fun _ _ => 0) s.cur s)) :=
  issue_sys _ _ _ s hr (.inl hk) (classBad_system _ (by simp)) rfl rfl

variable {a : BitVec 6} (hr : s.ready [.s a] = true) (hl : sLegal s.kind a = true) (hok : (s.op a).ok = true)
include hr hl hok

theorem exec_inten : exec (.inten st a) s = .next ((s.setCore s.cur { s.core s.cur with
    ienNext := (s.core s.cur).ienNext ||| (s.op a).v.setWidth 3 }).kept 1 st) :=
  (issue_sys _ _ _ s hr (.inl hk) (classBad_system _ (by simp)) (Bool.and_eq_true_iff.mpr ⟨hl, beq_iff_eq.mpr hk⟩) (State.given_one hok)).trans
    (congrArg _ (finish_eff s 1 st _))

theorem exec_intdis : exec (.intdis st a) s = .next ((s.setCore s.cur { s.core s.cur with
    ienNext := (s.core s.cur).ienNext &&& ~~~((s.op a).v.setWidth 3) }).kept 1 st) :=
  (issue_sys _ _ _ s hr (.inl hk) (classBad_system _ (by simp)) (Bool.and_eq_true_iff.mpr ⟨hl, beq_iff_eq.mpr hk⟩) (State.given_one hok)).trans
    (congrArg _ (finish_eff s 1 st _))

theorem exec_tlbinvPage :
    exec (.tlbinvPage st a) s = .next (finish s.cur 1 st (tlbinvBody 0 (fun c s => (s.rdS c a).v) s.cur s)) :=
  issue_sys _ _ _ s hr (.inl hk) (classBad_system _ (by simp)) hl (State.given_one hok)

theorem exec_tlbinvCtx :
    exec (.tlbinvCtx st a) s = .next (finish s.cur 1 st (tlbinvBody 1 (fun c s => (s.rdS c a).v) s.cur s)) :=
  issue_sys _ _ _ s hr (.inl hk) (classBad_system _ (by simp)) hl (State.given_one hok)

end

/-- An instruction that ends its block in a way of its own leaves the core in the phase and with the registers that it gave. -/
theorem State.core_stop (s : State) (c : CoreRef) (n : Nat) (st : BitVec 3) :
    (finish c n st (.stop s)).core c = { s.core c with
      blocked := false, awaits := false, began := none, resume := none, busyAt := none, replayTo := 0 } := s.core_modCore c _

/-! ### ERET (22 R387; 08 R157) -/

theorem eretBody_sysm {c : CoreRef} {s : State} (hk : kindOf c = .sysm) :
    eretBody c s = if (s.core c).inh then .stop (s.setCore c (s.core c).eret) else .trap ILLOP 0 s := by
  simp only [eretBody, hk]

/-- On a tile core it ends the save handler. -/
theorem eretBody_saving {c : CoreRef} {s : State} {p : Option W64} (hk : kindOf c ≠ .sysm) (hp : (s.core c).phase = .saving p) :
    eretBody c s = .stop (s.saveEnd c p) := by
  cases c with
  | worker t => simp only [eretBody, kindOf, hp]
  | feeder t => simp only [eretBody, kindOf, hp]
  | sys n k => exact absurd rfl hk
  | mgmt i k => exact absurd rfl hk

theorem State.phase_saveEnd (s : State) (c : CoreRef) (p : Option W64) :
    ((s.saveEnd c p).core c).phase = p.elim .idle .paused := by
  cases p <;> simp only [State.saveEnd, State.core_setCore, Option.elim]

/-! ### HALT (22 R390) -/

@[simp] theorem State.active_modCore (s : State) (c : CoreRef) (f : Core → Core) (h : Nat) :
    ((s.modCore c f).chip h).active = (s.chip h).active := by
  cases c with
  | worker t => rfl
  | feeder t => rfl
  | mgmt i k => rfl
  | sys n k =>
    simp only [State.modCore, State.setCore]
    by_cases e : h = n
    · subst e; split <;> simp
    · split <;> simp [State.chip_setChip_ne _ _ e]

/-- A core that another, which exists as it does, is not, keeps what it is when that one changes. -/
theorem State.core_modCore_ne (s : State) {c d : CoreRef} (f : Core → Core) (hc : coreExists c = true) (hd : coreExists d = true)
    (h : d ≠ c) : (s.modCore c f).core d = s.core d := s.core_setCore_ne _ hc hd h

/-- A change of a chiplet that leaves its system cores leaves every core. -/
theorem State.core_modChip (s : State) (n : Nat) {f : Chip → Chip} (h0 : ∀ x, (f x).sys0 = x.sys0) (h1 : ∀ x, (f x).sys1 = x.sys1)
    (c : CoreRef) : (s.modChip n f).core c = s.core c := (s.sameWork_modChip n f h0 h1).core c

theorem State.core_logSys (s : State) (kind core n : Nat) (d : BitVec 224) (c : CoreRef) : (s.logSys kind core n d).core c = s.core c := by
  cases c <;> rfl

/-- The active system core that halts: it is halted, the other is active, and takes a machine check unless it is under INH. -/
theorem State.haltCore_active {s : State} {ch k : Nat} (cause : W64) (hch : ch < 64) (hk : k < 2) (ha : (s.chip ch).active = k) :
    let t := s.haltCore (.sys ch k) cause
    let x := s.core (.sys ch (1 - k))
    (t.core (.sys ch k)).phase = .halted ∧ (t.chip ch).active = 1 - k ∧ (t.core (.sys ch (1 - k))).mc = !x.inh ∧
      (t.core (.sys ch (1 - k))).mcause = cause ||| (1 <<< 55) := by
  have there : coreExists (.sys ch k) = true := by simp [coreExists, hch, hk]
  have other : coreExists (.sys ch (1 - k)) = true := by simp only [coreExists, Bool.and_eq_true, decide_eq_true_eq]; omega
  have ne : (CoreRef.sys ch k) ≠ .sys ch (1 - k) := by simp only [ne_eq, CoreRef.sys.injEq, true_and]; omega
  have chip (u : State) (n : Nat) (c : CoreRef) : (u.modChip ch (fun x => { x with active := n })).core c = u.core c :=
    u.core_modChip ch (f := fun x => { x with active := n }) (fun _ => rfl) (fun _ => rfl) c
  have active : ((s.modCore (.sys ch k) (fun x => { x with phase := .halted, half := [], mc := false })).chip ch).active = k := by
    rw [State.active_modCore, ha]
  simp only [State.haltCore, active, if_true, State.core_modCore, chip, State.core_modCore_ne _ _ other there ne,
    State.core_modCore_ne _ _ there other ne.symm, State.active_modCore]
  exact ⟨trivial, by simp [State.modChip], trivial, trivial⟩

/-- Whatever core halts is halted. -/
theorem State.phase_haltCore {s : State} {c : CoreRef} (cause : W64) (hc : coreExists c = true) :
    ((s.haltCore c cause).core c).phase = .halted := by
  cases c with
  | worker t => simp [State.haltCore]
  | feeder t => simp [State.haltCore]
  | mgmt i k => simp only [State.haltCore, State.core_logSys, State.core_modCore]
  | sys ch k =>
    simp only [coreExists, Bool.and_eq_true, decide_eq_true_eq] at hc
    by_cases ha : (s.chip ch).active = k
    · exact (State.haltCore_active cause hc.1 hc.2 ha).1
    · simp only [State.haltCore, State.active_modCore, if_neg ha, State.core_modCore]

/-- The machine check that the other system core takes is of kind 4. -/
theorem kind_haltCause (a : W64) : (mcauseVal 4 0 false a ||| ((1 : W64) <<< 55)).toNat / 2 ^ 60 = 4 := by
  have cause : (mcauseVal 4 0 false a).toNat / 2 ^ 60 = 4 := by
    simp only [mcauseVal, BitVec.toNat_ofNat, Bool.false_eq_true, if_false]
    omega
  have peer : ((1 : W64) <<< 55).toNat / 2 ^ 60 = 0 := by decide
  rw [BitVec.toNat_or, Nat.or_div_two_pow, cause, peer]
  rfl

/-! ### TLBINV (06 R126) -/

/-- Some TLB of the panel holds a translation. -/
def State.caches (s : State) (e : TlbE) : Prop :=
  (∃ n v, mfind s.tiles n = some v ∧ e ∈ v.tlb) ∨ (∃ n h, mfind s.chips n = some h ∧ e ∈ h.tlb)

/-- What each form of TLBINV spares: other pages than its own, other contexts, nothing. -/
theorem TlbE.spared_page (e : TlbE) (ctx va : Nat) :
    e.killed 0 ctx va = false ↔ ¬(e.ctx = ctx ∧ e.vpn = va / 2 ^ (13 + 10 * e.level)) := by simp [TlbE.killed]

theorem TlbE.spared_ctx (e : TlbE) (ctx va : Nat) : e.killed 1 ctx va = false ↔ e.ctx ≠ ctx := by simp [TlbE.killed]

theorem TlbE.spared_all (e : TlbE) (ctx va : Nat) : e.killed 2 ctx va ≠ false := by simp [TlbE.killed]

/-- After TLBINV no TLB holds a translation of its form, and the core has one result in flight more. -/
theorem tlbinvBody_removes (form : Nat) (w : CoreRef → State → W64) (s : State) (n : Nat) (st : BitVec 3) :
    let t := finish s.cur n st (tlbinvBody form w s.cur s)
    let v := (w s.cur s).toNat
    (t.core s.cur).flights.length = (s.core s.cur).flights.length + 1 ∧
      ∀ e, t.caches e → e.killed form (v / 2 ^ 56) (v / 2 ^ 13 % 2 ^ 40 * 8192) = false := by
  intro t v
  have ctx : wf (w s.cur s) 56 8 = v / 2 ^ 56 :=
    Nat.mod_eq_of_lt (Nat.div_lt_of_lt_mul (by have := (w s.cur s).isLt; omega))
  have body : tlbinvBody form w s.cur s = .eff ((s.tlbKill form (v / 2 ^ 56) (v / 2 ^ 13 % 2 ^ 40 * 8192)).modCore s.cur
      (·.launch .s 31 { Flight.base with kind := .tlbinv form (v / 2 ^ 56) (v / 2 ^ 13 % 2 ^ 40 * 8192), hold := true })) := by
    rw [tlbinvBody, ctx]; rfl
  have ht : t = finish s.cur n st _ := congrArg (finish s.cur n st) body
  refine ⟨?_, fun e he => ?_⟩
  · obtain ⟨g, hg, -, -, -⟩ := (s.core s.cur).flights_launch .s 31
      { Flight.base with kind := .tlbinv form (v / 2 ^ 56) (v / 2 ^ 13 % 2 ^ 40 * 8192), hold := true }
    rw [ht]
    simp only [finish, State.core_modCore, State.core_tlbKill, Core.flights_advance, Core.flights_record, hg, List.length_append,
      List.length_singleton]
  · have tile (k : Nat) : (t.tile k).tlb = (s.tile k).tlb.filter (fun e => !e.killed form (v / 2 ^ 56) (v / 2 ^ 13 % 2 ^ 40 * 8192)) := by
      rw [ht]; simp only [finish, State.tile_tlb_modCore, State.tile_tlbKill]
    have chip (k : Nat) : (t.chip k).tlb = (s.chip k).tlb.filter (fun e => !e.killed form (v / 2 ^ 56) (v / 2 ^ 13 % 2 ^ 40 * 8192)) := by
      rw [ht]; simp only [finish, State.chip_tlb_modCore, State.chip_tlbKill]
    rcases he with ⟨k, x, hx, hm⟩ | ⟨k, x, hx, hm⟩
    · have here : t.tile k = x := by rw [State.tile, mget, hx]; rfl
      rw [← here, tile] at hm
      simpa using (List.mem_filter.mp hm).2
    · have here : t.chip k = x := by rw [State.chip, mget, hx]; rfl
      rw [← here, chip] at hm
      simpa using (List.mem_filter.mp hm).2

/-- Settles O28: each instruction by the effect that it issues with. -/
theorem systemResults : Obligations.SystemResults := by
  refine ⟨fun s st hr hk => ?_, fun s st a hr hk hl hok => ?_, fun s st hr hk => ?_, fun s st p hr hk hp => ?_⟩
  · obtain ⟨there, -⟩ := (s.ready_iff []).mp hr
    intro x
    refine ⟨fun hi => ?_, fun hi => ?_, ⟨_, exec_sleep hk hr, ?_⟩, ⟨_, exec_halt hk hr, ?_⟩, fun ch k hc hk2 ha hi => ?_⟩
    · refine ⟨_, exec_eret hr (.inl hk), ?_⟩
      rw [eretBody_sysm hk, if_pos hi, State.core_stop, State.core_setCore]
      exact ⟨rfl, rfl, rfl, rfl⟩
    · rw [exec_eret hr (.inl hk), eretBody_sysm hk, if_neg (by rw [hi]; decide), State.finish_trap hr]
    · rw [State.core_stop, State.core_setCore]
      exact ⟨rfl, rfl⟩
    · rw [State.core_stop]
      exact State.phase_haltCore _ there
    · have hch : ch < 64 := by
        rw [hc] at there
        simp only [coreExists, Bool.and_eq_true, decide_eq_true_eq] at there
        exact there.1
      have other : coreExists (.sys ch (1 - k)) = true := by simp only [coreExists, Bool.and_eq_true, decide_eq_true_eq]; omega
      have ne : (CoreRef.sys ch (1 - k)) ≠ .sys ch k := by simp only [ne_eq, CoreRef.sys.injEq, true_and]; omega
      rw [hc] at there
      obtain ⟨-, active, mc, mcause⟩ := State.haltCore_active (mcauseVal 4 0 false (s.core s.cur).blk.hdr) hch hk2 ha
      refine ⟨_, exec_halt hk hr, ?_⟩
      rw [hc] at active mc mcause ⊢
      simp only [finish, State.active_modCore, State.core_modCore_ne _ _ there other ne]
      exact ⟨active, by rw [mc, hi]; rfl, by rw [mcause]; exact kind_haltCause _⟩
  · intro v x
    refine ⟨exec_inten hk hr hl hok, exec_intdis hk hr hl hok, ⟨_, exec_tlbinvPage hk hr hl hok, ?_⟩,
      ⟨_, exec_tlbinvCtx hk hr hl hok, ?_⟩⟩
    · obtain ⟨flights, removed⟩ := tlbinvBody_removes 0 (fun c s => (s.rdS c a).v) s 1 st
      exact ⟨flights, fun e he => (e.spared_page _ _).mp (removed e he)⟩
    · obtain ⟨flights, removed⟩ := tlbinvBody_removes 1 (fun c s => (s.rdS c a).v) s 1 st
      exact ⟨flights, fun e he => (e.spared_ctx _ _).mp (removed e he)⟩
  · obtain ⟨flights, removed⟩ := tlbinvBody_removes 2 (fun _ _ => 0) s 1 st
    have none_cached (e : TlbE) (he : State.caches _ e) : False := e.spared_all _ _ (removed e he)
    exact ⟨_, exec_tlbinvAll hk hr, flights,
      fun n v hv => List.eq_nil_iff_forall_not_mem.mpr fun e he => none_cached e (.inl ⟨n, v, hv, he⟩),
      fun n h hh => List.eq_nil_iff_forall_not_mem.mpr fun e he => none_cached e (.inr ⟨n, h, hh, he⟩)⟩
  · have mode : (s.core s.cur).sysMode = true := by rw [Core.sysMode, hp]
    refine ⟨_, exec_eret hr (.inr mode), ?_⟩
    rw [eretBody_saving hk hp, State.core_stop]
    have phase := s.phase_saveEnd s.cur p
    refine ⟨fun q hq => ?_, fun hq => ?_⟩ <;> subst hq <;> exact phase

end Sys2Proof.Machine

/-! SUPPORT. The registers that an access may change (02 R24-R35). -/

namespace Sys2Proof.Machine

/-! ### The registers that a frame speaks of (02 R24-R35) -/

/-- A core without what issue, flights and replays use: its registers are left. -/
def Core.arch (x : Core) : Core :=
  { x with phase := .idle, blk := Blk.none, flights := [], nextId := 0, watches := [], seq := 0, blocked := false, began := none,
           resume := none, awaits := false, busyAt := none, replay := [], replayTo := 0 }

/-- y keeps what x has, the destination and the pointer p apart, and its flags. -/
def Core.Frames (x y : Core) (cls : Cls) (d : BitVec 5) (p : Nat) : Prop :=
  x.keeps y cls d p ∧ y.r.fflags = x.r.fflags ∧ y.r.yund = x.r.yund

section
variable {x y z x' y' : Core} {cls : Cls} {d : BitVec 5} {p : Nat}

theorem Core.frames_refl (x : Core) (cls : Cls) (d : BitVec 5) (p : Nat) : x.Frames x cls d p := by
  simp [Core.Frames, Core.keeps]

/-- A frame is about the registers alone. -/
theorem Core.Frames.congr (h : x.Frames y cls d p) (hx : x'.arch = x.arch) (hy : y'.arch = y.arch) : x'.Frames y' cls d p := by
  have registers : x.arch.Frames y.arch cls d p := h
  rw [← hx, ← hy] at registers
  exact registers

theorem Core.Frames.trans (a : x.Frames y cls d p) (b : y.Frames z cls d p) : x.Frames z cls d p := by
  obtain ⟨⟨s, ptr, k, v, yarn, q, vq, loops, norm, hand, sel, fmt, trap, check, task, arg, tid, kreg, ytab, mcause, jbase, vec, inh, ien,
    next, ret⟩, flags, und⟩ := a
  obtain ⟨⟨s', ptr', k', v', yarn', q', vq', loops', norm', hand', sel', fmt', trap', check', task', arg', tid', kreg', ytab', mcause',
    jbase', vec', inh', ien', next', ret'⟩, flags', und'⟩ := b
  exact ⟨⟨fun i hi hd => (s' i hi hd).trans (s i hi hd), fun i hi hd hp => (ptr' i hi hd hp).trans (ptr i hi hd hp),
    fun i hi hd => (k' i hi hd).trans (k i hi hd), fun i hi hd => (v' i hi hd).trans (v i hi hd),
    fun i hi hd => (yarn' i hi hd).trans (yarn i hi hd), fun h => (q' h).trans (q h), fun h => (vq' h).trans (vq h), loops'.trans loops,
    fun h => (norm' (sel ▸ h)).trans (norm h), fun h => (hand' (sel ▸ h)).trans (hand h), sel'.trans sel, fmt'.trans fmt,
    trap'.trans trap, check'.trans check, task'.trans task, arg'.trans arg, tid'.trans tid, kreg'.trans kreg, ytab'.trans ytab,
    mcause'.trans mcause, jbase'.trans jbase, vec'.trans vec, inh'.trans inh, ien'.trans ien, next'.trans next, ret'.trans ret⟩,
    flags'.trans flags, und'.trans und⟩

theorem Core.Frames.sel (h : x.Frames y cls d p) : y.sel = x.sel := by
  obtain ⟨⟨-, -, -, -, -, -, -, -, -, -, sel, -⟩, -⟩ := h
  exact sel

/-- The bank in use changed where the destination allows it. -/
theorem Core.frames_setBank {b : Bank} (hs : ∀ k, k < 16 → (cls = .s → d.toNat ≠ k + 1) → vget ic b.s k = vget ic x.bank.s k)
    (hk : ∀ k, k < 4 → (cls = .s → d.toNat ≠ k + 25) → vget ic b.k k = vget ic x.bank.k k)
    (hq : cls ≠ .s ∨ d = 31 → b.q = x.bank.q) (hl : b.loops = x.bank.loops) : x.Frames (x.setBank b) cls d p := by
  obtain ⟨r, sel⟩ := x
  cases sel <;> simp_all [Core.Frames, Core.keeps, Core.bank, Core.setBank]

/-- Pointers, vectors, the vector queue and yarns changed where the destination, or a post-increment, allows it. -/
theorem Core.frames_regs {ptr : Vector (Cell SVal) 8} {vec : Vector (Cell VVal) 8} {queue : Ring VVal} {yarn : Vector (Cell YVal) 8}
    (hp : ∀ k, k < 8 → (cls = .s → d.toNat ≠ k + 17) → k ≠ p → vget ic ptr k = vget ic x.r.p k)
    (hv : ∀ k, k < 8 → (cls = .v → d.toNat ≠ k + 1) → vget (Cell.mk0 vz) vec k = vget (Cell.mk0 vz) x.r.v k)
    (hq : cls ≠ .v ∨ d = 31 → queue = x.r.vq)
    (hy : ∀ k, k < 8 → (cls = .y → d.toNat ≠ k + 1) → vget (Cell.mk0 yz) yarn k = vget (Cell.mk0 yz) x.r.y k) :
    x.Frames { x with r := { x.r with p := ptr, v := vec, vq := queue, y := yarn } } cls d p :=
  ⟨⟨fun _ _ _ => rfl, hp, fun _ _ _ => rfl, hv, hy, fun _ => rfl, hq, rfl, fun _ => rfl, fun _ => rfl, rfl, rfl, rfl, rfl, rfl, rfl, rfl,
    rfl, rfl, rfl, rfl, rfl, rfl, rfl, rfl, rfl⟩, rfl, rfl⟩

/-- A scalar delivered to D. -/
theorem Core.frames_putS (x : Core) (d : BitVec 5) (c : Cell SVal) (p : Nat) : x.Frames (x.putS d.toNat c) .s d p := by
  unfold Core.putS
  split
  · exact x.frames_refl _ _ _
  · next h31 =>
    have queue : Cls.s ≠ .s ∨ d = 31 → x.bank.q.push c = x.bank.q :=
      fun h => h.elim (fun h => absurd rfl h) (fun h => absurd (congrArg BitVec.toNat h) h31)
    have pushed : x.Frames (x.setBank { x.bank with q := x.bank.q.push c }) .s d p :=
      Core.frames_setBank (fun _ _ _ => rfl) (fun _ _ _ => rfl) queue rfl
    simp only []
    split
    · next h => exact Core.frames_setBank (fun k _ hd => vget_vset_ne _ _ _ (by have := hd rfl; omega)) (fun _ _ _ => rfl) queue rfl
    · split
      · next h =>
        exact pushed.trans (Core.frames_regs (fun k _ hd _ => vget_vset_ne _ _ _ (by have := hd rfl; omega)) (fun _ _ _ => rfl)
          (fun _ => rfl) (fun _ _ _ => rfl))
      · split
        · next h => exact Core.frames_setBank (fun _ _ _ => rfl) (fun k _ hd => vget_vset_ne _ _ _ (by have := hd rfl; omega)) queue rfl
        · exact pushed

/-- A vector delivered to D. -/
theorem Core.frames_putV (x : Core) (d : BitVec 5) (c : Cell VVal) (p : Nat) : x.Frames (x.putV d.toNat c) .v d p := by
  unfold Core.putV
  split
  · exact x.frames_refl _ _ _
  · next h31 =>
    have queue : Cls.v ≠ .v ∨ d = 31 → x.r.vq.push c = x.r.vq :=
      fun h => h.elim (fun h => absurd rfl h) (fun h => absurd (congrArg BitVec.toNat h) h31)
    simp only []
    split
    · next h =>
      exact Core.frames_regs (fun _ _ _ _ => rfl) (fun k _ hd => vget_vset_ne _ _ _ (by have := hd rfl; omega)) queue (fun _ _ _ => rfl)
    · exact Core.frames_regs (fun _ _ _ _ => rfl) (fun _ _ _ => rfl) queue (fun _ _ _ => rfl)

/-- A yarn delivered to D. -/
theorem Core.frames_putY (x : Core) (d : BitVec 5) (c : Cell YVal) (p : Nat) : x.Frames (x.putY d.toNat c) .y d p := by
  unfold Core.putY
  split
  · next h =>
    exact Core.frames_regs (fun _ _ _ _ => rfl) (fun _ _ _ => rfl) (fun _ => rfl)
      (fun k _ hd => vget_vset_ne _ _ _ (by have := hd rfl; omega))
  · exact x.frames_refl _ _ _

/-- A result that enters those in flight. -/
theorem Core.frames_launch (x : Core) (cls : Cls) (d : BitVec 5) (f : Flight) (p : Nat) : x.Frames (x.launch cls d f) cls d p := by
  cases cls with
  | s => exact (x.frames_putS d ⟨iz, 0, some x.nextId⟩ p).congr rfl rfl
  | v => exact (x.frames_putV d ⟨vz, 0, some x.nextId⟩ p).congr rfl rfl
  | y => exact (x.frames_putY d ⟨yz, 0, some x.nextId⟩ p).congr rfl rfl

/-- The pointer that a post-increment moves. -/
theorem Core.frames_setP (x : Core) (code : Nat) (v : SVal) (cls : Cls) (d : BitVec 5) : x.Frames (x.setP code v) cls d (code - 32) :=
  Core.frames_regs (fun _ _ _ hp => vget_vset_ne _ _ _ hp) (fun _ _ _ => rfl) (fun _ => rfl) (fun _ _ _ => rfl)

end

/-! ### What leaves every register as it was -/

theorem Core.arch_advance (x : Core) (n : Nat) (st : BitVec 3) (h : x.sel ≠ .msg) : (x.advance n st).arch = x.arch := by
  simp only [Core.advance, if_neg h]
  split
  · split <;> rfl
  · rfl

theorem Core.arch_record (x : Core) (w : Nat) (h : x.sel ≠ .msg) : (x.record w).arch = x.arch := by
  rw [Core.record, if_neg h]; rfl

/-- A flight without a destination. -/
theorem Core.arch_launch_none (x : Core) (f : Flight) : (x.launch .s 31 f).arch = x.arch := rfl

theorem Core.arch_xwaits (x : Core) (ch : Nat) (done : W32) : (x.xwaits ch done).arch = x.arch := by
  refine foldl_keeps (fun y : Core => y.arch = x.arch) _ (fun y f hy => ?_) _ _ rfl
  split
  · split
    · exact hy
    · exact hy
  · exact hy

end Sys2Proof.Machine

/-! SUPPORT. Changes of the state that leave a core's registers. -/

namespace Sys2Proof.Machine

/-! ### Changes of the state that leave a core's registers (the same for every core) -/

/-- The registers of a core, and its flags, are in t what they were in s, the destination and the pointer p apart. -/
def State.Frames (s t : State) (c : CoreRef) (cls : Cls) (d : BitVec 5) (p : Nat) : Prop := (s.core c).Frames (t.core c) cls d p

section
variable {s t u : State} {c : CoreRef} {cls : Cls} {d : BitVec 5} {p : Nat}

theorem State.Frames.of_arch (h : (t.core c).arch = (s.core c).arch) : s.Frames t c cls d p :=
  (Core.frames_refl _ _ _ _).congr rfl h

theorem State.Frames.trans (a : s.Frames t c cls d p) (b : t.Frames u c cls d p) : s.Frames u c cls d p := Core.Frames.trans a b

theorem State.Frames.after (h : (t.core c).arch = (s.core c).arch) (a : t.Frames u c cls d p) : s.Frames u c cls d p :=
  Core.Frames.congr a h.symm rfl

theorem State.Frames.before (a : s.Frames t c cls d p) (h : (u.core c).arch = (t.core c).arch) : s.Frames u c cls d p :=
  Core.Frames.congr a rfl h

end

theorem State.arch_modCore (s : State) (d c : CoreRef) {f : Core → Core} (hf : ∀ x, (f x).arch = x.arch := by exact fun _ => rfl) :
    ((s.modCore d f).core c).arch = (s.core c).arch := by
  rcases s.core_modCore_cases d c f with e | ⟨-, e⟩ <;> rw [e]
  exact hf _

theorem State.arch_modTile (s : State) (t : Nat) (c : CoreRef) {f : VTile → VTile}
    (hw : ∀ v, (f v).worker.arch = v.worker.arch := by exact fun _ => rfl)
    (hf : ∀ v, (f v).feeder.arch = v.feeder.arch := by exact fun _ => rfl) : ((s.modTile t f).core c).arch = (s.core c).arch := by
  have tile (u : Nat) : ((s.modTile t f).tile u).worker.arch = (s.tile u).worker.arch ∧
      ((s.modTile t f).tile u).feeder.arch = (s.tile u).feeder.arch := by
    by_cases e : u = t
    · subst e; simp [State.modTile, hw, hf]
    · simp [State.modTile, State.tile_setTile_ne s _ e]
  cases c with
  | worker u => exact (tile u).1
  | feeder u => exact (tile u).2
  | sys n k => rfl
  | mgmt i k => rfl

/-- A tile whose cores stay is put in place. -/
theorem State.core_setTile (s : State) (c : CoreRef) {t : Nat} {v : VTile} (hw : v.worker = (s.tile t).worker := by rfl)
    (hf : v.feeder = (s.tile t).feeder := by rfl) : (s.setTile t v).core c = s.core c := by
  have tile (u : Nat) : ((s.setTile t v).tile u).worker = (s.tile u).worker ∧ ((s.setTile t v).tile u).feeder = (s.tile u).feeder := by
    by_cases e : u = t
    · subst e; simp [hw, hf]
    · simp [State.tile_setTile_ne s _ e]
  cases c with
  | worker u => exact (tile u).1
  | feeder u => exact (tile u).2
  | sys n k => rfl
  | mgmt i k => rfl

section
variable (s : State) (c e : CoreRef)

/-! #### Results in flight -/

theorem State.arch_await_none (n : Nat) (sx : Bool) (k : FKind) (acq : Option Nat) :
    ((s.await e 31 (.scalar n sx) k acq).core c).arch = (s.core c).arch := s.arch_modCore e c

theorem State.arch_order (t o : Nat) : ((s.modTile t (fun v => { v with order := o })).core c).arch = (s.core c).arch :=
  congrArg Core.arch (s.core_ordered t o c)

theorem State.arch_hold_none (n : Nat) (sx : Bool) (op : HeldOp) (rel acq : Option Nat) :
    ((s.hold e 31 (.scalar n sx) op rel acq).core c).arch = (s.core c).arch :=
  (State.arch_await_none _ c e n sx _ acq).trans (s.arch_order c _ _)

theorem State.arch_markVa (l : List W64) : ((s.markVa e l).core c).arch = (s.core c).arch := s.arch_modCore e c

theorem State.arch_markBusy : ((s.markBusy e).core c).arch = (s.core c).arch := s.arch_modCore e c

theorem State.arch_markLda (b : Bool) : ((s.modCore e (·.markLda b)).core c).arch = (s.core c).arch := s.arch_modCore e c

theorem State.arch_busyWait (va : W64) : ((s.busyWait e va).core c).arch = (s.core c).arch := s.arch_modCore e c

theorem State.arch_resolve (id : Nat) (v : RVal) : ((s.modCore e (·.resolve id v)).core c).arch = (s.core c).arch :=
  s.arch_modCore e c

/-! #### Watches and tags -/

theorem State.arch_ldaWatch (q : LoadReq) (va : W64) (pas : List Nat) (v : Option RVal) :
    ((s.ldaWatch e q va pas v).core c).arch = (s.core c).arch := by
  unfold State.ldaWatch
  split
  · exact s.arch_modCore e c
  · rfl

theorem State.arch_breakW (pas vas : List Nat) : ((s.breakW e pas vas).core c).arch = (s.core c).arch := by
  unfold State.breakW
  split
  · exact s.arch_modCore e c
  · exact s.arch_modTile _ c

theorem State.arch_breakV (t va n : Nat) : ((s.breakV t va n).core c).arch = (s.core c).arch :=
  s.arch_modTile _ c

theorem State.arch_breakTst (t : Nat) (x : Xfer) : ((s.breakTst t x).core c).arch = (s.core c).arch := by
  refine foldl_keeps (fun u : State => (u.core c).arch = (s.core c).arch) _ (fun u j hu => ?_) _ _ rfl
  refine foldl_keeps (fun u : State => (u.core c).arch = (s.core c).arch) _ (fun u i hu => ?_) _ _ hu
  split
  · exact (u.arch_breakV c _ _ _).trans hu
  · exact hu

theorem State.arch_nextSeq : ((s.modCore e Core.nextSeq).core c).arch = (s.core c).arch := s.arch_modCore e c

theorem State.arch_launchSeq (kick : Bool) : ((s.modCore e (Core.launchSeq kick)).core c).arch = (s.core c).arch :=
  s.arch_modCore e c (fun _ => by cases kick <;> rfl)

theorem State.arch_acquire (scope : Nat) : ((s.acquire e scope).core c).arch = (s.core c).arch := by
  have broken : ((s.modCore e (fun x => { x with watches := [] })).core c).arch = (s.core c).arch := s.arch_modCore e c
  simp only [State.acquire]
  split
  · exact broken
  · split
    · exact (State.arch_modTile _ _ c).trans broken
    · exact broken

/-! #### Stores -/

theorem State.arch_storeIssue (pas : List Nat) (va : W64) (n : Nat) (kick : List Nat) :
    ((s.storeIssue e pas va n kick).core c).arch = (s.core c).arch := by
  simp only [State.storeIssue]
  split
  · exact s.arch_breakW c e _ _
  · exact (State.arch_nextSeq _ c e).trans (s.arch_breakW c e _ _)

theorem State.arch_sbufPut (bytes : List (Nat × Byte)) (u : Nat) (zp : Bool) (kick : List Nat) (seq n : Nat) (k w : Option Nat)
    (trs : List (Nat × Nat)) : ((s.sbufPut e bytes u zp kick seq n k w trs).core c).arch = (s.core c).arch :=
  s.arch_modTile _ c

theorem State.arch_bufStore (va : W64) (n : Nat) (bytes : List (Nat × Byte)) (u : Nat) (zp : Bool) (kick : List Nat) (w : Option Nat) :
    ((s.bufStore e va n bytes u zp kick w).core c).arch = (s.core c).arch :=
  (State.arch_sbufPut _ c e _ _ _ _ _ _ _ _ _).trans (s.arch_storeIssue c e _ _ _ _)

theorem State.core_kickAt (pa : Nat) (qs : List Nat) (agent seq : Nat) : (s.kickAt pa qs agent seq).core c = s.core c := by
  unfold State.kickAt
  split
  · rfl
  · simp only []
    split
    · rfl
    · refine Eq.trans ?_ (s.core_modChip ((s.homeChip pa).getD 0) (f := fun h => { h with
        tags := mput h.tags agent (lastN 64 (mget [] h.tags agent ++ [(seq, 0)])) }) (fun _ => rfl) (fun _ => rfl) c)
      cases c <;> rfl

/-! #### Handles and what is sent -/

theorem State.arch_modHandle (t h : Nat) (f : Handle → Handle) : ((s.modHandle t h f).core c).arch = (s.core c).arch := by
  unfold State.modHandle
  split
  · exact s.arch_modTile _ c
  · rfl

theorem State.arch_consume (t h off n : Nat) (fec : Bool) : ((s.consume t h off n fec).1.core c).arch = (s.core c).arch := by
  unfold State.consume
  split
  · split
    · exact s.arch_modHandle c t h _
    · rfl
  · rfl

theorem State.arch_putWait (t : Nat) (w : WaitE) : ((s.putWait t w).core c).arch = (s.core c).arch :=
  s.arch_modTile _ c

theorem State.arch_bankAtomic (t h off : Nat) (q : AtomReq) : ((s.bankAtomic t h off q).1.core c).arch = (s.core c).arch := by
  unfold State.bankAtomic
  split
  · exact s.arch_modHandle c t h _
  · rfl

/-- An item that goes on changes a link alone. -/
theorem State.onward_cases (x : NetItem) : (s.onward x).1 = s ∨ ∃ l y, (s.onward x).1 = s.setLink l y := by
  unfold State.onward
  simp only []
  split
  · exact .inl rfl
  · split
    · exact .inr ⟨_, _, rfl⟩
    · exact .inl rfl

theorem State.core_onward (x : NetItem) : (s.onward x).1.core c = s.core c := by
  rcases s.onward_cases x with h | ⟨l, y, h⟩ <;> rw [h]
  cases c <;> rfl

theorem State.core_sendItem (src dst cls : Nat) (id : Nat) (body : NetBody) : (s.sendItem src dst cls e id body).core c = s.core c := by
  have queued (t : State) (l : List NetItem) : ({ t with net := l } : State).core c = t.core c := by cases c <;> rfl
  simp only [State.sendItem, State.sendAt, queued, State.core_onward]
  exact s.core_setTile c

theorem State.arch_gleave (g : Nat) : ((s.gleave e g).core c).arch = (s.core c).arch := by
  unfold State.gleave
  split
  · exact (State.arch_modCore _ e c).trans (s.arch_order c _ _)
  · exact congrArg Core.arch (s.core_sendItem c e _ _ _ _ _)

/-! #### Barriers, transfers and logs -/

theorem State.core_logCtx (n kind : Nat) (vt : BitVec 16) (k : Nat) (d : BitVec 224) (trap : BitVec 128) :
    (s.logCtx n kind vt k d trap).core c = s.core c := by cases c <;> rfl

theorem State.arch_releaseWait (l : List Waiter) (ph : W32) : ((s.releaseWait l ph).core c).arch = (s.core c).arch := by
  refine foldl_keeps (fun u : State => (u.core c).arch = (s.core c).arch) _ (fun u w hu => ?_) _ _ rfl
  split
  · exact hu
  · exact (u.arch_resolve c w.c _ _).trans hu

theorem State.core_modBars (t b : Nat) (x : Barrier) : (s.modTile t (fun v => { v with bars := mput v.bars b x })).core c = s.core c :=
  s.core_modTile t (f := fun v => { v with bars := mput v.bars b x }) (fun _ => rfl) (fun _ => rfl) c

theorem State.arch_barComplete (t b : Nat) : ((s.barComplete t b).core c).arch = (s.core c).arch := by
  simp only [State.barComplete]
  split
  · exact (State.arch_releaseWait _ c _ _).trans (congrArg Core.arch (s.core_modBars c t b _))
  · rfl

theorem State.arch_barPost (t b n : Nat) : ((s.barPost t b n).core c).arch = (s.core c).arch := by
  simp only [State.barPost]
  split
  · exact congrArg Core.arch (s.core_logTile t _ _ _ c)
  · refine (State.arch_barComplete _ c t b).trans (congrArg Core.arch ((State.core_modBars _ c t b _).trans ?_))
    split
    · exact s.core_logTile t _ _ _ c
    · rfl

theorem State.arch_xferDone (t : Nat) (x : Xfer) : ((s.xferDone t x).core c).arch = (s.core c).arch := by
  have unpinned (m : SMap (Nat × Nat)) (l : List Nat) : (State.unpin { s with busy := m } l).core c = s.core c := by cases c <;> rfl
  have done (u : State) (f : VTile → VTile) (hw : ∀ v, (f v).worker.arch = v.worker.arch) (hf : ∀ v, (f v).feeder.arch = v.feeder.arch)
      (hu : u.core c = s.core c) : ((u.modTile t f).core c).arch = (s.core c).arch :=
    (u.arch_modTile t c hw hf).trans (congrArg Core.arch hu)
  simp only [State.xferDone]
  split
  · exact (State.arch_barPost _ c _ _ _).trans (done _ _ (fun v => v.worker.arch_xwaits _ _) (fun v => v.feeder.arch_xwaits _ _)
      (unpinned _ _))
  · exact done _ _ (fun v => v.worker.arch_xwaits _ _) (fun v => v.feeder.arch_xwaits _ _) (unpinned _ _)

theorem State.core_xferIssue (x : Xfer) : (s.xferIssue e x).1.core c = s.core c := s.core_setTile c

theorem State.core_gustNotice (h : Nat) : (s.gustNotice h).core c = s.core c :=
  s.core_modChip h (f := fun x => { x with pw := x.pw.notice s.time }) (fun _ => rfl) (fun _ => rfl) c

/-! #### Fetches and lines -/

theorem State.arch_fetch8 (va : W64) : ((s.fetch8 e va).1.core c).arch = (s.core c).arch := by
  unfold State.fetch8
  split
  · split
    · rfl
    · split <;> rfl
  · have same := s.translate_sameWork (s.agentOf e) va { r := false, w := false, x := true, user := true }
    simp only []
    generalize s.translate (s.agentOf e) va { r := false, w := false, x := true, user := true } = r at same ⊢
    obtain ⟨u, k⟩ := r
    have here : (u.core c).arch = (s.core c).arch := congrArg Core.arch (same.core c)
    cases k with
    | ok pa z =>
      simp only []
      split
      · exact here
      · split
        · exact here
        · exact (State.arch_modTile _ _ c).trans ((congrArg Core.arch ((u.zpTouch_sameWork z _).core c)).trans here)
    | busy => exact (u.arch_busyWait c e va).trans here
    | full => exact here
    | page => exact here
    | prot => exact here

theorem State.arch_fetchN (n : Nat) : ∀ (s : State) (va : W64), ((s.fetchN e va n).1.core c).arch = (s.core c).arch := by
  induction n with
  | zero => exact fun _ _ => rfl
  | succ n ih =>
    intro s va
    have first := s.arch_fetch8 c e va
    rw [State.fetchN]
    generalize s.fetch8 e va = r at first ⊢
    obtain ⟨u, k⟩ := r
    cases k with
    | ok b =>
      have rest := ih u (va + 8)
      simp only []
      generalize u.fetchN e (va + 8) n = r at rest ⊢
      obtain ⟨w, k⟩ := r
      cases k <;> exact rest.trans first
    | wait => exact first
    | fault code va => exact first

end

end Sys2Proof.Machine

/-! SUPPORT. Issue and the end of an instruction of a tile core, for a frame over them (03 R67; 10 R184). -/

namespace Sys2Proof.Machine

/-! ### A trap of a tile core (10 R184, R185) -/

section
variable (s : State)

theorem State.modKern_mem (n : Nat) (f : Kernel → Kernel) : (s.modKern n f).mem = s.mem := by
  unfold State.modKern; split <;> rfl

theorem State.sendItem_mem (src dst cls : Nat) (c : CoreRef) (id : Nat) (body : NetBody) :
    (s.sendItem src dst cls c id body).mem = s.mem := by
  have onward (u : State) (x : NetItem) : (u.onward x).1.mem = u.mem := by
    rcases u.onward_cases x with h | ⟨l, y, h⟩ <;> rw [h]
    rfl
  simp only [State.sendItem, State.sendAt, onward, State.setTile_mem]

theorem State.gleave_mem (c : CoreRef) (g : Nat) : (s.gleave c g).mem = s.mem := by
  unfold State.gleave
  split
  · simp
  · exact s.sendItem_mem _ _ _ _ _ _

theorem State.leaveGroups_mem (c : CoreRef) : (s.leaveGroups c).mem = s.mem :=
  foldl_keeps (fun u : State => u.mem = s.mem) _ (fun u g hu => (u.gleave_mem c g).trans hu) _ _ rfl

theorem State.endTask_mem (c : CoreRef) : (s.endTask c).mem = s.mem := by
  simp only [State.endTask, State.modCore_mem, State.leaveGroups_mem]
  split
  · exact s.modKern_mem _ _
  · rfl

theorem State.userTrap_mem (c : CoreRef) (code word : Nat) (hdr faddr : W64) : (s.userTrap c code word hdr faddr).mem = s.mem := by
  simp only [State.userTrap, State.endTask_mem]
  repeat' split
  all_goals simp [State.modKern_mem, State.logCtx_mem]

theorem State.phase_endTask (c : CoreRef) : ((s.endTask c).core c).phase = .idle := by
  simp only [State.endTask, State.core_modCore]

theorem State.phase_userTrap (c : CoreRef) (code word : Nat) (hdr faddr : W64) :
    ((s.userTrap c code word hdr faddr).core c).phase = .idle := by
  unfold State.userTrap
  exact State.phase_endTask _ c

theorem State.takeTrap_eq {c : CoreRef} (hk : kindOf c ≠ .sysm) (code : Nat) (a : W64) :
    s.takeTrap c code a = s.userTrap c code (s.core c).blk.widx (s.core c).blk.hdr a := by
  unfold State.takeTrap
  split
  · next h => exact absurd h hk
  · rfl

/-- A trap of a tile core ends its task, and changes no memory. -/
theorem State.takeTrap_tile {c : CoreRef} (hk : kindOf c ≠ .sysm) (code : Nat) (a : W64) :
    ((s.takeTrap c code a).core c).phase = .idle ∧ (s.takeTrap c code a).mem = s.mem := by
  rw [s.takeTrap_eq hk]
  exact ⟨s.phase_userTrap c _ _ _ _, s.userTrap_mem c _ _ _ _⟩

theorem State.discardMsg_mem (c : CoreRef) : (s.discardMsg c).mem = s.mem := by
  simp only [State.discardMsg]
  split
  · rfl
  · simp

end

/-! ### What an instruction leaves, from what its effect leaves (03 R67) -/

/-- The state that an effect has made. -/
def Act.state : Act → State
  | .done s => s
  | .eff s => s
  | .wait s => s
  | .pend s => s
  | .trap _ _ s => s
  | .go _ s => s
  | .stop s => s

/-- The end of an instruction of a tile core changes no memory. -/
theorem finish_mem {c : CoreRef} (hk : kindOf c ≠ .sysm) (n : Nat) (st : BitVec 3) (a : Act) : (finish c n st a).mem = a.state.mem := by
  cases a with
  | trap code f s =>
    simp only [finish]
    split
    · exact s.discardMsg_mem c
    · exact (s.takeTrap_tile hk code f).2
  | done s => exact State.modCore_mem _ _ _
  | eff s => exact State.modCore_mem _ _ _
  | wait s => exact State.modCore_mem _ _ _
  | pend s => exact State.modCore_mem _ _ _
  | go t s => exact State.modCore_mem _ _ _
  | stop s => exact State.modCore_mem _ _ _

/-- It traps, or it leaves the registers as its effect left them. -/
theorem finish_frames {s : State} {c : CoreRef} {cls : Cls} {d : BitVec 5} {p : Nat} (hk : kindOf c ≠ .sysm)
    (hm : (s.core c).sel ≠ .msg) (n : Nat) (st : BitVec 3) {a : Act} (h : s.Frames a.state c cls d p) :
    ((finish c n st a).core c).phase = .idle ∨ s.Frames (finish c n st a) c cls d p := by
  have msg : (a.state.core c).sel ≠ .msg := by rw [Core.Frames.sel h]; exact hm
  have changed {u : State} {f : Core → Core} (hu : s.Frames u c cls d p) (hf : (f (u.core c)).arch = (u.core c).arch) :
      s.Frames (u.modCore c f) c cls d p := hu.before (by rw [State.core_modCore, hf])
  cases a with
  | trap code f u =>
    have msg : (u.core c).sel ≠ .msg := msg
    exact .inl (by rw [finish, if_neg msg]; exact (u.takeTrap_tile hk code f).1)
  | done u => exact .inr (changed h (Core.arch_advance _ n st msg))
  | eff u =>
    have msg : (u.core c).sel ≠ .msg := msg
    have recorded : ((u.core c).record (u.core c).blk.widx).sel ≠ .msg := by rw [Core.record, if_neg msg]; exact msg
    exact .inr (changed h ((Core.arch_advance _ n st recorded).trans (Core.arch_record _ _ msg)))
  | wait u => exact .inr (changed h rfl)
  | pend u => exact .inr (changed h rfl)
  | go t u => exact .inr (changed h rfl)
  | stop u => exact .inr (changed h rfl)

/-- A tile core that runs a block, which is not being replayed, and no stitch message. -/
structure State.OnBlock (s : State) : Prop where
  there : coreExists s.cur = true
  tile : kindOf s.cur ≠ .sysm
  block : (s.core s.cur).sel ≠ .msg
  fresh : (s.core s.cur).replayTo ≤ (s.core s.cur).blk.widx

section
variable {i : Ins} {supp body : CoreRef → State → Act} {s t : State} (h : s.OnBlock)
include h

/-- Issue holds the core, traps, or has the effect of the body or of suppression. -/
theorem issueAct_cases : issueAct i supp body s.cur s = .pend s ∨ (∃ code, issueAct i supp body s.cur s = .trap code 0 s) ∨
    issueAct i supp body s.cur s = body s.cur s ∨ issueAct i supp body s.cur s = supp s.cur s := by
  obtain ⟨-, -, block, fresh⟩ := h
  have recorded : (s.core s.cur).recorded = none := by simp only [Core.recorded, if_neg block, if_neg (Nat.not_lt.mpr fresh)]
  simp only [issueAct, recorded]
  split
  · exact .inl rfl
  · split
    · exact .inr (.inl ⟨_, rfl⟩)
    · split
      · exact .inr (.inl ⟨_, rfl⟩)
      · split
        · exact .inl rfl
        · split
          · exact .inr (.inl ⟨_, rfl⟩)
          · split
            · exact .inr (.inr (.inl rfl))
            · exact .inr (.inr (.inr rfl))

/-- What holds of the state as it is, after the body and after suppression, holds of the state that the instruction's effect has made. -/
theorem issueAct_state {P : State → Prop} (h0 : P s) (hb : P (body s.cur s).state) (hs : P (supp s.cur s).state) :
    P (issueAct i supp body s.cur s).state := by
  rcases issueAct_cases (i := i) (supp := supp) (body := body) h with e | ⟨code, e⟩ | e | e <;> rw [e]
  · exact h0
  · exact h0
  · exact hb
  · exact hs

variable (he : issue i supp body s = .next t)
include he

theorem issue_cases : t = s ∨ t = finish s.cur i.n i.st (issueAct i supp body s.cur s) := by
  rw [issue, h.there] at he
  simp only [Bool.not_true, Bool.false_eq_true, if_false] at he
  split at he
  · exact .inl (Host.Outcome.next.inj he).symm
  · exact .inr (Host.Outcome.next.inj he).symm

/-- The frame of an instruction, from the frames of its effect and of its suppression. -/
theorem issue_frames {cls : Cls} {d : BitVec 5} {p : Nat} (hb : s.Frames (body s.cur s).state s.cur cls d p)
    (hs : s.Frames (supp s.cur s).state s.cur cls d p) :
    (t.core s.cur).phase = .idle ∨ s.Frames t s.cur cls d p := by
  rcases issue_cases h he with rfl | rfl
  · exact .inr (.of_arch rfl)
  · exact finish_frames h.tile h.block _ _
      (issueAct_state (P := fun u => s.Frames u s.cur cls d p) h (.of_arch rfl) hb hs)

/-- And the memory that it leaves. -/
theorem issue_memory {P : Mem → Prop} (h0 : P s.mem) (hb : P (body s.cur s).state.mem) (hs : P (supp s.cur s).state.mem) : P t.mem := by
  rcases issue_cases h he with rfl | rfl
  · exact h0
  · rw [finish_mem h.tile]; exact issueAct_state (P := fun u => P u.mem) h h0 hb hs

/-- An instruction that delivers nothing and leaves the registers alone. -/
theorem issue_quiet (hb : ((body s.cur s).state.core s.cur).arch = (s.core s.cur).arch) (hs : supp = suppNone) :
    (t.core s.cur).phase = .idle ∨ s.Frames t s.cur .s 31 8 := by
  subst hs
  exact issue_frames h he (State.Frames.of_arch hb) (State.Frames.of_arch rfl)

end

/-- A result that enters those in flight. -/
theorem State.launch_frames (s : State) (c : CoreRef) (cls : Cls) (d : BitVec 5) (g : Flight) (p : Nat) :
    s.Frames (s.modCore c (·.launch cls d g)) c cls d p := by
  rw [State.Frames, State.core_modCore]
  exact Core.frames_launch _ _ _ _ _

/-- Suppression of an operation of variable latency. -/
theorem suppVar_frames (cls : Cls) (d : BitVec 5) (c : CoreRef) (s : State) (p : Nat) : s.Frames (suppVar cls d c s).state c cls d p :=
  s.launch_frames c cls d _ p

theorem suppVar_mem (cls : Cls) (d : BitVec 5) (c : CoreRef) (s : State) : (suppVar cls d c s).state.mem = s.mem := by
  rw [suppVar, Act.state, State.modCore_mem]

end Sys2Proof.Machine

/-! SUPPORT. Accesses to global memory (21 R347, R357; 06 R125): the registers and the memory they leave. -/

namespace Sys2Proof.Machine

/-! ### Memory after a translation (06 R125) -/

/-- A write of one byte changes no other. -/
theorem State.homeWrite_out (s : State) (n a : Nat) (b : Byte) {e : Nat} (h : e ≠ a) :
    memRead (s.homeWrite n false [(a, b)]).mem e = memRead s.mem e := by
  have recorded : ((s.undoNeeds n (linesOf [a])).foldl (fun u l => u.undoLine n l) s).mem = s.mem :=
    foldl_keeps (fun u : State => u.mem = s.mem) _ (fun u l hu => (u.undoLine_mem n l).trans hu) _ _ rfl
  have e' : s.homeWrite n false [(a, b)] = ((s.undoNeeds n (linesOf [a])).foldl (fun u l => u.undoLine n l) s).put n [(a, b)] := rfl
  rw [e', ← recorded]
  generalize (s.undoNeeds n (linesOf [a])).foldl (fun u l => u.undoLine n l) s = u
  simp only [State.put]
  split
  · split
    · rw [State.logCtx_mem]
    · rfl
  · split
    · rfl
    · split
      · rfl
      · exact memRead_write_ne _ _ h

theorem State.zpEnter_mem {s t : State} {f l n : Nat} (h : s.zpEnter f l n = some t) : t.mem = s.mem := by
  unfold State.zpEnter at h
  split at h
  · cases h; rfl
  · split at h
    · cases h; rfl
    · split at h
      · split at h
        · cases h; rfl
        · cases h; rfl
      · split at h
        · cases h
        · cases h; rfl

/-- A translation changes no byte but one of the leaf that its walk finds. -/
theorem State.translate_mem (s : State) (g : Agent) (va : W64) (n : Need) (e : Nat) :
    memRead (s.translate g va n).1.mem e = memRead s.mem e ∨
      ∃ lv v, s.walk va.toNat 3 (s.ctx g.ctx).root = .leaf lv e v := by
  unfold State.translate
  simp only []
  split
  · exact .inl rfl
  · split
    · split
      · next h =>
        left
        split at h
        · rw [State.zpEnter_mem h]
        · cases h; rfl
      · exact .inl rfl
    · split
      · exact .inl rfl
      · exact .inl rfl
      · next lv a v hw =>
        by_cases ha : e = a
        · exact .inr ⟨lv, v, ha ▸ hw⟩
        · left
          generalize (v % 256 ||| 64 ||| if n.w = true then 128 else 0) = want
          have marked : memRead (if want = v % 256 then s else s.homeWrite g.ctx false [(a, BitVec.ofNat 8 want)]).mem e =
              memRead s.mem e := by
            split
            · rfl
            · exact s.homeWrite_out _ _ _ ha
          generalize (if want = v % 256 then s else s.homeWrite g.ctx false [(a, BitVec.ofNat 8 want)]) = u at marked ⊢
          split
          · rfl
          · split
            · rfl
            · split
              · next t ht =>
                split at ht
                · rw [State.zpEnter_mem ht, State.tlbFill_mem, marked]
                · cases ht; rw [State.tlbFill_mem, marked]
              · rfl

/-- And so does the check of one address. -/
theorem State.gcheck_mem (s : State) (g : Agent) (nd : Need) (n al : Nat) (va : W64) (e : Nat) :
    memRead (s.gcheck g nd n al va).1.mem e = memRead s.mem e ∨
      ∃ lv v, s.walk va.toNat 3 (s.ctx g.ctx).root = .leaf lv e v := by
  unfold State.gcheck
  have h := s.translate_mem g va nd e
  split
  · exact .inl rfl
  · split
    · exact .inl rfl
    · revert h
      rcases s.translate g va nd with ⟨t, _ | _ | _ | _ | _⟩ <;> exact id

/-- The checks of a single address are those of the list of it. -/
theorem State.gchecks_one (s : State) (g : Agent) (nd : Need) (n al : Nat) (va : W64) :
    (s.gchecks g nd n al [va]).1 = (s.gcheck g nd n al va).1 := by
  simp only [State.gchecks]
  rcases s.gcheck g nd n al va with ⟨t, _ | _ | _ | _⟩ <;> rfl

/-! ### Results in flight -/

/-- The class of a result. -/
def RVal.cls : RVal → Cls
  | .s _ => .s
  | .v _ => .v
  | .y _ => .y

theorem Shape.cls_zero (sh : Shape) : sh.zero.cls = sh.cls := by cases sh <;> rfl

theorem Shape.cls_make (sh : Shape) (l : List (Byte × Bool)) : (sh.make l).cls = sh.cls := by cases sh <;> rfl

theorem cls_bytesKnown {sh : Shape} {l : List LByte} {v : RVal} (h : bytesKnown sh l = some v) : v.cls = sh.cls := by
  unfold bytesKnown at h
  split at h
  · cases h; exact sh.cls_make _
  · cases h

section
variable (s : State) (c : CoreRef) (d : BitVec 5) (p : Nat)

theorem State.known_frames (v : RVal) (acq : Option Nat) : s.Frames (s.known c d v acq) c v.cls d p := by
  cases v <;> exact s.launch_frames c _ d _ p

theorem State.await_frames (sh : Shape) (k : FKind) (acq : Option Nat) : s.Frames (s.await c d sh k acq) c sh.cls d p :=
  s.launch_frames c _ d _ p

theorem State.hold_frames (sh : Shape) (op : HeldOp) (rel acq : Option Nat) : s.Frames (s.hold c d sh op rel acq) c sh.cls d p :=
  (State.await_frames _ c d p sh _ acq).after (s.arch_order c _ _)

theorem State.known_mem (v : RVal) (acq : Option Nat) : (s.known c d v acq).mem = s.mem := State.modCore_mem _ _ _

theorem State.await_mem (sh : Shape) (k : FKind) (acq : Option Nat) : (s.await c d sh k acq).mem = s.mem := State.modCore_mem _ _ _

theorem State.hold_mem (sh : Shape) (op : HeldOp) (rel acq : Option Nat) : (s.hold c d sh op rel acq).mem = s.mem :=
  (State.await_mem _ c d sh _ acq).trans rfl

theorem State.ldaWatch_mem (q : LoadReq) (va : W64) (pas : List Nat) (v : Option RVal) : (s.ldaWatch c q va pas v).mem = s.mem := by
  unfold State.ldaWatch
  split
  · exact State.modCore_mem _ _ _
  · rfl

theorem State.markVa_mem (l : List W64) : (s.markVa c l).mem = s.mem := State.modCore_mem _ _ _

theorem State.markBusy_mem : (s.markBusy c).mem = s.mem := State.modCore_mem _ _ _

theorem State.busyWait_mem (va : W64) : (s.busyWait c va).mem = s.mem := State.modCore_mem _ _ _

theorem State.breakW_mem (pas vas : List Nat) : (s.breakW c pas vas).mem = s.mem := by
  unfold State.breakW
  split
  · exact State.modCore_mem _ _ _
  · rfl

theorem State.storeIssue_mem (pas : List Nat) (va : W64) (n : Nat) (kick : List Nat) : (s.storeIssue c pas va n kick).mem = s.mem := by
  simp only [State.storeIssue]
  split
  · exact s.breakW_mem c _ _
  · rw [State.modCore_mem, State.breakW_mem]

theorem State.bufStore_mem (va : W64) (n : Nat) (bytes : List (Nat × Byte)) (u : Nat) (z : Bool) (kick : List Nat)
    (w : Option Nat) : (s.bufStore c va n bytes u z kick w).mem = s.mem := by
  simp only [State.bufStore, State.sbufPut, State.modTile_mem, State.storeIssue_mem]

/-! ### Loads of global memory (21 R347) -/

theorem State.loadGo_frames (q : LoadReq) (vas : List W64) (pas : List Nat) (z : Bool) :
    s.Frames (s.loadGo c q vas pas z) c q.sh.cls q.d p := by
  simp only [State.loadGo]
  split
  · next v hv =>
    have cls : v.cls = q.sh.cls := by
      split at hv
      · exact cls_bytesKnown hv
      · cases hv
    rw [← cls]
    exact (State.known_frames _ c q.d p v q.acq).after (s.arch_ldaWatch c c _ _ _ _)
  · exact ((State.await_frames _ c q.d p q.sh _ q.acq).after (s.arch_ldaWatch c c _ _ _ _)).before
      ((State.arch_markVa _ c c _).trans (State.arch_markLda _ c c _))

theorem State.loadGo_mem (q : LoadReq) (vas : List W64) (pas : List Nat) (z : Bool) : (s.loadGo c q vas pas z).mem = s.mem := by
  simp only [State.loadGo]
  split
  · rw [State.known_mem, State.ldaWatch_mem]
  · rw [State.markVa_mem, State.modCore_mem, State.await_mem, State.ldaWatch_mem]

variable {c} (hk : kindOf c ≠ .sysm)
include hk

/-- A load of a tile core leaves every register but its destination, and the memory that its checks have left. -/
theorem State.loadGlobal_frames (q : LoadReq) (vas : List W64) :
    s.Frames (s.loadGlobal c q vas).state c q.sh.cls q.d p ∧
      (s.loadGlobal c q vas).state.mem = (s.gchecks (s.agentOf c) (s.needOf c true false) q.n q.align vas).1.mem := by
  have same := State.gchecks_sameWork (s.agentOf c) (s.needOf c true false) q.n q.align vas s
  cases hkd : kindOf c with
  | sysm => exact absurd hkd hk
  | _ =>
    simp only [State.loadGlobal, hkd]
    generalize s.gchecks (s.agentOf c) (s.needOf c true false) q.n q.align vas = r at same ⊢
    obtain ⟨t, k⟩ := r
    have here : (t.core c).arch = (s.core c).arch := congrArg Core.arch (same.core c)
    have waits (u : State) (hu : (u.core c).arch = ((t.await c q.d q.sh (.busy vas none) q.acq).core c).arch) :
        s.Frames u c q.sh.cls q.d p := ((t.await_frames c q.d p q.sh _ q.acq).after here).before hu
    cases k with
    | bad code va =>
      simp only []
      split
      · exact ⟨(q.sh.cls_zero ▸ t.known_frames c q.d p _ none).after here, t.known_mem c _ _ _⟩
      · exact ⟨.of_arch here, rfl⟩
    | hold => exact ⟨waits _ (State.arch_markLda _ c c _), by simp only [Act.state, State.modCore_mem, State.await_mem]⟩
    | busy =>
      exact ⟨waits _ ((State.arch_markBusy _ c c).trans (State.arch_markLda _ c c _)),
        by simp only [Act.state, State.markBusy_mem, State.modCore_mem, State.await_mem]⟩
    | ok pas z =>
      simp only []
      split
      · exact ⟨(((State.hold_frames _ c q.d p q.sh _ none q.acq).after (t.arch_ldaWatch c c _ _ _ _)).after here).before
          ((State.arch_markVa _ c c _).trans (State.arch_markLda _ c c _)),
          by simp only [Act.state, State.markVa_mem, State.modCore_mem, State.hold_mem, State.ldaWatch_mem]⟩
      · exact ⟨(t.loadGo_frames c p q vas pas z).after here, t.loadGo_mem c q vas pas z⟩

/-- A load of one address changes no byte but one of the leaf that its walk finds. -/
theorem State.loadGlobal_one (q : LoadReq) (va : W64) (e : Nat) :
    memRead (s.loadGlobal c q [va]).state.mem e = memRead s.mem e ∨
      ∃ lv v, s.walk va.toNat 3 (s.ctx ((s.ctxOfCore c).getD 256)).root = .leaf lv e v := by
  rw [(s.loadGlobal_frames 8 hk q [va]).2, s.gchecks_one]
  exact s.gcheck_mem _ _ _ _ va e

/-- CHKA (21 R354). -/
theorem chkaBody_frames (b : BitVec 6) (q : LoadReq) (hq : q.d = d) (hs : q.sh.cls = .s) :
    s.Frames (chkaBody b d q c s).state c .s d p ∧
      ∀ e, memRead (chkaBody b d q c s).state.mem e = memRead s.mem e ∨
        ∃ lv v, s.walk (s.rdS c b).v.toNat 3 (s.ctx ((s.ctxOfCore c).getD 256)).root = .leaf lv e v := by
  simp only [chkaBody]
  split
  · have unwatched (f : Core → Core) (hf : ∀ x, (f x).arch = x.arch) : ((s.modCore c f).core c).arch = (s.core c).arch :=
      s.arch_modCore c c hf
    split
    · next v _ =>
      exact ⟨(State.known_frames _ c d p (.s v) none).after (s.arch_modCore c c), fun e => .inl (by
        simp only [Act.state, State.known_mem, State.modCore_mem])⟩
    · exact ⟨hs ▸ (State.await_frames _ c d p q.sh _ none).after (s.arch_modCore c c), fun e => .inl (by
        simp only [Act.state, State.await_mem, State.modCore_mem])⟩
  · have load := (s.loadGlobal_frames p hk q [(s.rdS c b).v]).1
    rw [hs, hq] at load
    exact ⟨load, s.loadGlobal_one hk q _⟩

/-! ### Stores of global memory (21 R347) -/

/-- A store of a tile core leaves every register, and the memory that its check has left. -/
theorem State.storeGlobal_quiet (va : W64) (n al u : Nat) (data : List (Nat × Byte)) (rel : Option Nat) :
    ((s.storeGlobal c va n al u data rel).state.core c).arch = (s.core c).arch ∧
      (s.storeGlobal c va n al u data rel).state.mem = (s.gcheck (s.agentOf c) (s.needOf c false true) n al va).1.mem := by
  have same := s.gcheck_sameWork (s.agentOf c) (s.needOf c false true) n al va
  cases hkd : kindOf c with
  | sysm => exact absurd hkd hk
  | _ =>
    simp only [State.storeGlobal, hkd]
    generalize s.gcheck (s.agentOf c) (s.needOf c false true) n al va = r at same ⊢
    obtain ⟨t, k⟩ := r
    have here : (t.core c).arch = (s.core c).arch := congrArg Core.arch (same.core c)
    cases k with
    | bad code va => exact ⟨here, rfl⟩
    | hold => exact ⟨here, rfl⟩
    | busy => exact ⟨(t.arch_busyWait c c va).trans here, t.busyWait_mem c va⟩
    | ok pas z =>
      simp only []
      split
      · exact ⟨here, rfl⟩
      · split
        · exact ⟨(State.arch_markVa _ c c _).trans ((State.arch_hold_none _ c c _ _ _ _ _).trans
            ((t.arch_storeIssue c c _ _ _ _).trans here)), by simp only [Act.state, State.markVa_mem, State.hold_mem, State.storeIssue_mem]⟩
        · exact ⟨(t.arch_bufStore c c _ _ _ _ _ _ _).trans here, t.bufStore_mem c va n _ u z _ none⟩

/-- A store changes no byte of memory at its issue but one of the leaf that its walk finds. -/
theorem State.storeGlobal_mem (va : W64) (n al u : Nat) (data : List (Nat × Byte)) (rel : Option Nat) (e : Nat) :
    memRead (s.storeGlobal c va n al u data rel).state.mem e = memRead s.mem e ∨
      ∃ lv v, s.walk va.toNat 3 (s.ctx ((s.ctxOfCore c).getD 256)).root = .leaf lv e v := by
  rw [(s.storeGlobal_quiet hk va n al u data rel).2]
  exact s.gcheck_mem _ _ _ _ va e

/-! ### Atomics (21 R357) -/

theorem globalAtomic_frames (a : BitVec 6) (op n : Nat) (o : BitVec 2) (w : BitVec 3) (x y : CoreRef → State → W64) :
    s.Frames (globalAtomic a d op n w o x y c s).state c .s d p ∧
      ∀ e, memRead (globalAtomic a d op n w o x y c s).state.mem e = memRead s.mem e ∨
        ∃ lv v, s.walk (s.rdS c a).v.toNat 3 (s.ctx ((s.ctxOfCore c).getD 256)).root = .leaf lv e v := by
  have same := s.gcheck_sameWork (s.agentOf c) (s.needOf c true true) n n (s.rdS c a).v
  have checked := s.gcheck_mem (s.agentOf c) (s.needOf c true true) n n (s.rdS c a).v
  cases hkd : kindOf c with
  | sysm => exact absurd hkd hk
  | _ =>
    simp only [globalAtomic, hkd]
    generalize s.gcheck (s.agentOf c) (s.needOf c true true) n n (s.rdS c a).v = r at same checked ⊢
    obtain ⟨t, k⟩ := r
    have here : (t.core c).arch = (s.core c).arch := congrArg Core.arch (same.core c)
    have memory {u : State} (hu : u.mem = t.mem) (e : Nat) : memRead u.mem e = memRead s.mem e ∨
        ∃ lv v, s.walk (s.rdS c a).v.toNat 3 (s.ctx ((s.ctxOfCore c).getD 256)).root = .leaf lv e v := by
      rw [hu]; exact checked e
    have tagged (pas vas : List Nat) : (((t.modCore c Core.nextSeq).breakW c pas vas).core c).arch = (s.core c).arch :=
      (State.arch_breakW _ c c _ _).trans ((t.arch_nextSeq c c).trans here)
    have tagged_mem (pas vas : List Nat) : ((t.modCore c Core.nextSeq).breakW c pas vas).mem = t.mem := by
      rw [State.breakW_mem, State.modCore_mem]
    have waits (b : AtomReq) (pas vas : List Nat) (acq : Option Nat) : s.Frames
        (((t.modCore c Core.nextSeq).breakW c pas vas).await c d (.scalar n false) (.busy [(s.rdS c a).v] (some b)) acq) c .s d p :=
      (State.await_frames _ c d p (.scalar n false) _ acq).after (tagged _ _)
    cases k with
    | bad code va => exact ⟨.of_arch here, memory rfl⟩
    | hold =>
      simp only []
      split
      · exact ⟨.of_arch here, memory rfl⟩
      · split
        · exact ⟨.of_arch here, memory rfl⟩
        · exact ⟨waits _ _ _ _, memory (by simp only [Act.state, State.await_mem, tagged_mem])⟩
    | busy =>
      simp only []
      split
      · exact ⟨.of_arch here, memory rfl⟩
      · split
        · exact ⟨.of_arch here, memory rfl⟩
        · exact ⟨(waits _ _ _ _).before (State.arch_markBusy _ c c),
            memory (by simp only [Act.state, State.markBusy_mem, State.await_mem, tagged_mem])⟩
    | ok pas z =>
      simp only []
      split
      · exact ⟨.of_arch here, memory rfl⟩
      · split
        · exact ⟨.of_arch here, memory rfl⟩
        · simp only [Act.state]
          split
          · exact ⟨((State.hold_frames _ c d p (.scalar n false) _ _ _).after (tagged _ _)).before (State.arch_markVa _ c c _),
              memory (by simp only [State.markVa_mem, State.hold_mem, tagged_mem])⟩
          · exact ⟨((State.await_frames _ c d p (.scalar n false) _ _).after (tagged _ _)).before (State.arch_markVa _ c c _),
              memory (by simp only [State.markVa_mem, State.await_mem, tagged_mem])⟩

end

end Sys2Proof.Machine

/-! SUPPORT. Accesses through a pointer (21 R348-R351, R358): the registers they leave. -/

namespace Sys2Proof.Machine

/-! ### Accesses through a pointer (21 R348-R351) -/

section
variable (s : State) (c : CoreRef) (cls : Cls) (d : BitVec 5) (p : Nat)

/-- A post-increment moves its pointer alone (02 R31). -/
theorem State.postinc_frames (b : BitVec 6) (q : BitVec 2) (n : Nat) : s.Frames (s.postinc c b q n) c cls d (b.toNat - 32) := by
  have moved (v : SVal) : s.Frames (s.modCore c (·.setP b.toNat v)) c cls d (b.toNat - 32) := by
    rw [State.Frames, State.core_modCore]
    exact Core.frames_setP _ _ _ _ _
  simp only [State.postinc]
  split
  · exact moved _
  · exact moved _
  · exact .of_arch rfl

/-- The frame of an effect that a condition selects. -/
theorem State.Frames.ite {s : State} {c : CoreRef} {cls : Cls} {d : BitVec 5} {p : Nat} {P : Prop} [Decidable P] {a b : Act}
    (ha : s.Frames a.state c cls d p) (hb : s.Frames b.state c cls d p) : s.Frames (if P then a else b).state c cls d p := by
  split
  · exact ha
  · exact hb

theorem State.loadPtr_frames (ptr : W64) (n fe : Nat) (sh : Shape) (acq : Option Nat) :
    s.Frames (s.loadPtr c ptr n fe sh d acq) c sh.cls d p := by
  have waits (k : FKind) : s.Frames (s.await c d sh k acq) c sh.cls d p := s.await_frames c d p sh k acq
  have made (l : List (Byte × Bool)) (t : State) (h : (t.core c).arch = (s.core c).arch) :
      s.Frames (t.known c d (sh.make l) acq) c sh.cls d p :=
    (sh.cls_make l ▸ t.known_frames c d p (sh.make l) acq).after h
  simp only [State.loadPtr]
  split
  · exact (waits _).before (congrArg Core.arch (State.core_sendItem _ c c _ _ _ _ _))
  · split
    · exact sh.cls_zero ▸ s.known_frames c d p sh.zero acq
    · split
      · split
        · exact made _ _ (s.arch_consume c _ _ _ _ _)
        · exact (waits _).before (State.arch_putWait _ c _ _)
      · split
        · exact waits _
        · exact made _ _ rfl

/-- LDL and its consuming forms (21 R348). -/
theorem ptrLoad_frames (b : BitVec 6) (q : BitVec 2) (n fe : Nat) (sh : Shape) (acq : Option Nat) :
    s.Frames (ptrLoad b q n fe sh d acq c s).state c sh.cls d (b.toNat - 32) := by
  have moved := s.postinc_frames c sh.cls d b q n
  simp only [ptrLoad]
  generalize s.pcheck c (s.rdS c b).v n n _ = check
  cases check with
  | some code => exact .of_arch rfl
  | none =>
    exact .ite (.of_arch rfl) (.ite (.ite (.of_arch rfl) (moved.trans (State.hold_frames _ c d _ sh _ none acq)))
      (moved.trans (State.loadPtr_frames _ c d _ _ n fe sh acq)))

/-- A store through a pointer leaves every register. -/
theorem State.storePtr_quiet (ptr : W64) (n u : Nat) (bytes : List (Nat × Byte)) (fe : Bool) :
    ((s.storePtr c ptr n u bytes fe).state.core c).arch = (s.core c).arch := by
  simp only [State.storePtr]
  split
  · exact congrArg Core.arch (s.core_sendItem c c _ _ _ _ _)
  · split
    · rfl
    · next h _ =>
      split
      · rfl
      · split
        · have same := s.gcheck_sameWork (s.agentOf c) (s.needOf c false true) n 1 (h.base + BitVec.ofNat 64 (pOFF ptr))
          generalize s.gcheck (s.agentOf c) (s.needOf c false true) n 1 (h.base + BitVec.ofNat 64 (pOFF ptr)) = r at same ⊢
          have here : (r.1.core c).arch = (s.core c).arch := congrArg Core.arch (same.core c)
          split
          · exact here
          · split
            · exact here
            · exact (State.arch_bufStore _ c c _ _ _ _ _ _ _).trans ((State.arch_modHandle _ c _ _ _).trans here)
        · exact s.arch_modHandle c _ _ _

/-- And so does one that is held. -/
theorem State.holdPtr_quiet (ptr : W64) (n u : Nat) (bytes : List (Nat × Byte)) (fe : Bool) (rel : Option Nat) :
    ((s.holdPtr c ptr n u bytes fe rel).state.core c).arch = (s.core c).arch := by
  simp only [State.holdPtr]
  split
  · exact s.arch_hold_none c c _ _ _ _ _
  · split
    · rfl
    · next h _ =>
      split
      · rfl
      · split
        · have same := s.gcheck_sameWork (s.agentOf c) (s.needOf c false true) n 1 (h.base + BitVec.ofNat 64 (pOFF ptr))
          generalize s.gcheck (s.agentOf c) (s.needOf c false true) n 1 (h.base + BitVec.ofNat 64 (pOFF ptr)) = r at same ⊢
          have here : (r.1.core c).arch = (s.core c).arch := congrArg Core.arch (same.core c)
          split
          · exact here
          · split
            · exact here
            · exact (State.arch_hold_none _ c c _ _ _ _ _).trans ((State.arch_storeIssue _ c c _ _ _ _).trans here)
        · exact s.arch_hold_none c c _ _ _ _ _

/-- STL: the post-increment is its only change of a register. -/
theorem ptrStore_frames (b : BitVec 6) (q : BitVec 2) (n u : Nat) (fe : Bool) (rel : Option Nat)
    (data : CoreRef → State → Option (List (Nat × Byte))) :
    s.Frames (ptrStore b q n u fe rel data c s).state c .s 31 (b.toNat - 32) := by
  have moved {t : State} (h : (t.core c).arch = (s.core c).arch) : s.Frames (t.postinc c b q n) c .s 31 (b.toNat - 32) :=
    (t.postinc_frames c .s 31 b q n).after h
  simp only [ptrStore]
  refine .ite (.of_arch rfl) ?_
  cases data c s with
  | none => exact moved rfl
  | some bytes =>
    simp only []
    generalize s.pcheck c (s.rdS c b).v n n _ = check
    cases check with
    | some code => exact .of_arch rfl
    | none =>
      simp only []
      refine .ite (.of_arch rfl) ?_
      generalize (s.storeHeld c rel || _) = held
      refine .ite (.of_arch rfl) ?_
      have quiet : ((if held = true then s.holdPtr c (s.rdS c b).v n u bytes fe rel
          else s.storePtr c (s.rdS c b).v n u bytes (fe || (s.core c).sel == .msg)).state.core c).arch = (s.core c).arch := by
        split
        · exact s.holdPtr_quiet c _ _ _ _ _ _
        · exact s.storePtr_quiet c _ _ _ _ _
      generalize (if held = true then s.holdPtr c (s.rdS c b).v n u bytes fe rel else _) = act at quiet ⊢
      cases act with
      | eff t => exact moved quiet
      | done t => exact moved quiet
      | wait t => exact .of_arch quiet
      | pend t => exact .of_arch quiet
      | trap code f t => exact .of_arch quiet
      | go k t => exact .of_arch quiet
      | stop t => exact .of_arch quiet

/-- AMOL (21 R358). -/
theorem localAtomic_frames (a : BitVec 6) (op n : Nat) (o : BitVec 2) (w : BitVec 3) (x y : CoreRef → State → W64) :
    s.Frames (localAtomic a d op n w o x y c s).state c .s d p := by
  simp only [localAtomic, holdAct]
  generalize s.pcheck c (s.rdS c a).v n n .amol = check
  cases check with
  | some code => exact .of_arch rfl
  | none =>
    exact .ite (.of_arch rfl) (.ite (.ite (.of_arch rfl) (s.hold_frames c d p (.scalar n false) _ _ _)) (.ite
      ((s.await_frames c d p (.scalar n false) _ _).before (congrArg Core.arch (State.core_sendItem _ c c _ _ _ _ _)))
      ((State.known_frames _ c d p (.s _) _).after (s.arch_bankAtomic c _ _ _ _))))

end

end Sys2Proof.Machine

/-! SUPPORT. Commands, messages and fences (21 R355-R378; 07 R141): effects that leave every register. -/

namespace Sys2Proof.Machine

/-! ### Commands, messages and fences: effects that leave every register -/

/-- The registers of a core are after an effect what they were in s. -/
def Act.Quiet (a : Act) (s : State) (c : CoreRef) : Prop := (a.state.core c).arch = (s.core c).arch

section
variable {s t u : State} {c : CoreRef} {a b : Act}

theorem Act.Quiet.of_core (h : a.state.core c = s.core c) : a.Quiet s c := congrArg Core.arch h

theorem Act.Quiet.trans (ha : a.Quiet t c) (h : (t.core c).arch = (s.core c).arch) : a.Quiet s c := Eq.trans ha h

/-- The effect that a condition selects. -/
theorem Act.Quiet.ite {P : Prop} [Decidable P] (ha : a.Quiet s c) (hb : b.Quiet s c) : (if P then a else b).Quiet s c := by
  split
  · exact ha
  · exact hb

/-- The check of an address changes no core. -/
theorem State.arch_gcheck {g : Agent} {nd : Need} {n al : Nat} {va : W64} {k : GChk} (h : s.gcheck g nd n al va = (t, k)) :
    (t.core c).arch = (s.core c).arch := by
  have same := s.gcheck_sameWork g nd n al va
  rw [h] at same
  exact congrArg Core.arch (same.core c)

end

section
variable (s : State) (c : CoreRef)

theorem State.arch_l1Fill (t line : Nat) : ((s.l1Fill t line).core c).arch = (s.core c).arch := s.arch_modTile t c

theorem State.arch_began (k : Option Nat) : ((s.modCore c (fun x => { x with began := k })).core c).arch = (s.core c).arch :=
  s.arch_modCore c c

theorem State.arch_nextId : ((s.modCore c (fun x => { x with nextId := x.nextId + 1 })).core c).arch = (s.core c).arch :=
  s.arch_modCore c c

theorem State.core_gatePut (chip n pa : Nat) (v : W64) (k : Option Nat) : (s.gatePut chip n pa v k).core c = s.core c :=
  s.core_modChip chip (f := fun h => { h with gate := h.gate ++ [⟨n, (s.ctx n).epoch, pa, v, k⟩] }) (fun _ => rfl) (fun _ => rfl) c

/-! #### FENCE and PREF (07 R141, 21 R355) -/

theorem fenceBody_quiet (p : BitVec 3) (k : BitVec 2) : (fenceBody p k c s).Quiet s c := by
  have counted : (({ s with fences := s.fences + 1 } : State).core c).arch = (s.core c).arch := by cases c <;> rfl
  have ordered : ((if k = 3 then { s with fences := s.fences + 1 } else s : State).core c).arch = (s.core c).arch := by
    split
    · exact counted
    · rfl
  simp only [fenceBody]
  refine .ite (.ite rfl rfl) (.ite rfl ?_)
  generalize (if k = 3 then { s with fences := s.fences + 1 } else s : State) = t at ordered ⊢
  unfold Act.Quiet Act.state
  simp only []
  split
  · exact (t.arch_acquire c c _).trans ordered
  · exact ordered

theorem prefBody_quiet (hk : kindOf c ≠ .sysm) (a : BitVec 6) : (prefBody a c s).Quiet s c := by
  cases hkd : kindOf c with
  | sysm => exact absurd hkd hk
  | _ =>
    simp only [prefBody, hkd]
    rcases hr : s.gcheck (s.agentOf c) ⟨false, false, false, !(s.core c).sysMode⟩ 1 1 (s.rdS c a).v with ⟨t, k⟩
    have here : (t.core c).arch = (s.core c).arch := State.arch_gcheck hr
    cases k with
    | bad code va => exact here
    | hold => exact here
    | busy => exact here
    | ok pas z =>
      simp only []
      cases mfind (t.tile (tileOf c)).l1 (pas.headD 0 / 64) with
      | some _ => exact here
      | none =>
        exact .ite here ((State.arch_l1Fill _ c _ _).trans
          ((congrArg Core.arch ((t.zpTouch_sameWork z [pas.headD 0]).core c)).trans here))

/-! #### Handles, barriers and groups (21 R361; 11 R195; 12 R203) -/

theorem hfreeBody_quiet (a : BitVec 6) : (hfreeBody a c s).Quiet s c := by
  simp only [hfreeBody]
  cases (s.core c).began with
  | some k => exact .ite rfl rfl
  | none =>
    simp only []
    cases s.handleIn (tileOf c) ((s.rdS c a).v.toNat % 256) with
    | none => rfl
    | some _ => exact (State.arch_began _ c _).trans (s.arch_modHandle c _ _ _)

theorem bexpBody_quiet (a b : BitVec 6) : (bexpBody a b c s).Quiet s c := by
  simp only [bexpBody]
  exact .ite rfl (.ite (.of_core (s.core_logTile _ _ _ _ c))
    ((State.arch_barComplete _ c _ _).trans (congrArg Core.arch (s.core_modBars c _ _ _))))

theorem gleaveBody_quiet (a : BitVec 6) : (gleaveBody a c s).Quiet s c := .ite (s.arch_gleave c c _) rfl

theorem groupHold_quiet (kind g : Nat) (arg : W64) : (Act.eff (s.groupHold c 31 kind g arg none none)).Quiet s c :=
  s.arch_hold_none c c 8 false _ none none

theorem groupSend_quiet (kind g : Nat) (arg : W64) : (Act.eff (s.groupSend c 0 kind g arg)).Quiet s c :=
  .of_core (s.core_sendItem c c _ _ _ _ _)

/-! #### Engine commands (21 R369-R378) -/

/-- A transfer that issues. -/
theorem State.xferGo_quiet (x : Xfer) {after : State → Xfer → State}
    (h : ∀ t y, ((after t y).core c).arch = (t.core c).arch) : (s.xferGo c x after).Quiet s c :=
  .ite rfl ((h _ _).trans (congrArg Core.arch (s.core_xferIssue c c x)))

/-- A matrix or drain command that issues. -/
theorem State.mcmdGo_quiet (m : MCmd) (drain : Bool) : (s.mcmdGo c m drain).Quiet s c := by
  simp only [State.mcmdGo]
  refine .ite rfl (.of_core ?_)
  cases drain <;> exact s.core_setTile c

theorem cpyBody_quiet (h1 h2 n : BitVec 6) (ch dir : Nat) (post : Bool) (bar : BitVec 8) :
    (cpyBody h1 h2 n ch dir post bar c s).Quiet s c := by
  have issued {t : State} (h : (t.core c).arch = (s.core c).arch) (x : Xfer) (g k : Nat) : (t.xferGo c x (fun s x =>
      if k = 0 then (if dir = 1 then s.breakV (tileOf c) g k else s).xferDone (tileOf c) x
      else if dir = 1 then s.breakV (tileOf c) g k else s)).Quiet s c := by
    refine (t.xferGo_quiet c x (fun u y => ?_)).trans h
    have broken : ((if dir = 1 then u.breakV (tileOf c) g k else u).core c).arch = (u.core c).arch := by
      split
      · exact u.arch_breakV c _ _ _
      · rfl
    split
    · exact (State.arch_xferDone _ c _ _).trans broken
    · exact broken
  simp only [cpyBody]
  generalize firstBad _ = bad
  cases bad with
  | some code => rfl
  | none =>
    simp only []
    refine .ite (issued rfl _ _ _) ?_
    cases gBad (s.rdS c h2).v 8 with
    | some code => rfl
    | none =>
      simp only []
      refine .ite (issued rfl _ _ _) ?_
      rcases hr : s.gcheck (s.agentOf c) (s.needOf c (dir == 0) (dir == 1)) 8 8 (s.rdS c h2).v with ⟨t, k⟩
      have here : (t.core c).arch = (s.core c).arch := State.arch_gcheck hr
      cases k with
      | bad code va => exact here
      | busy => exact (t.arch_busyWait c c _).trans here
      | hold => exact here
      | ok pas z => exact issued here _ _ _

theorem cpymBody_quiet (h1 h2 n : BitVec 6) (ch : Nat) (post : Bool) (bar : BitVec 8) :
    (cpymBody h1 h2 n ch post bar c s).Quiet s c := by
  simp only [cpymBody]
  generalize firstBad _ = bad
  cases bad with
  | some code => rfl
  | none => exact s.xferGo_quiet c _ (fun _ _ => rfl)

theorem tensorBody_quiet (store : Bool) (h1 h2 n x : BitVec 6) (ch : Nat) (post : Bool) (bar : BitVec 8) :
    (tensorBody store h1 h2 n x ch post bar c s).Quiet s c := by
  simp only [tensorBody]
  generalize s.engPtr _ _ _ _ _ = bad
  cases bad with
  | some code => rfl
  | none =>
    simp only []
    cases gBad (s.rdS c h2).v 64 with
    | some code => rfl
    | none =>
      simp only []
      refine .ite rfl ?_
      rcases hr : s.gcheck (s.agentOf c) (s.needOf c true false) 64 64 (s.rdS c h2).v with ⟨t, k⟩
      have here : (t.core c).arch = (s.core c).arch := State.arch_gcheck hr
      cases k with
      | bad code va => exact here
      | busy => exact (t.arch_busyWait c c _).trans here
      | hold => exact here
      | ok pas z =>
        refine .ite here ?_
        have read : ((t.readDesc pas z).1.core c).arch = (s.core c).arch :=
          (congrArg Core.arch ((t.zpTouch_sameWork z pas).core c)).trans here
        generalize t.readDesc pas z = r at read ⊢
        generalize firstBad _ = bad
        cases bad with
        | some code => exact read
        | none =>
          refine (r.1.xferGo_quiet c _ (fun u y => ?_)).trans read
          split
          · exact u.arch_breakTst c _ _
          · rfl

theorem mmaBody_quiet (gather : Bool) (h1 h2 n acc ix : BitVec 6) (zero post : Bool) (bar : BitVec 8) :
    (mmaBody gather h1 h2 n acc ix zero post bar c s).Quiet s c := by
  simp only [mmaBody]
  generalize firstBad _ = bad
  cases bad with
  | some code => rfl
  | none =>
    simp only []
    generalize hm : s.mcmdGo c _ false = act
    have quiet : act.Quiet s c := hm ▸ s.mcmdGo_quiet c _ false
    cases act with
    | eff t => exact (congrArg Core.arch (t.core_gustNotice c _)).trans quiet
    | _ => exact quiet

theorem mdrainBody_quiet (h1 h2 n : BitVec 6) (rm : BitVec 2) (post : Bool) (bar : BitVec 8) :
    (mdrainBody h1 h2 n rm post bar c s).Quiet s c := by
  simp only [mdrainBody]
  generalize firstBad _ = bad
  cases bad with
  | some code => rfl
  | none => exact s.mcmdGo_quiet c _ true

theorem qntBody_quiet (h1 h2 n : BitVec 6) (rm : BitVec 2) (post : Bool) (bar : BitVec 8) :
    (qntBody h1 h2 n rm post bar c s).Quiet s c := by
  simp only [qntBody]
  generalize firstBad _ = bad
  cases bad with
  | some code => rfl
  | none => exact s.mcmdGo_quiet c _ true

/-! #### MSEND, LAUNCH and DONE (21 R363-R365) -/

theorem msendBody_quiet (a : BitVec 6) (cls : BitVec 3) (imm : BitVec 32) : (msendBody a cls imm c s).Quiet s c := by
  simp only [msendBody]
  refine .ite rfl ?_
  have fetched := State.arch_fetchN c c 2 s (relTarget (s.core c).blk.hdr imm)
  generalize s.fetchN c (relTarget (s.core c).blk.hdr imm) 2 = r at fetched ⊢
  obtain ⟨t, k⟩ := r
  cases k with
  | fault code va => exact fetched
  | wait => exact fetched
  | ok bytes =>
    exact .ite fetched (.ite ((t.arch_hold_none c c 8 false _ none none).trans fetched)
      ((State.arch_nextId _ c).trans ((congrArg Core.arch (t.core_sendItem c c _ _ _ _ _)).trans fetched)))

/-- LAUNCH with its packet in hand. -/
theorem launchGo_quiet (q : Nat) (kick : Bool) (pk : List Byte) : (launchGo q kick pk c s).Quiet s c :=
  .ite rfl ((State.arch_await_none _ c c 8 false _ _).trans (s.arch_launchSeq c c kick))

theorem launchBody_quiet (hk : kindOf c ≠ .sysm) (a b : BitVec 6) : (launchBody a b c s).Quiet s c := by
  simp only [launchBody]
  refine .ite rfl ?_
  cases mfind s.queues ((s.rdS c b).v.toNat % 65536) with
  | none => rfl
  | some qu =>
    simp only []
    refine .ite rfl (.ite (.of_core (s.core_logCtx c _ _ _ _ _ _)) ?_)
    cases hkd : kindOf c with
    | sysm => exact absurd hkd hk
    | _ =>
      rcases hr : s.gcheck (s.agentOf c) (s.needOf c true false) 64 64 (s.rdS c a).v with ⟨t, k⟩
      have here : (t.core c).arch = (s.core c).arch := State.arch_gcheck hr
      cases k with
      | bad code va => exact here
      | busy => exact (t.arch_busyWait c c _).trans here
      | hold => exact here
      | ok pas z =>
        refine .ite (.ite here ?_) ((launchGo_quiet _ c _ _ _).trans
          ((congrArg Core.arch ((t.zpTouch_sameWork z pas).core c)).trans here))
        exact (State.arch_markVa _ c c _).trans ((State.arch_hold_none _ c c 8 false _ none _).trans
          ((t.arch_launchSeq c c _).trans here))

/-- DONE's store, where it is made. -/
theorem State.doneWrite_quiet {pa : Nat} {z : Bool} {v : W64} {kick : List Nat} {seq : Nat} {k : Option Nat} {t : State}
    (h : s.doneWrite c pa z v kick seq k = some t) : (t.core c).arch = (s.core c).arch := by
  simp only [State.doneWrite] at h
  split at h
  · split at h
    · cases h
    · cases h
      exact (State.arch_modTile _ _ c).trans (congrArg Core.arch
        ((State.core_kickAt _ c _ _ _ _).trans ((s.homeWrite_sameWork _ _ _).core c)))
  · split at h
    · cases h
      exact congrArg Core.arch ((s.put_sameWork _ _).core c)
    · split at h
      · cases h
      · cases h
        exact congrArg Core.arch (s.core_gatePut c _ _ _ _ _)

theorem State.doneStore_quiet (pas : List Nat) (z : Bool) (v va : W64) : (s.doneStore c pas z v va).Quiet s c := by
  simp only [State.doneStore]
  refine .ite rfl ?_
  generalize (if s.inHbm (pas.headD 0) = true then s.notifyOf pas else []) = kick
  have issued := s.arch_storeIssue c c pas va 8 kick
  generalize s.storeIssue c pas va 8 kick = t at issued ⊢
  refine .ite ((State.arch_markVa _ c c _).trans ((t.arch_hold_none c c 8 false _ _ none).trans issued)) ?_
  generalize hw : t.doneWrite c _ z v kick _ _ = made
  cases made with
  | some u => exact (t.doneWrite_quiet c hw).trans issued
  | none =>
    refine (State.arch_markVa _ c c _).trans (Eq.trans ?_ issued)
    split
    · exact t.arch_hold_none c c 8 false _ _ none
    · exact t.arch_await_none c c 8 false _ none

theorem doneBody_quiet (a b : BitVec 6) : (doneBody a b c s).Quiet s c := by
  simp only [doneBody]
  rcases hr : s.gcheck (s.agentOf c) (s.needOf c false true) 8 8 (s.rdS c a).v with ⟨t, k⟩
  have here : (t.core c).arch = (s.core c).arch := State.arch_gcheck hr
  cases k with
  | bad code va => exact here
  | busy => exact (t.arch_busyWait c c _).trans here
  | hold => exact here
  | ok pas z => exact (t.doneStore_quiet c pas z _ _).trans here

end

end Sys2Proof.Machine

/-! SUPPORT. The frames of the accesses, commands, messages and fences, and O15. -/

namespace Sys2Proof.Machine

/-! ### The requests of the load instructions -/

theorem loadReq_d (w : BitVec 3) (d : BitVec 5) (acq : Option Nat) (lda : Bool) : (loadReq w d acq lda).d = d := by
  unfold loadReq; split <;> rfl

theorem loadReq_cls (w : BitVec 3) (d : BitVec 5) (acq : Option Nat) (lda : Bool) : (loadReq w d acq lda).sh.cls = .s := by
  unfold loadReq; split <;> rfl

theorem vloadReq_d (w : BitVec 3) (d : BitVec 5) (acq : Option Nat) : (vloadReq w d acq).d = d := by
  unfold vloadReq; split <;> rfl

theorem vloadReq_cls (w : BitVec 3) (d : BitVec 5) (acq : Option Nat) : (vloadReq w d acq).sh.cls = .v := by
  unfold vloadReq; split <;> rfl

/-! ### Global memory at the issue of an access (06 R125) -/

/-- The bytes of m are those of memory, the leaf of the walk of an address apart. -/
def State.KeepsBut (s : State) (va : W64) (m : Mem) : Prop :=
  ∀ e, memRead m e = memRead s.mem e ∨ ∃ lv v, s.walk va.toNat 3 (s.ctx ((s.ctxOfCore s.cur).getD 256)).root = .leaf lv e v

theorem State.KeepsBut.of_eq {s : State} {va : W64} {m : Mem} (h : m = s.mem) : s.KeepsBut va m :=
  fun _ => .inl (congrArg (memRead · _) h)

/-! ### The accesses' frames (21 R347-R358) -/

section
variable {s t : State} (h : s.OnBlock) {i : Ins}
include h

/-- A load of global memory, of one address or of several. -/
theorem load_frames {cls : Cls} {d : BitVec 5} {req : CoreRef → State → LoadReq} {vas : CoreRef → State → List W64}
    (hd : (req s.cur s).d = d) (hc : (req s.cur s).sh.cls = cls)
    (he : issue i (suppVar cls d) (fun u s => s.loadGlobal u (req u s) (vas u s)) s = .next t) :
    (t.core s.cur).phase = .idle ∨ s.Frames t s.cur cls d 8 := by
  have load := (s.loadGlobal_frames 8 h.tile (req s.cur s) (vas s.cur s)).1
  rw [hd, hc] at load
  exact issue_frames h he load (suppVar_frames cls d s.cur s 8)

theorem load_memory {cls : Cls} {d : BitVec 5} {q : LoadReq} {b : BitVec 6}
    (he : issue i (suppVar cls d) (fun u s => s.loadGlobal u q [(s.rdS u b).v]) s = .next t) : s.KeepsBut (s.op b).v t.mem :=
  issue_memory h he (.of_eq rfl) (s.loadGlobal_one h.tile q _) (.of_eq (suppVar_mem cls d s.cur s))

/-- A store of global memory. -/
theorem store_frames {va : CoreRef → State → W64} {n al e : Nat} {data : CoreRef → State → List (Nat × Byte)} {rel : Option Nat}
    (he : issue i suppNone (fun u s => s.storeGlobal u (va u s) n al e (data u s) rel) s = .next t) :
    (t.core s.cur).phase = .idle ∨ s.Frames t s.cur .s 31 8 :=
  issue_quiet h he (s.storeGlobal_quiet h.tile _ _ _ _ _ _).1 rfl

theorem store_memory {b : BitVec 6} {n al e : Nat} {data : CoreRef → State → List (Nat × Byte)} {rel : Option Nat}
    (he : issue i suppNone (fun u s => s.storeGlobal u (s.rdS u b).v n al e (data u s) rel) s = .next t) :
    s.KeepsBut (s.op b).v t.mem :=
  issue_memory h he (.of_eq rfl) (s.storeGlobal_mem h.tile _ _ _ _ _ _) (.of_eq rfl)

/-- VST stores where a lane is valid (21 R351). -/
theorem vst_keeps {st : BitVec 3} {b a : BitVec 6} {r : BitVec 1} {p w : BitVec 3} (he : execVst st b a r p w s = .next t) :
    ((t.core s.cur).phase = .idle ∨ s.Frames t s.cur .s 31 8) ∧ s.KeepsBut (s.op b).v t.mem := by
  have stored (P : Act → Prop) (hd : P (.done s)) (hs : ∀ n e data, P (s.storeGlobal s.cur (s.op b).v n n e data (ordOf r p))) :
      P (if anyLane (s.rdV s.cur a) then s.storeGlobal s.cur (s.op b).v (16 * (vssize w).getD 1) (16 * (vssize w).getD 1)
        ((vssize w).getD 1) (laneBytes ((vssize w).getD 1) (s.rdV s.cur a)) (ordOf r p) else .done s) := by
    split
    · exact hs _ _ _
    · exact hd
  exact ⟨issue_quiet h he (stored (·.Quiet s s.cur) rfl (fun _ _ _ => (s.storeGlobal_quiet h.tile _ _ _ _ _ _).1)) rfl,
    issue_memory h he (.of_eq rfl) (stored (fun a => s.KeepsBut (s.op b).v a.state.mem) (.of_eq rfl)
      (fun _ _ _ => s.storeGlobal_mem h.tile _ _ _ _ _ _)) (.of_eq rfl)⟩

theorem chka_keeps {st : BitVec 3} {b : BitVec 6} {c : BitVec 1} {p w : BitVec 3} {d : BitVec 5}
    (he : execChka st b c p d w s = .next t) :
    ((t.core s.cur).phase = .idle ∨ s.Frames t s.cur .s d 8) ∧ s.KeepsBut (s.op b).v t.mem := by
  obtain ⟨registers, memory⟩ := chkaBody_frames s d 8 h.tile b _ (loadReq_d w d (ordOf c p) false) (loadReq_cls w d (ordOf c p) false)
  exact ⟨issue_frames h he registers (suppVar_frames .s d s.cur s 8),
    issue_memory h he (.of_eq rfl) memory (.of_eq (suppVar_mem .s d s.cur s))⟩

theorem amo_keeps {st : BitVec 3} {b z : BitVec 6} {d op : BitVec 5} {p : BitVec 3} {o : BitVec 2} {w : BitVec 1}
    (he : execAmo st b d op p o w z s = .next t) :
    ((t.core s.cur).phase = .idle ∨ s.Frames t s.cur .s d 8) ∧ s.KeepsBut (s.op b).v t.mem := by
  obtain ⟨registers, memory⟩ := globalAtomic_frames s d 8 h.tile b op.toNat (asize w) o p (fun u s => (s.rdS u z).v) (fun _ _ => 0)
  exact ⟨issue_frames h he registers (suppVar_frames .s d s.cur s 8),
    issue_memory h he (.of_eq rfl) memory (.of_eq (suppVar_mem .s d s.cur s))⟩

/-- LDL, LDFE and LDFE.fec (21 R348). -/
theorem ldl_frames {fe : Nat} {st : BitVec 3} {b : BitVec 6} {c : BitVec 1} {p w : BitVec 3} {d : BitVec 5} {q : BitVec 2}
    (he : ldlOp fe st b c p d w q s = .next t) : (t.core s.cur).phase = .idle ∨ s.Frames t s.cur .s d (b.toNat - 32) :=
  issue_frames h he (ptrLoad_frames s s.cur d b q _ fe (.scalar _ _) _) (suppVar_frames .s d s.cur s _)

theorem vldl_frames {st : BitVec 3} {b : BitVec 6} {c : BitVec 1} {p w : BitVec 3} {fe q : BitVec 2} {d : BitVec 5}
    (he : execVldl st b c p fe d w q s = .next t) : (t.core s.cur).phase = .idle ∨ s.Frames t s.cur .v d (b.toNat - 32) :=
  issue_frames h he (ptrLoad_frames s s.cur d b q _ fe.toNat (.vector _ _) _) (suppVar_frames .v d s.cur s _)

theorem amol_frames {st : BitVec 3} {b z v : BitVec 6} {d op : BitVec 5} {p : BitVec 3} {o : BitVec 2} {w : BitVec 1}
    (he : execAmol st b d op p o w z v s = .next t) : (t.core s.cur).phase = .idle ∨ s.Frames t s.cur .s d 8 :=
  issue_frames h he (localAtomic_frames s s.cur d 8 b op.toNat (asize w) o p _ _) (suppVar_frames .s d s.cur s 8)

/-- STL and VSTL (21 R348, R351). -/
theorem stl_frames {b : BitVec 6} {q : BitVec 2} {n u : Nat} {fe : Bool} {rel : Option Nat}
    {data : CoreRef → State → Option (List (Nat × Byte))}
    (he : issue i suppNone (fun c s => ptrStore b q n u fe rel data c s) s = .next t) :
    (t.core s.cur).phase = .idle ∨ s.Frames t s.cur .s 31 (b.toNat - 32) :=
  issue_frames h he (ptrStore_frames s s.cur b q n u fe rel data) (.of_arch rfl)

/-- GAUGE (11 R195). -/
theorem gauge_frames {st : BitVec 3} {a b : BitVec 6} (he : execGauge st a b s = .next t) :
    (t.core s.cur).phase = .idle ∨ s.Frames t s.cur .s 31 8 :=
  issue_quiet h he (Act.Quiet.ite rfl (.ite (groupHold_quiet s s.cur _ _ _) (groupSend_quiet s s.cur _ _ _))) rfl

/-- WAIT.all (19 R308). -/
theorem waitAll_frames {st : BitVec 3} (he : execWaitAll st s = .next t) :
    (t.core s.cur).phase = .idle ∨ s.Frames t s.cur .s 31 8 :=
  issue_quiet h he (Act.Quiet.ite rfl (.ite rfl rfl)) rfl

end

/-- Settles O15: issue takes the body of the instruction or its suppression, and each of them leaves the registers, the destination
and the pointer of a post-increment apart, and every byte that the walk of the address does not end at. -/
theorem accessFrames : Obligations.AccessFrames := by
  unfold Obligations.AccessFrames
  intro s t there tile _ block fresh x y frame
  have h : s.OnBlock := ⟨there, tile, block, fresh⟩
  refine ⟨fun st b a c r z p w d op o => ⟨?_, ?_, ?_, ?_, ?_, ?_⟩, fun st b a v c r e z p w d op q o fe => ⟨?_, ?_, ?_, ?_⟩,
    fun st p a b n k m ch dir rm post z bar imm => ?_⟩
  · simp only [List.mem_cons, List.not_mem_nil, or_false]
    rintro j (rfl | rfl | rfl | rfl) he
    · exact load_frames h (loadReq_d _ _ _ _) (loadReq_cls _ _ _ _) he
    · exact load_frames h (loadReq_d _ _ _ _) (loadReq_cls _ _ _ _) he
    · exact (chka_keeps h he).1
    · exact (amo_keeps h he).1
  · exact fun he => load_frames h (vloadReq_d _ _ _) (vloadReq_cls _ _ _) he
  · exact fun he => load_frames h rfl rfl he
  · exact fun he => load_frames h rfl rfl he
  · simp only [List.mem_cons, List.not_mem_nil, or_false]
    rintro j (rfl | rfl | rfl) he
    · exact store_frames h he
    · exact (vst_keeps h he).1
    · exact store_frames h he
  · simp only [List.mem_cons, List.not_mem_nil, or_false]
    rintro j (rfl | rfl | rfl | rfl | rfl | rfl | rfl | rfl | rfl) he
    · exact load_memory h he
    · exact load_memory h he
    · exact (chka_keeps h he).2
    · exact (amo_keeps h he).2
    · exact load_memory h he
    · exact load_memory h he
    · exact store_memory h he
    · exact (vst_keeps h he).2
    · exact store_memory h he
  · simp only [List.mem_cons, List.not_mem_nil, or_false]
    rintro j (rfl | rfl | rfl) he
    · exact ldl_frames h he
    · exact ldl_frames h he
    · exact ldl_frames h he
  · exact fun he => vldl_frames h he
  · exact fun he => amol_frames h he
  · simp only [List.mem_cons, List.not_mem_nil, or_false]
    rintro j (rfl | rfl) he
    · exact stl_frames h he
    · exact stl_frames h he
  · simp only [List.mem_cons, List.not_mem_nil, or_false]
    rintro j (rfl | rfl | rfl | rfl | rfl | rfl | rfl | rfl | rfl | rfl | rfl | rfl | rfl | rfl | rfl | rfl | rfl | rfl | rfl) he
    · exact issue_quiet h he (cpyBody_quiet _ _ _ _ _ _ _ _ _) rfl
    · exact issue_quiet h he (cpymBody_quiet _ _ _ _ _ _ _ _) rfl
    · exact issue_quiet h he (tensorBody_quiet _ _ _ _ _ _ _ _ _ _) rfl
    · exact issue_quiet h he (tensorBody_quiet _ _ _ _ _ _ _ _ _ _) rfl
    · exact issue_quiet h he (mmaBody_quiet _ _ _ _ _ _ _ _ _ _ _) rfl
    · exact issue_quiet h he (mmaBody_quiet _ _ _ _ _ _ _ _ _ _ _) rfl
    · exact issue_quiet h he (mdrainBody_quiet _ _ _ _ _ _ _ _) rfl
    · exact issue_quiet h he (qntBody_quiet _ _ _ _ _ _ _ _) rfl
    · exact issue_quiet h he (msendBody_quiet _ _ _ _ _) rfl
    · exact issue_quiet h he (launchBody_quiet _ _ h.tile _ _) rfl
    · exact issue_quiet h he (doneBody_quiet _ _ _ _) rfl
    · exact issue_quiet h he (fenceBody_quiet _ _ _ _) rfl
    · exact issue_quiet h he (prefBody_quiet _ _ h.tile _) rfl
    · exact issue_quiet h he (hfreeBody_quiet _ _ _) rfl
    · exact issue_quiet h he (gleaveBody_quiet _ _ _) rfl
    · exact issue_quiet h he (bexpBody_quiet _ _ _ _) rfl
    · exact gauge_frames h he
    · exact waitAll_frames h he
    · exact issue_quiet h he rfl rfl

end Sys2Proof.Machine
